-- ==== Sys2Proof/Word.lean ====
section
/-! DEFINITION. The word types of the block: bytes, the 32-bit words of the setup window (R484), 64-bit bus
addresses and payloads, and the 512-bit beat that also holds one descriptor (R54, R229). -/

namespace Sys2Proof

abbrev Byte := BitVec 8
abbrev Word32 := BitVec 32
abbrev Word64 := BitVec 64
/-- A descriptor is 64 bytes; bit 0 is bit 0 of byte 0 (R229, R13). -/
abbrev Desc := BitVec 512

end Sys2Proof
end

