-- ==== Sys2Proof/Syntax.lean ====
section
/-! DEFINITION. The commands of the block: one constructor per row of spec/opcode_table.json, with the operands that
come from outside the block (a pin's event, a setup or Push write, a bus response, what a die returns) or that name
the unit at which an internal step falls due (spec/95_what_each_step_holds.md). -/

namespace Sys2Proof

/-- One beat of a Push port write (Table 2.3): address bits [15:6], data, byte strobes, PSH_LAST. -/
structure Beat where
  addr : BitVec 10
  data : BitVec 512
  strb : BitVec 64
  last : Bool
deriving DecidableEq, Repr

/-- What a calibration finds: the calibrated pull-up, pull-down and termination codes (R107, R108) and, for each, that the
value sought lies beyond the code range (R109). -/
structure CalReport where
  pu : BitVec 6
  pd : BitVec 6
  odt : BitVec 6
  puOver : Bool
  pdOver : Bool
  odtOver : Bool
deriving DecidableEq, Repr

/-- A passing window of one DQ bit in delay steps (R117). -/
structure Window where
  lo : Nat
  hi : Nat
deriving DecidableEq, Repr

/-- What a training run measures (R115 to R118). Outer lists run over the targets 0 to 7; `read` then over the
receiver levels 8, 10, .. 22 (one level in a refresh training), then over the eight DQ bits. -/
structure TrainReport where
  dccOk : Bool
  /-- Per target: delay steps from TDQSRE to the preamble edge, or none (R117). -/
  gate : List (Option Nat)
  read : List (List (List Window))
  write : List (List Window)
deriving DecidableEq, Repr

/-- What drift tracking saw in one period (R120): per DQ bit the disagreements of the early and the late sampler. -/
structure DriftReport where
  early : List Nat
  late : List Nat
deriving DecidableEq, Repr

/-- Outcome of the (79,64) DEC-TED check of one code word: one or two bits corrected, or uncorrectable (R137). -/
inductive ReadErr where
  | clean | corrected | bad
deriving DecidableEq, Repr

/-- A small store of a channel engine that a read is uncorrectable in (last rows of Table 13.8): its park slots and op lane, or the per-LUN
state. -/
inductive SmallStore where
  | slot | lunState
deriving DecidableEq, Repr

/-- What the checks of one fetch find: of the micro row and of the nano-word's parts A, B and C; and an uncorrectable read that the
routine meets in a small store as the word runs. -/
structure FetchErr where
  row : ReadErr := .clean
  a : ReadErr := .clean
  b : ReadErr := .clean
  c : ReadErr := .clean
  small : Option SmallStore := none
deriving DecidableEq, Repr

/-- A fetch without a bit error. -/
def FetchErr.clean : FetchErr := {}

/-- Where TIMOP takes its value from (Table 4.7). -/
inductive TimerSrc where
  | imm (v : BitVec 16)
  | reg (rs : Fin 16)
deriving DecidableEq, Repr

/-- A data output burst as the channel engine receives it (R124, R125): its bytes, and whether every DQS edge kept to the
trained gate and to the expected count. -/
structure ReadBurst where
  data : List Byte
  edgesOk : Bool
deriving DecidableEq, Repr

/-- An on-chip store read that the checker reports (R439): bank and row, words corrected or uncorrectable. -/
structure SramRead where
  bank : Fin 37
  row : Nat
  bad : Bool
  /-- The word of the row; it has been written, by a fill of its bank too, since its last read that was reported (R440). -/
  word : Fin 8 := 0
  written : Bool := false
deriving DecidableEq, Repr

/-- A port's turn to issue a request (R395), and the on-chip store reads of its data that met an error (R439). -/
structure PortTurn where
  port : Fin 2
  sram : List SramRead := []
deriving DecidableEq, Repr

/-- How a decode job ends (R285): the decoder's output word, the iterations run, a slice fault code when the slice
failed (0 none, 1 result check, 2 working storage, Table 13.4), and the store reads that met an error. -/
structure DecodeReport where
  word : List Byte
  iters : Nat
  sliceErr : BitVec 2
  sram : List SramRead
deriving DecidableEq, Repr

/-- A unit with a status block (R429). -/
inductive FltUnit where
  | chan (n : Fin 32)
  | quad (q : Fin 8)
  | slice (s : Fin 18)
  | top (k : Fin 6)
deriving DecidableEq, Repr

/-- What the start-up step that ends reports: calibration codes per quad (step 5), banks whose checker failed with
the RESULT of the failing read (R444), slices that failed with vector and corrected count (R445), Chanters that failed
their store check and the value computed by Q0 (R156). -/
structure StartupReport where
  cal : List CalReport
  banksBad : List (Fin 37 × BitVec 2)
  slicesBad : List (Fin 18 × BitVec 2 × Nat)
  romBad : BitVec 9
deriving DecidableEq, Repr

/-- The commands. -/
inductive Instr where
  /-- RESET_N_ASSERT (R50). -/
  | resetNAssert
  /-- RESET_N_DEASSERT (R475). -/
  | resetNDeassert
  /-- STARTUP_STEP (R475). -/
  | startupStep (rep : StartupReport)
  /-- FUSE_ACK (R81). -/
  | fuseAck (data : Word32)
  /-- FUSE_TIMEOUT (R81). -/
  | fuseTimeout
  /-- WAKE_N_FALL (R427). -/
  | wakeNFall
  /-- WAKE_N_IDLE_WINDOW (R427). -/
  | wakeNIdleWindow
  /-- PWRFAIL_LATCH (R478). -/
  | pwrfailLatch
  /-- HOLDUP_EXPIRY (R480). -/
  | holdupExpiry
  /-- PWR_ACK_RISE (R79). -/
  | pwrAckRise (d : Fin 28)
  /-- PWR_ACK_FALL (R79). -/
  | pwrAckFall (d : Fin 28)
  /-- CCLK_ACK_RISE (R49). -/
  | cclkAckRise
  /-- CCLK_ACK_FALL (R49). -/
  | cclkAckFall
  /-- PWR_ACK_LATE (R80). -/
  | pwrAckLate (idx : Fin 29) (excess : Nat)
  /-- PLL_LOCK_LOSS (R452). -/
  | pllLockLoss (q : Fin 8)
  /-- PLL_RELOCK (R453). -/
  | pllRelock (q : Fin 8) (locked : Bool)
  /-- TEST_MODE_HIGH (R90). -/
  | testModeHigh
  /-- RB_N_TRANSITION (R126). -/
  | rbNTransition (ch : Fin 32) (t : Fin 8)
  /-- RB_CHATTER_WINDOW (R127). -/
  | rbChatterWindow (q : Fin 8) (c : Fin 4) (t : Fin 8)
  /-- FATAL_CAUSE (R436). -/
  | fatalCause (cause : Fin 8) (ctx : Word32)
  /-- SAFE_STATE_RELEASE (R133). -/
  | safeStateRelease (ch : Fin 32)
  /-- REGISTER_WRITE (R16). -/
  | registerWrite (addr : BitVec 18) (w : Word32)
  /-- APPLY (R99). -/
  | apply (q : Fin 8) (w : Word32)
  /-- APPLY_DRAINED (R99). -/
  | applyDrained (q : Fin 8)
  /-- APPLY_PLL_LOCK_TIMEOUT (R99). -/
  | applyPllLockTimeout (q : Fin 8)
  /-- ZQ_START (R107). -/
  | zqStart (q : Fin 8) (w : Word32)
  /-- LONG_CALIBRATION (R107). -/
  | longCalibration (q : Fin 8) (rep : CalReport)
  /-- SHORT_CALIBRATION (R108). -/
  | shortCalibration (q : Fin 8) (rep : CalReport)
  /-- TRAIN_START (R113). -/
  | trainStart (ch : Fin 32) (w : Word32)
  /-- TRAINING_DONE (R115). -/
  | trainingDone (ch : Fin 32) (rep : TrainReport)
  /-- DRIFT_PERIOD_END (R120). -/
  | driftPeriodEnd (ch : Fin 32) (rep : DriftReport)
  /-- TRACKING_BURST (R121). -/
  | trackingBurst (ch : Fin 32) (t : Fin 8)
  /-- STUCK_CLEAR (R127). -/
  | stuckClear (ch : Fin 32) (w : Word32)
  /-- PATCH_ROW_COMMIT (R158). -/
  | patchRowCommit (j : Fin 512) (w : Word32)
  /-- NANO_WORD_COMMIT (R158). -/
  | nanoWordCommit (i : Fin 128) (w : Word32)
  /-- ACTIVATE (R161). -/
  | activate (w : Word32)
  /-- PAT_CLEAR (R163). -/
  | patClear (w : Word32)
  /-- PATCH_BANK_SWITCH (R161). -/
  | patchBankSwitch (k : Fin 9)
  /-- VALIDATE (R166). -/
  | validate (w : Word32)
  /-- VALIDATE_DONE (R166). -/
  | validateDone
  /-- STRIPE_SEL_WRITE (R188). -/
  | stripeSelWrite (w : Word32)
  /-- TEMP_WRITE (R182). -/
  | tempWrite (g : Fin 16) (w : Word32)
  /-- SQ_ENABLE (R202). -/
  | sqEnable (sq : Fin 128) (w : Word32)
  /-- CQ_ENABLE (R203). -/
  | cqEnable (cq : Fin 32) (w : Word32)
  /-- EV_ENABLE (R416). -/
  | evEnable (r : Fin 2) (w : Word32)
  /-- EV_DISABLE (R416). -/
  | evDisable (r : Fin 2) (w : Word32)
  /-- FRESET_GRACEFUL (R383). -/
  | fresetGraceful
  /-- FRESET_IMMEDIATE (R383). -/
  | fresetImmediate
  /-- FRESET_BOUND_EXPIRY (R383). -/
  | fresetBoundExpiry
  /-- FRESET_DONE (R383). -/
  | fresetDone
  /-- LOCK (R485). -/
  | lock (w : Word32)
  /-- BLW_CLR (R290). -/
  | blwClr (w : Word32)
  /-- RLHC_CLR (R486). -/
  | rlhcClr (w : Word32)
  /-- FATAL_TEST (R436). -/
  | fatalTest (w : Word32)
  /-- FATAL_CLEAR (R438). -/
  | fatalClear (w : Word32) (persist : Word32)
  /-- REPAIR (R442). -/
  | repair (w : Word32)
  /-- TESTREAD (R447). -/
  | testread (w : Word32) (errs : Nat)
  /-- BAL_INJECT_ARM (R446). -/
  | balInjectArm (w : Word32)
  /-- BLW_INJECT_ARM (R446). -/
  | blwInjectArm (w : Word32)
  /-- PAT_INJECT_ARM (R446). -/
  | patInjectArm (w : Word32)
  /-- LUN_FENCE (R435). -/
  | lunFence (ch : Fin 32) (w : Word32)
  /-- LUN_UNFENCE (R435). -/
  | lunUnfence (ch : Fin 32) (w : Word32)
  /-- CHANNEL_FENCE (R435). -/
  | channelFence (ch : Fin 32) (w : Word32)
  /-- CHANNEL_UNFENCE (R435). -/
  | channelUnfence (ch : Fin 32) (w : Word32)
  /-- QUAD_FENCE (R435). -/
  | quadFence (q : Fin 8) (w : Word32)
  /-- QUAD_UNFENCE (R435). -/
  | quadUnfence (q : Fin 8) (w : Word32)
  /-- DECLARE (R449). -/
  | declare (q : Fin 8) (w : Word32)
  /-- FLT_VALID_CLEAR (R431). -/
  | fltValidClear (u : FltUnit) (w : Word32)
  /-- DEEP (R469). -/
  | deep (w : Word32)
  /-- WAKE (R471). -/
  | wake (w : Word32)
  /-- QUAD_ON (R465). -/
  | quadOn (q : Fin 8) (w : Word32)
  /-- PWRFAIL_LATCH_CLEAR (R481). -/
  | pwrfailLatchClear (w : Word32) (pinHigh : Bool)
  /-- WAKE_N_UNMASK (R427). -/
  | wakeNUnmask (w : Word32)
  /-- WAKE_TIMER_FIRE (R426). -/
  | wakeTimerFire
  /-- INLINE_PUSH (R204). -/
  | inlinePush (beats : List Beat)
  /-- SQ_TAIL_DOORBELL (R209). -/
  | sqTailDoorbell (beats : List Beat)
  /-- CQ_HEAD_DOORBELL (R213). -/
  | cqHeadDoorbell (beats : List Beat)
  /-- EV_HEAD_DOORBELL (R417). -/
  | evHeadDoorbell (beats : List Beat)
  /-- DOORBELL_SHADOW_WRITE (R59). -/
  | doorbellShadowWrite (beats : List Beat)
  /-- DOORBELL_SHADOW_DRAIN (R32). -/
  | doorbellShadowDrain
  /-- RING_FETCH (R209). -/
  | ringFetch (sq : Fin 128)
  /-- STALE_REFETCH (R211), with the tag that its completion takes when the eighth refetch was stale (R212). -/
  | staleRefetch (sq : Fin 128) (t : Fin 4096)
  /-- NOP (R262). -/
  | nop (sq : Fin 128) (t : Fin 4096)
  /-- READ (R240). -/
  | read (sq : Fin 128) (t : Fin 4096)
  /-- READ_RAW (R241). -/
  | readRaw (sq : Fin 128) (t : Fin 4096)
  /-- COPY (R242). -/
  | copy (sq : Fin 128) (t : Fin 4096)
  /-- PROGRAM_APPEND (R244). -/
  | programAppend (sq : Fin 128) (t : Fin 4096)
  /-- PROGRAM_AT (R245). -/
  | programAt (sq : Fin 128) (t : Fin 4096)
  /-- ERASE (R246). -/
  | erase (sq : Fin 128) (t : Fin 4096)
  /-- ERASE_CHECK (R247). -/
  | eraseCheck (sq : Fin 128) (t : Fin 4096)
  /-- STRIPE_OPEN (R248). -/
  | stripeOpen (sq : Fin 128) (t : Fin 4096)
  /-- STRIPE_CLOSE (R249). -/
  | stripeClose (sq : Fin 128) (t : Fin 4096)
  /-- SUBSTITUTE (R250). -/
  | substitute (sq : Fin 128) (t : Fin 4096)
  /-- REBUILD (R251). -/
  | rebuild (sq : Fin 128) (t : Fin 4096)
  /-- TALLY_WRITE (R252). -/
  | tallyWrite (sq : Fin 128) (t : Fin 4096)
  /-- TALLY_SCAN (R253). -/
  | tallyScan (sq : Fin 128) (t : Fin 4096)
  /-- FLUSH (R254). -/
  | flush (sq : Fin 128) (t : Fin 4096)
  /-- ABORT (R256). -/
  | abort (sq : Fin 128) (t : Fin 4096)
  /-- RLH_SYNC (R258). -/
  | rlhSync (sq : Fin 128) (t : Fin 4096)
  /-- DIE_CMD (R259). -/
  | dieCmd (sq : Fin 128) (t : Fin 4096)
  /-- ROUTINE (R261). -/
  | routine (sq : Fin 128) (t : Fin 4096)
  /-- COMPLETION_WRITE (R221). -/
  | completionWrite (cq : Fin 32)
  /-- CQ_STALL (R225). -/
  | cqStall (cq : Fin 32)
  /-- OFFER_ROUTINE (R355). -/
  | offerRoutine (ch : Fin 32)
  /-- UNPARK (R145). -/
  | unpark (ch : Fin 32)
  /-- CHANTER_TIMER_EXPIRE (R144). -/
  | chanterTimerExpire (g : Fin 1024)
  /-- NEXT (R140). -/
  | nextSeq (ch : Fin 32) (err : FetchErr)
  /-- JUMP (R140). -/
  | jump (ch : Fin 32) (err : FetchErr)
  /-- BRANCH (R138). -/
  | branch (ch : Fin 32) (err : FetchErr)
  /-- CALL (R139). -/
  | callSeq (ch : Fin 32) (err : FetchErr)
  /-- RET (R139). -/
  | ret (ch : Fin 32) (err : FetchErr)
  /-- YIELD (R144). -/
  | yield (ch : Fin 32) (err : FetchErr)
  /-- END (R154). -/
  | endSeq (ch : Fin 32) (err : FetchErr)
  /-- TRAP (R150). -/
  | trap (ch : Fin 32) (err : FetchErr)
  /-- RUN_LIMIT_FAULT (R150). -/
  | runLimitFault (ch : Fin 32)
  /-- WATCHDOG_FAULT (R150). -/
  | watchdogFault (ch : Fin 32)
  /-- REQACK (R148). -/
  | reqack (ch : Fin 32) (mask : BitVec 3)
  /-- TIMER_LOAD (R144). -/
  | timerLoad (ch : Fin 32) (src : TimerSrc) (unit : BitVec 2)
  /-- MOV (R141). -/
  | mov (ch : Fin 32) (rd : Fin 16) (imm : Word32)
  /-- MOVR (R141). -/
  | movr (ch : Fin 32) (rd : Fin 16) (rs : Fin 16)
  /-- ADD (R141). -/
  | add (ch : Fin 32) (rd : Fin 16) (rs : Fin 16) (imm : Word32)
  /-- SUB (R141). -/
  | sub (ch : Fin 32) (rd : Fin 16) (rs : Fin 16) (imm : Word32)
  /-- AND (R141). -/
  | andOp (ch : Fin 32) (rd : Fin 16) (rs : Fin 16) (imm : Word32)
  /-- OR (R141). -/
  | orOp (ch : Fin 32) (rd : Fin 16) (rs : Fin 16) (imm : Word32)
  /-- SHR (R141). -/
  | shr (ch : Fin 32) (rd : Fin 16) (rs : Fin 16) (imm : Word32)
  /-- SHL (R141). -/
  | shl (ch : Fin 32) (rd : Fin 16) (rs : Fin 16) (imm : Word32)
  /-- DEC (R141). -/
  | dec (ch : Fin 32) (rd : Fin 16)
  /-- LDK (R170). -/
  | ldk (ch : Fin 32) (rd : Fin 16) (imm : Word32)
  /-- LDX (R141). -/
  | ldx (ch : Fin 32) (rd : Fin 16) (rs : Fin 16)
  /-- LDS (R143). -/
  | lds (ch : Fin 32) (rd : Fin 16)
  /-- CMP (R141). -/
  | cmp (ch : Fin 32) (rs : Fin 16) (imm : Word32)
  /-- LDL (R180). -/
  | ldl (ch : Fin 32) (rd : Fin 16) (imm : Word32)
  /-- CE_ON (R103). -/
  | ceOn (ch : Fin 32)
  /-- CE_OFF (R143). -/
  | ceOff (ch : Fin 32)
  /-- CMD (R143). -/
  | cmd (ch : Fin 32)
  /-- ADDR (R143). -/
  | addr (ch : Fin 32)
  /-- DIN (R143), with the store reads of the burst that met an error (R440). -/
  | din (ch : Fin 32) (sram : List SramRead)
  /-- DOUT (R125). -/
  | dout (ch : Fin 32) (burst : ReadBurst)
  /-- STATUS (R143). -/
  | status (ch : Fin 32) (st : Byte)
  /-- TRN_RD (R117). -/
  | trnRd (ch : Fin 32) (data : List Byte)
  /-- TRN_WR (R118). -/
  | trnWr (ch : Fin 32)
  /-- STAGING_RESERVED (R23). -/
  | stagingReserved (ch : Fin 32)
  /-- LUN_TIME_LIMIT (R128). -/
  | lunTimeLimit (g : Fin 1024)
  /-- TRST_EXPIRY (R128). -/
  | trstExpiry (g : Fin 1024)
  /-- SUSPEND_LIMIT (R361). -/
  | suspendLimit (g : Fin 1024)
  /-- DIE_CMD_POLL_TIMEOUT (R259). -/
  | dieCmdPollTimeout (g : Fin 1024)
  /-- DEADLINE_PASS (R354). -/
  | deadlinePass (t : Fin 4096)
  /-- RESUME_MIN_WAIT (R360). -/
  | resumeMinWait (g : Fin 1024)
  /-- RESUME (R362). -/
  | resume (g : Fin 1024)
  /-- HOLD_MAX_EXPIRY (R362). -/
  | holdMaxExpiry (g : Fin 1024)
  /-- D0_PERIOD_END (R359). -/
  | d0PeriodEnd
  /-- DECODE_JOB_START (R288). -/
  | decodeJobStart (sl : Fin 18)
  /-- DECODE_JOB_DONE (R285). -/
  | decodeJobDone (sl : Fin 18) (rep : DecodeReport)
  /-- SLICE_JOB_OVERRUN (R448). -/
  | sliceJobOverrun (sl : Fin 18)
  /-- SLICE_SPARE_ACTIVE (R448): none when R445 passed, else the failing vector and its corrected count. -/
  | sliceSpareActive (sl : Fin 18) (fail : Option (BitVec 2 × Nat))
  /-- ROW_TRACK_EXPIRY (R442). -/
  | rowTrackExpiry (bank : Fin 37) (row : Nat)
  /-- RLH_MISS_WAIT (R303). -/
  | rlhMissWait (t : Fin 4096)
  /-- PAD_WAIT_EXPIRY (R333). -/
  | padWaitExpiry (g : Fin 1024)
  /-- SPOOL_REQUEST (R395). -/
  | spoolRequest (r : PortTurn)
  /-- SPOOL_WRITE_RESPONSE (R65). -/
  | spoolWriteResponse (port : Fin 2) (tid : Fin 256) (err : BitVec 2)
  /-- SPOOL_READ_DATA (R66). -/
  | spoolReadData (port : Fin 2) (tid : Fin 256) (err : BitVec 2) (data : List Byte)
  /-- POOL_REQUEST (R403). -/
  | poolRequest
  /-- POOL_ANSWER_OK (R70). -/
  | poolAnswerOk (cls : BitVec 2) (addr : BitVec 64)
  /-- POOL_EMPTY (R72). -/
  | poolEmpty
  /-- POOL_REFUSED (R71). -/
  | poolRefused (why : BitVec 3)
  /-- POOL_RESERVED_ANSWER (R73). -/
  | poolReservedAnswer
  /-- POOL_RETRY (R404). -/
  | poolRetry
  /-- POOL_EMPTY_LIMIT (R404). -/
  | poolEmptyLimit
  /-- EVENT_RECORD_WRITE (R415). -/
  | eventRecordWrite (r : Fin 2)
  /-- HOLDOFF_END (R423). -/
  | holdoffEnd (r : Fin 2)
  /-- SPARE_TAKEOVER_DONE (R450). -/
  | spareTakeoverDone
  /-- QUAD_IDLE_ENTRY (R463). -/
  | quadIdleEntry (q : Fin 8)
  /-- QUAD_OFF_ENTRY (R464). -/
  | quadOffEntry (q : Fin 8)
  /-- QUAD_WAKE (R466). -/
  | quadWake (q : Fin 8)
  /-- SLICE_PAIR_POWER (R467). -/
  | slicePairPower (b : Fin 9)
  /-- SLICE_PAIR_RELEASE (R467). -/
  | slicePairRelease (b : Fin 9)
  /-- DEEP_ENTRY_STEP (R470). -/
  | deepEntryStep
  /-- DEEP_EVENT_DRAIN_TIMEOUT (R470). -/
  | deepEventDrainTimeout
  /-- DEEP_WAKE (R473), with the row of the retention storage that is uncorrectable. -/
  | deepWake (ret : Option (BitVec 12))
  /-- PLL_LOCKED (R99). -/
  | pllLocked (q : Fin 8)
  /-- APPLY_HOLD_EXPIRY (R99). -/
  | applyHoldExpiry (q : Fin 8)
  /-- STORE_FILL_DONE (R462). -/
  | storeFillDone (d : Fin 28)
  /-- ROW_COPY_DONE (R442). -/
  | rowCopyDone (bank : Fin 37)
  /-- TET_TIME_LO_READ (R16). -/
  | tetTimeLoRead
  /-- PUSH_RESERVED_WRITE (R57). -/
  | pushReservedWrite (beats : List Beat)
deriving DecidableEq, Repr

end Sys2Proof
end

