-- ==== Sys2Proof/Config.lean ====
section
/-! DEFINITION. What one implementation fixes and the spec does not give: the sequencer ROM image (a binary fixed
per release, spec/00_scope.md) and the free values. Nothing here has a body that a proof could look into, but for
the default that an opaque constant needs to exist. -/

namespace Sys2Proof.Config

/-- Row j of the micro ROM, 64 data bits (R135, R136). The ROM image is delivered with the release and is not in
the spec but for Table 4.15. -/
opaque romRow : Nat → BitVec 64
/-- Nano ROM word i, 192 bits (R137). -/
opaque romNano : Nat → BitVec 192
/-- The value drawn for the k-th time the spec leaves a 32-bit value open. -/
opaque freeWord : Nat → BitVec 32

end Sys2Proof.Config
end

