-- ==== Sys2Proof/Machine/Bits.lean ====
section
/-! DEFINITION. Bit fields, sign extension and byte order (R13, and the [msb:lsb] notation of spec/00_scope.md). -/

namespace Sys2Proof.Machine

/-- Field [hi:lo] of w as a number. -/
def fld {n : Nat} (w : BitVec n) (hi lo : Nat) : Nat := w.toNat / 2 ^ lo % 2 ^ (hi + 1 - lo)

/-- Bit i of w. -/
def bit {n : Nat} (w : BitVec n) (i : Nat) : Bool := w.getLsbD i

/-- Ones in bits [hi:lo]. -/
def fmask (n hi lo : Nat) : BitVec n := BitVec.ofNat n ((2 ^ (hi + 1 - lo) - 1) * 2 ^ lo)

/-- w with field [hi:lo] set to v (its low bits). -/
def putFld {n : Nat} (w : BitVec n) (hi lo v : Nat) : BitVec n :=
  (w &&& ~~~ fmask n hi lo) ||| BitVec.ofNat n (v % 2 ^ (hi + 1 - lo) * 2 ^ lo)

/-- w with bit i set to b. -/
def putBit {n : Nat} (w : BitVec n) (i : Nat) (b : Bool) : BitVec n := putFld w i i b.toNat

/-- Keep the bits of m from a and the others from b. -/
def sel {n : Nat} (m a b : BitVec n) : BitVec n := (a &&& m) ||| (b &&& ~~~ m)

/-- Add with saturation at the largest value of a field of the given width. -/
def satAdd (width a b : Nat) : Nat := min (a + b) (2 ^ width - 1)

/-- A signed byte held in a number. -/
def sbyte (v : Nat) : Int := if v % 256 < 128 then (v % 256 : Int) else (v % 256 : Int) - 256

/-- A signed 32-bit value held in a number. -/
def sword (v : Nat) : Int := (BitVec.ofNat 32 v).toInt

/-- The number that little-endian bytes spell (R13). -/
def leNat : List Byte → Nat
  | [] => 0
  | b :: r => b.toNat + 256 * leNat r

/-- The k low bytes of v, least significant first (R13). -/
def natLe : Nat → Nat → List Byte
  | 0, _ => []
  | k + 1, v => BitVec.ofNat 8 v :: natLe k (v / 256)

/-- The ones of a number's low n bits. -/
def popcount : Nat → Nat → Nat
  | 0, _ => 0
  | n + 1, v => v % 2 + popcount n (v / 2)

/-- The positions of the ones among bits 0 to n - 1, ascending. -/
def onesOf (n v : Nat) : List Nat := (List.range n).filter (fun i => v.testBit i)

end Sys2Proof.Machine
end

