-- ==== Sys2Proof/Machine/Regs.lean ====
section
/-! DEFINITION. The setup window (R484, tables of spec/15_register_index.md): one row per register with its address, its
repetition, its reset value and the masks of its fields by access code (Table 0.3), and one name per field. -/

namespace Sys2Proof.Machine

/-- One register row: byte address, (stride, count) of its repetition with falling strides, reset value, and the bits of
access RW, RWL, W1C and W1S. Bits in no mask are RO, WO (which read 0) or reserved. -/
structure RegRow where
  base : Nat
  dims : List (Nat × Nat)
  reset : Nat
  rw : Nat
  rwl : Nat
  w1c : Nat
  w1s : Nat
deriving DecidableEq, Repr

/-- Whether offset o lies on the grid of the repetition. -/
def dimsHit : List (Nat × Nat) → Nat → Bool
  | [], o => o == 0
  | (st, n) :: r, o => decide (o / st < n) && dimsHit r (o % st)

/-- Whether the row holds byte address a. -/
def RegRow.hits (r : RegRow) (a : Nat) : Bool := decide (r.base ≤ a) && dimsHit r.dims (a - r.base)

/-- Registers: controller top. -/
def rowsTop : List RegRow := [
  ⟨0x0, [], 0x4B4E3200, 0x0, 0x0, 0x0, 0x0⟩,
  ⟨0x4, [], 0x32000201, 0x0, 0x0, 0x0, 0x0⟩,
  ⟨0x8, [], 0x0, 0x0, 0x0, 0x0, 0x1⟩,
  ⟨0x30, [], 0xBB80014, 0x0, 0x0, 0x0, 0x0⟩,
  ⟨0x40, [], 0x0, 0x0, 0x0, 0x0, 0x0⟩,
  ⟨0x44, [], 0x0, 0x0, 0x0, 0x0, 0x0⟩,
  ⟨0x48, [], 0x0, 0xFFFFFFF0, 0x0, 0x0, 0x0⟩,
  ⟨0x4C, [], 0x0, 0xFFFFFFFF, 0x0, 0x0, 0x0⟩,
  ⟨0x50, [], 0x0, 0x1FFF, 0x0, 0x0, 0x0⟩,
  ⟨0x100, [], 0x10000000, 0x0, 0x0, 0x0, 0x0⟩,
  ⟨0x104, [], 0x0, 0x0, 0x0, 0x0, 0x0⟩,
  ⟨0x200, [], 0x3E80000, 0x0, 0xFFFF0000, 0x0, 0x0⟩,
  ⟨0x204, [], 0x0, 0x0, 0x0, 0x0, 0x0⟩,
  ⟨0x208, [], 0x0, 0x0, 0x0, 0x0, 0x0⟩,
  ⟨0x20C, [], 0x0, 0x0, 0x0, 0x0, 0x0⟩]

/-- Registers: Tether. -/
def rowsTet : List RegRow := [
  ⟨0x1000, [], 0x0, 0x0, 0x0, 0x0, 0x0⟩,
  ⟨0x1004, [], 0x0, 0x0, 0x0, 0x0, 0x0⟩,
  ⟨0x1010, [], 0x108, 0x11F, 0x0, 0x0, 0x0⟩,
  ⟨0x1014, [], 0x0, 0x0, 0x0, 0x0, 0x0⟩,
  ⟨0x1018, [], 0x0, 0x0, 0x0, 0x0, 0x0⟩,
  ⟨0x101C, [], 0x0, 0x0, 0x0, 0x0, 0x0⟩,
  ⟨0x1030, [], 0x0, 0x0, 0x80003FFF, 0x0, 0x0⟩,
  ⟨0x1034, [], 0x0, 0x0, 0x0, 0xA0000000, 0x0⟩,
  ⟨0x1040, [], 0x0, 0x0, 0x0, 0x0, 0x0⟩,
  ⟨0x1044, [], 0x0, 0x0, 0x0, 0x0, 0x0⟩,
  ⟨0x1060, [(0x4, 8)], 0x4003E802, 0xE0FFFFFF, 0x0, 0x0, 0x0⟩,
  ⟨0x1100, [], 0x7, 0xFFFFFFFF, 0x0, 0x0, 0x0⟩,
  ⟨0x1104, [], 0x0, 0x0, 0x0, 0xFFFFFFFF, 0x0⟩,
  ⟨0x1108, [], 0x3E8080A, 0xFFFF0FFF, 0x0, 0x0, 0x0⟩,
  ⟨0x110C, [], 0x0, 0x0, 0x0, 0x80000000, 0x0⟩,
  ⟨0x1110, [], 0x0, 0xFFFFFFFF, 0x0, 0x0, 0x0⟩,
  ⟨0x1114, [], 0x0, 0xFFFFFFFF, 0x0, 0x0, 0x0⟩,
  ⟨0x1190, [(0x4, 28)], 0x0, 0x1FF, 0x0, 0x0, 0x0⟩]

/-- Registers: event rings. -/
def rowsEv : List RegRow := [
  ⟨0x2000, [], 0x4000000, 0x1F000000, 0x0, 0x0, 0x0⟩,
  ⟨0x2004, [], 0x0, 0xFFFFFFFF, 0x0, 0x0, 0x0⟩,
  ⟨0x2008, [], 0x0, 0xFFFFFFFF, 0x0, 0x0, 0x0⟩,
  ⟨0x200C, [], 0x0, 0x0, 0x0, 0x20000000, 0x0⟩,
  ⟨0x2010, [], 0x0, 0x0, 0x0, 0x0, 0x0⟩,
  ⟨0x2014, [], 0x0, 0x0, 0x0, 0x0, 0x0⟩,
  ⟨0x2018, [], 0x0, 0xFFFF00FF, 0x0, 0x0, 0x0⟩,
  ⟨0x201C, [], 0x0, 0x0, 0x0, 0x0, 0x0⟩,
  ⟨0x3000, [], 0x4000000, 0x1F000000, 0x0, 0x0, 0x0⟩,
  ⟨0x3004, [], 0x0, 0xFFFFFFFF, 0x0, 0x0, 0x0⟩,
  ⟨0x3008, [], 0x0, 0xFFFFFFFF, 0x0, 0x0, 0x0⟩,
  ⟨0x300C, [], 0x0, 0x0, 0x0, 0x20000000, 0x0⟩,
  ⟨0x3010, [], 0x0, 0x0, 0x0, 0x0, 0x0⟩,
  ⟨0x3014, [], 0x0, 0x0, 0x0, 0x0, 0x0⟩,
  ⟨0x3018, [], 0x0, 0xFFFF00FF, 0x0, 0x0, 0x0⟩,
  ⟨0x301C, [], 0x0, 0x0, 0x0, 0x0, 0x0⟩,
  ⟨0x2100, [], 0x82082082, 0x0, 0xFFFFFFFF, 0x0, 0x0⟩,
  ⟨0x2104, [], 0x20820820, 0x0, 0xFFFFFFFF, 0x0, 0x0⟩,
  ⟨0x2108, [], 0x8208208, 0x0, 0xFFFFFFFF, 0x0, 0x0⟩,
  ⟨0x210C, [], 0x82082082, 0x0, 0xFFFFFFFF, 0x0, 0x0⟩,
  ⟨0x2110, [], 0x20820820, 0x0, 0xFFFFFFFF, 0x0, 0x0⟩,
  ⟨0x2114, [], 0x8208208, 0x0, 0xFFFFFFFF, 0x0, 0x0⟩,
  ⟨0x2118, [], 0x88888888, 0x0, 0xFFFFFFFF, 0x0, 0x0⟩,
  ⟨0x211C, [], 0x55555555, 0x0, 0xFFFFFFFF, 0x0, 0x0⟩,
  ⟨0x2120, [], 0xE4400005, 0x0, 0xFFFFFFFF, 0x0, 0x0⟩,
  ⟨0x2124, [], 0x1, 0x0, 0xFFFFFFFF, 0x0, 0x0⟩,
  ⟨0x2140, [(0x4, 10)], 0x0, 0xFFFFFFFF, 0x0, 0x0, 0x0⟩,
  ⟨0x2180, [(0x4, 10)], 0x0, 0x0, 0x0, 0xFFFFFFFF, 0x0⟩,
  ⟨0x3100, [(0x4, 16)], 0x0, 0x0, 0x0, 0x0, 0x0⟩,
  ⟨0x3140, [], 0x0, 0x0, 0x0, 0x0, 0x0⟩]

/-- Registers: queues. -/
def rowsQueue : List RegRow := [
  ⟨0x4000, [(0x20, 128)], 0x4000000, 0x5F3F001F, 0x0, 0x0, 0x0⟩,
  ⟨0x4004, [(0x20, 128)], 0x0, 0xFFFFFFFF, 0x0, 0x0, 0x0⟩,
  ⟨0x4008, [(0x20, 128)], 0x0, 0xFFFFFFFF, 0x0, 0x0, 0x0⟩,
  ⟨0x400C, [(0x20, 128)], 0x0, 0x0, 0x0, 0x0, 0x0⟩,
  ⟨0x4010, [(0x20, 128)], 0x0, 0x0, 0x0, 0x0, 0x0⟩,
  ⟨0x4014, [(0x20, 128)], 0x0, 0x0, 0x0, 0x0, 0x0⟩,
  ⟨0x4018, [(0x20, 128)], 0x0, 0x0, 0x0, 0x0, 0x0⟩,
  ⟨0x401C, [(0x20, 128)], 0x0, 0x0, 0x0, 0x0, 0x0⟩,
  ⟨0x5000, [(0x20, 32)], 0x4000FFF, 0x5F000FFF, 0x0, 0x0, 0x0⟩,
  ⟨0x5004, [(0x20, 32)], 0x0, 0xFFFFFFFF, 0x0, 0x0, 0x0⟩,
  ⟨0x5008, [(0x20, 32)], 0x0, 0xFFFFFFFF, 0x0, 0x0, 0x0⟩,
  ⟨0x500C, [(0x20, 32)], 0x0, 0x0, 0x0, 0x20000000, 0x0⟩,
  ⟨0x5010, [(0x20, 32)], 0x0, 0x0, 0x0, 0x0, 0x0⟩,
  ⟨0x5014, [(0x20, 32)], 0x0, 0x0, 0x0, 0x0, 0x0⟩,
  ⟨0x5018, [(0x20, 32)], 0x0, 0x0, 0x0, 0x0, 0x0⟩,
  ⟨0x501C, [(0x20, 32)], 0x3E8, 0xFFFF, 0x0, 0x0, 0x0⟩]

/-- Registers: tenant windows. -/
def rowsWin : List RegRow := [
  ⟨0x6000, [], 0xC0000000, 0xC0000000, 0x0, 0x0, 0x0⟩,
  ⟨0x6080, [(0x80, 63)], 0x0, 0xC0000000, 0x0, 0x0, 0x0⟩,
  ⟨0x6010, [(0x80, 64), (0x8, 14)], 0x0, 0xE00FFFFF, 0x0, 0x0, 0x0⟩,
  ⟨0x6014, [(0x80, 64), (0x8, 14)], 0x0, 0xFFFFFF, 0x0, 0x0, 0x0⟩]

/-- Registers: Bridle, DMA. -/
def rowsBrd : List RegRow := [
  ⟨0x8000, [], 0xC0000064, 0x0, 0xC000FFFF, 0x0, 0x0⟩,
  ⟨0x8004, [], 0x190, 0x0, 0xFFFF, 0x0, 0x0⟩,
  ⟨0x8010, [], 0xC8, 0x0, 0xFFFFFF, 0x0, 0x0⟩,
  ⟨0x8014, [], 0x2710, 0x0, 0xFFFFFF, 0x0, 0x0⟩,
  ⟨0x8018, [], 0x186A0, 0x0, 0xFFFFFF, 0x0, 0x0⟩,
  ⟨0x801C, [], 0xF4240, 0x0, 0xFFFFFF, 0x0, 0x0⟩,
  ⟨0x8020, [], 0x0, 0x0, 0x0, 0x0, 0x0⟩,
  ⟨0x8024, [], 0x0, 0x0, 0x0, 0x0, 0x0⟩,
  ⟨0x8028, [], 0x0, 0x0, 0x0, 0x0, 0x0⟩,
  ⟨0x802C, [], 0x0, 0x0, 0x0, 0x0, 0x0⟩,
  ⟨0x8100, [(0x10, 8)], 0xC80003, 0x0, 0xFFFF00FF, 0x0, 0x0⟩,
  ⟨0x8104, [(0x10, 8)], 0x30D40, 0x0, 0x0, 0x0, 0x0⟩,
  ⟨0x8108, [(0x10, 8)], 0x0, 0x0, 0x0, 0x0, 0x0⟩,
  ⟨0x8400, [(0x4, 64)], 0x3210, 0xFFFF, 0x0, 0x0, 0x0⟩,
  ⟨0x9000, [], 0x3E80014, 0x0, 0xFFFFFFFF, 0x0, 0x0⟩,
  ⟨0x9004, [], 0x0, 0x0, 0x0, 0x0, 0x0⟩,
  ⟨0x9008, [], 0x0, 0x0, 0x0, 0x0, 0x0⟩,
  ⟨0x900C, [], 0x0, 0x0, 0x0, 0x0, 0x0⟩,
  ⟨0x9010, [], 0x0, 0x0, 0x0, 0x0, 0x0⟩,
  ⟨0x9014, [], 0x0, 0x0, 0x0, 0x0, 0x0⟩,
  ⟨0x9018, [], 0x0, 0x0, 0x0, 0x0, 0x0⟩,
  ⟨0x901C, [], 0x0, 0x0, 0x0, 0x0, 0x0⟩]

/-- Registers: geometry. -/
def rowsGeo : List RegRow := [
  ⟨0xA000, [(0x80, 4)], 0x0, 0x0, 0xEFEF0000, 0x0, 0x0⟩,
  ⟨0xA004, [(0x80, 4)], 0x0, 0x0, 0xFEFFFFFF, 0x0, 0x0⟩,
  ⟨0xA008, [(0x80, 4)], 0x0, 0x0, 0xFF7F7FFF, 0x0, 0x0⟩,
  ⟨0xA00C, [(0x80, 4)], 0x0, 0x0, 0x31F0000, 0x0, 0x0⟩,
  ⟨0xA010, [(0x80, 4)], 0x0, 0x0, 0xFFFFF0FF, 0x0, 0x0⟩,
  ⟨0xA014, [(0x80, 4)], 0x0, 0x0, 0xFFFFFF00, 0x0, 0x0⟩,
  ⟨0xA018, [(0x80, 4)], 0x465F00, 0x0, 0xFFFFFF00, 0x0, 0x0⟩,
  ⟨0xA01C, [(0x80, 4)], 0x5001F4, 0x0, 0xFFFFFFFF, 0x0, 0x0⟩,
  ⟨0xA020, [(0x80, 4)], 0x8981B58, 0x0, 0xFFFFFFFF, 0x0, 0x0⟩,
  ⟨0xA024, [(0x80, 4)], 0x1B5861A8, 0x0, 0xFFFFFFFF, 0x0, 0x0⟩,
  ⟨0xA028, [(0x80, 4)], 0xA07D0, 0x0, 0xFFFFFFFF, 0x0, 0x0⟩,
  ⟨0xA02C, [(0x80, 4)], 0x410012C, 0x0, 0xFFFFFFFF, 0x0, 0x0⟩,
  ⟨0xA030, [(0x80, 4)], 0x640000, 0x0, 0xFFFFFFFF, 0x0, 0x0⟩,
  ⟨0xA034, [(0x80, 4)], 0x0, 0x0, 0xFFFFFFFF, 0x0, 0x0⟩,
  ⟨0xA038, [(0x80, 4)], 0x0, 0x0, 0xFF0F00FF, 0x0, 0x0⟩,
  ⟨0xA03C, [(0x80, 4), (0x4, 4)], 0x0, 0x0, 0xFFF0FFF, 0x0, 0x0⟩,
  ⟨0xA200, [], 0x0, 0x0, 0x0, 0x0, 0x0⟩,
  ⟨0xA204, [], 0x0, 0x0, 0x0, 0x0, 0x0⟩,
  ⟨0xA208, [], 0x0, 0x0, 0x9F000FFF, 0x0, 0x0⟩,
  ⟨0xA20C, [], 0x0, 0x0, 0x80000000, 0x0, 0x0⟩,
  ⟨0xA210, [], 0x0, 0x0, 0xFFFFFFFF, 0x0, 0x0⟩,
  ⟨0xA214, [], 0x0, 0x0, 0xFFFFFFFF, 0x0, 0x0⟩,
  ⟨0xA218, [], 0x0, 0x0, 0xFFFFFFFF, 0x0, 0x0⟩,
  ⟨0xA21C, [], 0x0, 0x0, 0xFFFFFFFF, 0x0, 0x0⟩,
  ⟨0xA240, [(0x4, 16)], 0x0, 0x800000FF, 0x0, 0x0, 0x0⟩,
  ⟨0xA300, [], 0x0, 0xFFF, 0x0, 0x0, 0x0⟩,
  ⟨0xA380, [(0x4, 32)], 0x0, 0x0, 0x0, 0x0, 0x0⟩,
  ⟨0xA800, [(0x4, 512)], 0x0, 0x0, 0xFFFFFFFF, 0x0, 0x0⟩]

/-- Registers: Ballast. -/
def rowsBal : List RegRow := [
  ⟨0xB000, [], 0x0, 0x0, 0x0, 0xBF, 0x0⟩,
  ⟨0xB004, [], 0x0, 0x0, 0x0, 0x0, 0x0⟩,
  ⟨0xB008, [], 0x0, 0x0, 0x0, 0x0, 0x0⟩,
  ⟨0xB010, [], 0x18000003, 0x0, 0xFF00000F, 0x0, 0x0⟩,
  ⟨0xB014, [], 0x0, 0x0, 0x0, 0x0, 0x0⟩,
  ⟨0xB018, [], 0x0, 0x0, 0x0, 0x0, 0x0⟩,
  ⟨0xB020, [], 0x0, 0xFF0FFFFF, 0x0, 0x0, 0x0⟩,
  ⟨0xB024, [], 0x0, 0x0, 0x0, 0x0, 0x0⟩,
  ⟨0xB100, [(0x10, 6)], 0x0, 0x0, 0x0, 0x0, 0x0⟩,
  ⟨0xB104, [(0x10, 6)], 0x0, 0x0, 0x0, 0x0, 0x0⟩,
  ⟨0xB108, [(0x10, 6)], 0x0, 0x0, 0x0, 0x0, 0x0⟩,
  ⟨0xB10C, [(0x10, 6)], 0x0, 0xFFFFFFFF, 0x0, 0x0, 0x0⟩,
  ⟨0xB300, [(0x4, 37)], 0x0, 0x0, 0x0, 0x0, 0x0⟩]

/-- Registers: quads. -/
def rowsQuad : List RegRow := [
  ⟨0x10100, [(0x10000, 8)], 0x0, 0x0, 0xF0000000, 0x0, 0x0⟩,
  ⟨0x10104, [(0x10000, 8)], 0x0, 0x0, 0x0, 0x0, 0x0⟩,
  ⟨0x10110, [(0x10000, 8)], 0x640000, 0xFF0000, 0x0, 0x0, 0x0⟩,
  ⟨0x10114, [(0x10000, 8)], 0x202020, 0x0, 0x0, 0x0, 0x0⟩,
  ⟨0x10200, [(0x10000, 8)], 0x0, 0x0, 0x0, 0x0, 0x0⟩,
  ⟨0x10204, [(0x10000, 8)], 0x0, 0x0, 0x0, 0x0, 0x0⟩,
  ⟨0x10208, [(0x10000, 8)], 0x0, 0x0, 0x0, 0x0, 0x0⟩,
  ⟨0x1020C, [(0x10000, 8)], 0x0, 0xFFFFFFFF, 0x0, 0x0, 0x0⟩,
  ⟨0x10210, [(0x10000, 8)], 0x400, 0x0, 0xF00, 0x0, 0x0⟩,
  ⟨0x11000, [(0x10000, 8)], 0x3E8, 0x0, 0xFFFF, 0x0, 0x0⟩,
  ⟨0x11010, [(0x10000, 8), (0x4, 4)], 0x0, 0x0, 0x0, 0x0, 0x0⟩,
  ⟨0x11020, [(0x10000, 8)], 0x0, 0x0, 0x0, 0x0, 0x0⟩]

/-- Registers: channels. -/
def rowsChan : List RegRow := [
  ⟨0x14000, [(0x10000, 8), (0x1000, 4)], 0x0, 0x0, 0xFFE0FF01, 0x0, 0x0⟩,
  ⟨0x14004, [(0x10000, 8), (0x1000, 4)], 0x1, 0x0, 0x0, 0x0, 0x0⟩,
  ⟨0x14010, [(0x10000, 8), (0x1000, 4)], 0x230A0505, 0x0, 0xFFFFFFFF, 0x0, 0x0⟩,
  ⟨0x14014, [(0x10000, 8), (0x1000, 4)], 0xB0B6464, 0x0, 0xFFFFFFFF, 0x0, 0x0⟩,
  ⟨0x14018, [(0x10000, 8), (0x1000, 4)], 0x50012C, 0x0, 0xFFF0FFF, 0x0, 0x0⟩,
  ⟨0x1401C, [(0x10000, 8), (0x1000, 4)], 0x12C0014, 0x0, 0xFFF00FF, 0x0, 0x0⟩,
  ⟨0x14020, [(0x10000, 8), (0x1000, 4)], 0x42421900, 0x0, 0xFFFFFFFF, 0x0, 0x0⟩,
  ⟨0x14040, [(0x10000, 8), (0x1000, 4)], 0x5A0001F0, 0xFFFFFFF0, 0x0, 0x0, 0x0⟩,
  ⟨0x14044, [(0x10000, 8), (0x1000, 4)], 0x0, 0x0, 0x0, 0x0, 0x0⟩,
  ⟨0x14048, [(0x10000, 8), (0x1000, 4)], 0x0, 0x7FF, 0x0, 0x0, 0x0⟩,
  ⟨0x1404C, [(0x10000, 8), (0x1000, 4)], 0x0, 0xFF, 0x0, 0x0, 0x0⟩,
  ⟨0x14050, [(0x10000, 8), (0x1000, 4)], 0x0, 0x3F3F3F3F, 0x0, 0x0, 0x0⟩,
  ⟨0x14054, [(0x10000, 8), (0x1000, 4)], 0x0, 0x3F3F3F3F, 0x0, 0x0, 0x0⟩,
  ⟨0x14058, [(0x10000, 8), (0x1000, 4)], 0x0, 0x3F3F3F3F, 0x0, 0x0, 0x0⟩,
  ⟨0x1405C, [(0x10000, 8), (0x1000, 4)], 0x0, 0x3F3F3F3F, 0x0, 0x0, 0x0⟩,
  ⟨0x14060, [(0x10000, 8), (0x1000, 4)], 0x20, 0xFF, 0x0, 0x0, 0x0⟩,
  ⟨0x14064, [(0x10000, 8), (0x1000, 4)], 0x10, 0x1F, 0x0, 0x0, 0x0⟩,
  ⟨0x14070, [(0x10000, 8), (0x1000, 4)], 0xA100C00, 0xFFFFFF00, 0x0, 0x0, 0x0⟩,
  ⟨0x14074, [(0x10000, 8), (0x1000, 4)], 0x0, 0x0, 0x0, 0xC0000000, 0x0⟩,
  ⟨0x14080, [(0x10000, 8), (0x1000, 4)], 0x400000, 0xFF00FF, 0x0, 0x0, 0x0⟩,
  ⟨0x14084, [(0x10000, 8), (0x1000, 4)], 0xFFFF, 0x0, 0x0, 0xFF000000, 0x0⟩,
  ⟨0x14100, [(0x10000, 8), (0x1000, 4)], 0x0, 0x0, 0x0, 0x0, 0x0⟩,
  ⟨0x14104, [(0x10000, 8), (0x1000, 4)], 0x0, 0x0, 0x0, 0x0, 0x0⟩,
  ⟨0x14108, [(0x10000, 8), (0x1000, 4)], 0x0, 0x0, 0x0, 0x0, 0x0⟩,
  ⟨0x1410C, [(0x10000, 8), (0x1000, 4)], 0x0, 0xFFFFFFFF, 0x0, 0x0, 0x0⟩,
  ⟨0x14110, [(0x10000, 8), (0x1000, 4)], 0x0, 0x0, 0x0, 0xFFFFFFFF, 0x0⟩,
  ⟨0x14114, [(0x10000, 8), (0x1000, 4)], 0x0, 0x0, 0x0, 0x0, 0xFFFFFFFF⟩,
  ⟨0x14118, [(0x10000, 8), (0x1000, 4)], 0x0, 0x0, 0x0, 0x0, 0x0⟩,
  ⟨0x1411C, [(0x10000, 8), (0x1000, 4)], 0x0, 0x0, 0x0, 0x0, 0x0⟩]

/-- Registers: Bellows, patch stores and read tables. -/
def rowsHigh : List RegRow := [
  ⟨0x90000, [], 0x40F0F02, 0x0, 0x1F1F0F02, 0x0, 0x0⟩,
  ⟨0x90004, [], 0x0, 0x0, 0x0, 0x0, 0x0⟩,
  ⟨0x90008, [], 0x0, 0x0, 0x0, 0x0, 0x0⟩,
  ⟨0x90010, [], 0x0, 0x0, 0x0, 0x0, 0x0⟩,
  ⟨0x90014, [], 0x0, 0x0, 0x0, 0x0, 0x0⟩,
  ⟨0x90018, [], 0x0, 0x0, 0x0, 0x0, 0x0⟩,
  ⟨0x9001C, [], 0x0, 0x0, 0x0, 0x0, 0x0⟩,
  ⟨0x90020, [], 0x0, 0x0, 0x0, 0x0, 0x0⟩,
  ⟨0x90030, [], 0x0, 0x1F, 0x0, 0x0, 0x0⟩,
  ⟨0x90100, [(0x10, 18)], 0x0, 0x0, 0x0, 0x0, 0x0⟩,
  ⟨0x90104, [(0x10, 18)], 0x0, 0x0, 0x0, 0x0, 0x0⟩,
  ⟨0x90108, [(0x10, 18)], 0x0, 0x0, 0x0, 0x0, 0x0⟩,
  ⟨0x9010C, [(0x10, 18)], 0x0, 0xFFFFFFFF, 0x0, 0x0, 0x0⟩,
  ⟨0xA0000, [], 0x0, 0x0, 0x0, 0x0, 0x0⟩,
  ⟨0xA0004, [], 0x20000000, 0x0, 0x0, 0x40000000, 0x0⟩,
  ⟨0xA0008, [], 0x0, 0x0, 0x0, 0x0, 0x0⟩,
  ⟨0xA0010, [(0x4, 2)], 0x0, 0x0, 0x0, 0x0, 0x0⟩,
  ⟨0xA0020, [], 0x0, 0x0, 0x0, 0x0, 0x0⟩,
  ⟨0xA0030, [], 0x0, 0x3, 0x0, 0x0, 0x0⟩,
  ⟨0xA0100, [(0x4, 32)], 0x0, 0x0, 0x0, 0x0, 0x0⟩,
  ⟨0xA0200, [(0x4, 32)], 0x0, 0x0, 0x0, 0x0, 0x0⟩,
  ⟨0xA8000, [(0x8, 512), (0x4, 2)], 0x0, 0x0, 0x0, 0x0, 0x0⟩,
  ⟨0xAC000, [(0x20, 128), (0x4, 8)], 0x0, 0x0, 0x0, 0x0, 0x0⟩,
  ⟨0xC0000, [(0x1000, 4), (0x10, 256), (0x4, 4)], 0x0, 0x0, 0xFFFFFFFF, 0x0, 0x0⟩,
  ⟨0xC8000, [(0x4, 4)], 0x4040000, 0x0, 0xFF070000, 0x0, 0x0⟩,
  ⟨0xC9000, [], 0x800C0004, 0x0, 0xFCFFF0FF, 0x0, 0x0⟩,
  ⟨0xC9004, [], 0x0, 0x0, 0x0, 0x0, 0x0⟩,
  ⟨0xC9008, [], 0x0, 0x0, 0x0, 0x0, 0x0⟩,
  ⟨0xC9010, [], 0x0, 0x0, 0x0, 0x0, 0x0⟩,
  ⟨0xC9014, [], 0x0, 0x0, 0x0, 0x0, 0x0⟩,
  ⟨0xC9018, [], 0x0, 0x0, 0x0, 0x0, 0x0⟩,
  ⟨0xC901C, [], 0x0, 0x0, 0x0, 0x0, 0x0⟩]

/-- The rows of the part of the window that holds address a: Tables 15.4 to 15.10. -/
def rowsAt (a : Nat) : List RegRow :=
  if a < 0x1000 then rowsTop
  else if a < 0x2000 then rowsTet
  else if a < 0x4000 then rowsEv
  else if a < 0x6000 then rowsQueue
  else if a < 0x8000 then rowsWin
  else if a < 0xA000 then rowsBrd
  else if a < 0xB000 then rowsGeo
  else if a < 0x10000 then rowsBal
  else if a < 0x90000 then (if a % 0x10000 < 0x4000 then rowsQuad else rowsChan)
  else rowsHigh

/-- The register at byte address a, none where no row holds it (R484, R15). -/
def regRow (a : Nat) : Option RegRow := (rowsAt a).find? (fun r => r.hits a)

/-- Value of the register word at a after RESET_N (the Reset columns). -/
def regReset (a : Nat) : Word32 := match regRow a with
  | some r => BitVec.ofNat 32 r.reset
  | none => 0

/-- One field: byte address of its register and its bits [hi:lo]. -/
structure Fld where
  adr : Nat
  hi : Nat
  lo : Nat
deriving DecidableEq, Repr

/-! The registers and fields by name. Channel registers take the channel number n, quad registers the quad q. -/

/-- TOP_ID (00 R2). -/
def TOP_ID.adr : Nat := 0x0
def TOP_ID.ID : Fld := ⟨TOP_ID.adr, 31, 0⟩
/-- TOP_VERSION (00 R2). -/
def TOP_VERSION.adr : Nat := 0x4
def TOP_VERSION.PART : Fld := ⟨TOP_VERSION.adr, 31, 16⟩
def TOP_VERSION.MAJOR : Fld := ⟨TOP_VERSION.adr, 15, 8⟩
def TOP_VERSION.MINOR : Fld := ⟨TOP_VERSION.adr, 7, 0⟩
/-- TOP_CTRL (15 R485). -/
def TOP_CTRL.adr : Nat := 0x8
def TOP_CTRL.LOCK : Fld := ⟨TOP_CTRL.adr, 0, 0⟩
/-- TOP_ABORT_BOUND (10 R380). -/
def TOP_ABORT_BOUND.adr : Nat := 0x30
def TOP_ABORT_BOUND.CEILING : Fld := ⟨TOP_ABORT_BOUND.adr, 31, 16⟩
def TOP_ABORT_BOUND.BOUND : Fld := ⟨TOP_ABORT_BOUND.adr, 15, 0⟩
/-- TOP_FRESET (10 R382). -/
def TOP_FRESET.adr : Nat := 0x40
def TOP_FRESET.START : Fld := ⟨TOP_FRESET.adr, 31, 31⟩
def TOP_FRESET.IMMEDIATE : Fld := ⟨TOP_FRESET.adr, 0, 0⟩
/-- TOP_FRESET_STAT (10 R383). -/
def TOP_FRESET_STAT.adr : Nat := 0x44
def TOP_FRESET_STAT.BUSY : Fld := ⟨TOP_FRESET_STAT.adr, 31, 31⟩
def TOP_FRESET_STAT.OVERFLOW : Fld := ⟨TOP_FRESET_STAT.adr, 30, 30⟩
def TOP_FRESET_STAT.MODE : Fld := ⟨TOP_FRESET_STAT.adr, 29, 29⟩
def TOP_FRESET_STAT.DROPPED : Fld := ⟨TOP_FRESET_STAT.adr, 28, 16⟩
def TOP_FRESET_STAT.ENTRIES : Fld := ⟨TOP_FRESET_STAT.adr, 12, 0⟩
/-- TOP_FRESET_LIST_LO (10 R385). -/
def TOP_FRESET_LIST_LO.adr : Nat := 0x48
def TOP_FRESET_LIST_LO.ADDR : Fld := ⟨TOP_FRESET_LIST_LO.adr, 31, 4⟩
/-- TOP_FRESET_LIST_HI (10 R385). -/
def TOP_FRESET_LIST_HI.adr : Nat := 0x4C
def TOP_FRESET_LIST_HI.ADDR : Fld := ⟨TOP_FRESET_LIST_HI.adr, 31, 0⟩
/-- TOP_FRESET_LIST_N (10 R385). -/
def TOP_FRESET_LIST_N.adr : Nat := 0x50
def TOP_FRESET_LIST_N.CAP : Fld := ⟨TOP_FRESET_LIST_N.adr, 12, 0⟩
/-- TOP_TAGS (06 R218). -/
def TOP_TAGS.adr : Nat := 0x100
def TOP_TAGS.SHARED_FREE : Fld := ⟨TOP_TAGS.adr, 28, 16⟩
def TOP_TAGS.IN_FLIGHT : Fld := ⟨TOP_TAGS.adr, 12, 0⟩
/-- TOP_COS (06 R220). -/
def TOP_COS.adr : Nat := 0x104
def TOP_COS.PEAK : Fld := ⟨TOP_COS.adr, 28, 16⟩
def TOP_COS.USED : Fld := ⟨TOP_COS.adr, 12, 0⟩
/-- TOP_WR_CTRL (09 R333). -/
def TOP_WR_CTRL.adr : Nat := 0x200
def TOP_WR_CTRL.PAD_WAIT : Fld := ⟨TOP_WR_CTRL.adr, 31, 16⟩
/-- TOP_WR_STAT (09 R319). -/
def TOP_WR_STAT.adr : Nat := 0x204
def TOP_WR_STAT.ACC_CHIP : Fld := ⟨TOP_WR_STAT.adr, 21, 16⟩
def TOP_WR_STAT.ACC_POOL : Fld := ⟨TOP_WR_STAT.adr, 15, 0⟩
/-- TOP_WR_PADS (09 R334). -/
def TOP_WR_PADS.adr : Nat := 0x208
def TOP_WR_PADS.COUNT : Fld := ⟨TOP_WR_PADS.adr, 31, 0⟩
/-- TOP_WR_EVICT (09 R336). -/
def TOP_WR_EVICT.adr : Nat := 0x20C
def TOP_WR_EVICT.COUNT : Fld := ⟨TOP_WR_EVICT.adr, 31, 0⟩
/-- TET_TIME_LO (14 T14.8). -/
def TET_TIME_LO.adr : Nat := 0x1000
def TET_TIME_LO.TIME : Fld := ⟨TET_TIME_LO.adr, 31, 0⟩
/-- TET_TIME_HI (14 T14.8). -/
def TET_TIME_HI.adr : Nat := 0x1004
def TET_TIME_HI.TIME : Fld := ⟨TET_TIME_HI.adr, 31, 0⟩
/-- TET_PWR_CTRL (14 T14.8). -/
def TET_PWR_CTRL.adr : Nat := 0x1010
def TET_PWR_CTRL.DEEP : Fld := ⟨TET_PWR_CTRL.adr, 31, 31⟩
def TET_PWR_CTRL.WAKE : Fld := ⟨TET_PWR_CTRL.adr, 30, 30⟩
def TET_PWR_CTRL.PAR_GATE : Fld := ⟨TET_PWR_CTRL.adr, 8, 8⟩
def TET_PWR_CTRL.B_GATE : Fld := ⟨TET_PWR_CTRL.adr, 4, 4⟩
def TET_PWR_CTRL.B_MIN : Fld := ⟨TET_PWR_CTRL.adr, 3, 0⟩
/-- TET_PWR_STAT (14 T14.8). -/
def TET_PWR_STAT.adr : Nat := 0x1014
def TET_PWR_STAT.BLOCK : Fld := ⟨TET_PWR_STAT.adr, 31, 29⟩
def TET_PWR_STAT.QSTATE : Fld := ⟨TET_PWR_STAT.adr, 15, 0⟩
/-- TET_DOM_STAT (14 T14.8). -/
def TET_DOM_STAT.adr : Nat := 0x1018
def TET_DOM_STAT.CCLK : Fld := ⟨TET_DOM_STAT.adr, 28, 28⟩
def TET_DOM_STAT.ON : Fld := ⟨TET_DOM_STAT.adr, 27, 0⟩
/-- TET_SLEEP_STAT (14 R469). -/
def TET_SLEEP_STAT.adr : Nat := 0x101C
def TET_SLEEP_STAT.REASON : Fld := ⟨TET_SLEEP_STAT.adr, 31, 24⟩
def TET_SLEEP_STAT.ABORTS : Fld := ⟨TET_SLEEP_STAT.adr, 15, 0⟩
/-- TET_HOLDUP (14 R478). -/
def TET_HOLDUP.adr : Nat := 0x1030
def TET_HOLDUP.FINISH : Fld := ⟨TET_HOLDUP.adr, 31, 31⟩
def TET_HOLDUP.TIME : Fld := ⟨TET_HOLDUP.adr, 13, 0⟩
/-- TET_PWRFAIL (14 R478). -/
def TET_PWRFAIL.adr : Nat := 0x1034
def TET_PWRFAIL.LATCH : Fld := ⟨TET_PWRFAIL.adr, 31, 31⟩
def TET_PWRFAIL.HOLDUP : Fld := ⟨TET_PWRFAIL.adr, 30, 30⟩
def TET_PWRFAIL.EXPIRED : Fld := ⟨TET_PWRFAIL.adr, 29, 29⟩
def TET_PWRFAIL.LEFT : Fld := ⟨TET_PWRFAIL.adr, 15, 0⟩
/-- TET_STARTUP (14 R475). -/
def TET_STARTUP.adr : Nat := 0x1040
def TET_STARTUP.READY : Fld := ⟨TET_STARTUP.adr, 31, 31⟩
def TET_STARTUP.FAILED : Fld := ⟨TET_STARTUP.adr, 30, 30⟩
def TET_STARTUP.STEP : Fld := ⟨TET_STARTUP.adr, 27, 24⟩
def TET_STARTUP.TIME : Fld := ⟨TET_STARTUP.adr, 15, 0⟩
/-- TET_ACK_CNT (14 T14.8). -/
def TET_ACK_CNT.adr : Nat := 0x1044
def TET_ACK_CNT.LATE : Fld := ⟨TET_ACK_CNT.adr, 15, 0⟩
/-- TET_QPOL (14 R463). -/
def TET_QPOL.adr (i : Nat) : Nat := 0x1060 + 0x4 * i
def TET_QPOL.ON (i : Nat) : Fld := ⟨TET_QPOL.adr i, 31, 31⟩
def TET_QPOL.IDLE_EN (i : Nat) : Fld := ⟨TET_QPOL.adr i, 30, 30⟩
def TET_QPOL.OFF_EN (i : Nat) : Fld := ⟨TET_QPOL.adr i, 29, 29⟩
def TET_QPOL.OFF_DLY (i : Nat) : Fld := ⟨TET_QPOL.adr i, 23, 8⟩
def TET_QPOL.IDLE_DLY (i : Nat) : Fld := ⟨TET_QPOL.adr i, 7, 0⟩
/-- TET_WAKE_EN (12 R426). -/
def TET_WAKE_EN.adr : Nat := 0x1100
def TET_WAKE_EN.EN : Fld := ⟨TET_WAKE_EN.adr, 31, 0⟩
/-- TET_WAKE_CAUSE (12 R426). -/
def TET_WAKE_CAUSE.adr : Nat := 0x1104
def TET_WAKE_CAUSE.CAUSE : Fld := ⟨TET_WAKE_CAUSE.adr, 31, 0⟩
/-- TET_WAKEN_CTRL (12 R427). -/
def TET_WAKEN_CTRL.adr : Nat := 0x1108
def TET_WAKEN_CTRL.IDLE_WIN : Fld := ⟨TET_WAKEN_CTRL.adr, 31, 16⟩
def TET_WAKEN_CTRL.IDLE_MAX : Fld := ⟨TET_WAKEN_CTRL.adr, 11, 8⟩
def TET_WAKEN_CTRL.GAP : Fld := ⟨TET_WAKEN_CTRL.adr, 7, 0⟩
/-- TET_WAKEN_STAT (12 R427). -/
def TET_WAKEN_STAT.adr : Nat := 0x110C
def TET_WAKEN_STAT.MASKED : Fld := ⟨TET_WAKEN_STAT.adr, 31, 31⟩
def TET_WAKEN_STAT.IGNORED : Fld := ⟨TET_WAKEN_STAT.adr, 23, 8⟩
def TET_WAKEN_STAT.IDLE : Fld := ⟨TET_WAKEN_STAT.adr, 3, 0⟩
/-- TET_WAKE_TIMER_LO (12 R426). -/
def TET_WAKE_TIMER_LO.adr : Nat := 0x1110
def TET_WAKE_TIMER_LO.TIME : Fld := ⟨TET_WAKE_TIMER_LO.adr, 31, 0⟩
/-- TET_WAKE_TIMER_HI (12 R426). -/
def TET_WAKE_TIMER_HI.adr : Nat := 0x1114
def TET_WAKE_TIMER_HI.TIME : Fld := ⟨TET_WAKE_TIMER_HI.adr, 31, 0⟩
/-- TET_WAKE_SEL (12 R426 (j = 4-31 at 0x1180+4j)). -/
def TET_WAKE_SEL.adr (j : Nat) : Nat := 0x1180 + 4 * j
def TET_WAKE_SEL.SOURCE (j : Nat) : Fld := ⟨TET_WAKE_SEL.adr j, 8, 0⟩
/-- EV_CFG (12 R416). -/
def EV_CFG.adr : Nat := 0x2000
def EV_CFG.EN : Fld := ⟨EV_CFG.adr, 31, 31⟩
def EV_CFG.DISABLE : Fld := ⟨EV_CFG.adr, 30, 30⟩
def EV_CFG.LOG2N : Fld := ⟨EV_CFG.adr, 28, 24⟩
/-- EV_BASE_LO (12 R416). -/
def EV_BASE_LO.adr : Nat := 0x2004
def EV_BASE_LO.ADDR : Fld := ⟨EV_BASE_LO.adr, 31, 0⟩
/-- EV_BASE_HI (12 R416). -/
def EV_BASE_HI.adr : Nat := 0x2008
def EV_BASE_HI.ADDR : Fld := ⟨EV_BASE_HI.adr, 31, 0⟩
/-- EV_STAT (12 R416). -/
def EV_STAT.adr : Nat := 0x200C
def EV_STAT.ENABLED : Fld := ⟨EV_STAT.adr, 31, 31⟩
def EV_STAT.FULL : Fld := ⟨EV_STAT.adr, 30, 30⟩
def EV_STAT.WERR : Fld := ⟨EV_STAT.adr, 29, 29⟩
def EV_STAT.HELD : Fld := ⟨EV_STAT.adr, 28, 28⟩
def EV_STAT.REASON : Fld := ⟨EV_STAT.adr, 23, 16⟩
def EV_STAT.QUEUED : Fld := ⟨EV_STAT.adr, 6, 0⟩
/-- EV_HEAD (12 R417). -/
def EV_HEAD.adr : Nat := 0x2010
def EV_HEAD.INDEX : Fld := ⟨EV_HEAD.adr, 16, 0⟩
/-- EV_TAIL (12 R415). -/
def EV_TAIL.adr : Nat := 0x2014
def EV_TAIL.INDEX : Fld := ⟨EV_TAIL.adr, 16, 0⟩
/-- EV_IRQ (12 R423). -/
def EV_IRQ.adr : Nat := 0x2018
def EV_IRQ.HOLDOFF : Fld := ⟨EV_IRQ.adr, 31, 16⟩
def EV_IRQ.COUNT : Fld := ⟨EV_IRQ.adr, 7, 0⟩
/-- EV_CNT (12 R419). -/
def EV_CNT.adr : Nat := 0x201C
def EV_CNT.COALESCED : Fld := ⟨EV_CNT.adr, 31, 16⟩
def EV_CNT.WRITTEN : Fld := ⟨EV_CNT.adr, 15, 0⟩
/-- FEV_CFG (12 R416). -/
def FEV_CFG.adr : Nat := 0x3000
def FEV_CFG.EN : Fld := ⟨FEV_CFG.adr, 31, 31⟩
def FEV_CFG.DISABLE : Fld := ⟨FEV_CFG.adr, 30, 30⟩
def FEV_CFG.LOG2N : Fld := ⟨FEV_CFG.adr, 28, 24⟩
/-- FEV_BASE_LO (12 R416). -/
def FEV_BASE_LO.adr : Nat := 0x3004
def FEV_BASE_LO.ADDR : Fld := ⟨FEV_BASE_LO.adr, 31, 0⟩
/-- FEV_BASE_HI (12 R416). -/
def FEV_BASE_HI.adr : Nat := 0x3008
def FEV_BASE_HI.ADDR : Fld := ⟨FEV_BASE_HI.adr, 31, 0⟩
/-- FEV_STAT (12 R416). -/
def FEV_STAT.adr : Nat := 0x300C
def FEV_STAT.ENABLED : Fld := ⟨FEV_STAT.adr, 31, 31⟩
def FEV_STAT.FULL : Fld := ⟨FEV_STAT.adr, 30, 30⟩
def FEV_STAT.WERR : Fld := ⟨FEV_STAT.adr, 29, 29⟩
def FEV_STAT.HELD : Fld := ⟨FEV_STAT.adr, 28, 28⟩
def FEV_STAT.REASON : Fld := ⟨FEV_STAT.adr, 23, 16⟩
def FEV_STAT.QUEUED : Fld := ⟨FEV_STAT.adr, 6, 0⟩
/-- FEV_HEAD (12 R417). -/
def FEV_HEAD.adr : Nat := 0x3010
def FEV_HEAD.INDEX : Fld := ⟨FEV_HEAD.adr, 16, 0⟩
/-- FEV_TAIL (12 R415). -/
def FEV_TAIL.adr : Nat := 0x3014
def FEV_TAIL.INDEX : Fld := ⟨FEV_TAIL.adr, 16, 0⟩
/-- FEV_IRQ (12 R423). -/
def FEV_IRQ.adr : Nat := 0x3018
def FEV_IRQ.HOLDOFF : Fld := ⟨FEV_IRQ.adr, 31, 16⟩
def FEV_IRQ.COUNT : Fld := ⟨FEV_IRQ.adr, 7, 0⟩
/-- FEV_CNT (12 R419). -/
def FEV_CNT.adr : Nat := 0x301C
def FEV_CNT.COALESCED : Fld := ⟨FEV_CNT.adr, 31, 16⟩
def FEV_CNT.WRITTEN : Fld := ⟨FEV_CNT.adr, 15, 0⟩
/-- EV_CLASS0 (12 R421, 15 R488). -/
def EV_CLASS0.adr : Nat := 0x2100
def EV_CLASS0.FAST : Fld := ⟨EV_CLASS0.adr, 31, 0⟩
/-- EV_CLASS1 (12 R421, 15 R488). -/
def EV_CLASS1.adr : Nat := 0x2104
def EV_CLASS1.FAST : Fld := ⟨EV_CLASS1.adr, 31, 0⟩
/-- EV_CLASS2 (12 R421, 15 R488). -/
def EV_CLASS2.adr : Nat := 0x2108
def EV_CLASS2.FAST : Fld := ⟨EV_CLASS2.adr, 31, 0⟩
/-- EV_CLASS3 (12 R421, 15 R488). -/
def EV_CLASS3.adr : Nat := 0x210C
def EV_CLASS3.FAST : Fld := ⟨EV_CLASS3.adr, 31, 0⟩
/-- EV_CLASS4 (12 R421, 15 R488). -/
def EV_CLASS4.adr : Nat := 0x2110
def EV_CLASS4.FAST : Fld := ⟨EV_CLASS4.adr, 31, 0⟩
/-- EV_CLASS5 (12 R421, 15 R488). -/
def EV_CLASS5.adr : Nat := 0x2114
def EV_CLASS5.FAST : Fld := ⟨EV_CLASS5.adr, 31, 0⟩
/-- EV_CLASS6 (12 R421, 15 R488). -/
def EV_CLASS6.adr : Nat := 0x2118
def EV_CLASS6.FAST : Fld := ⟨EV_CLASS6.adr, 31, 0⟩
/-- EV_CLASS7 (12 R421, 15 R488). -/
def EV_CLASS7.adr : Nat := 0x211C
def EV_CLASS7.FAST : Fld := ⟨EV_CLASS7.adr, 31, 0⟩
/-- EV_CLASS8 (12 R421, 15 R488). -/
def EV_CLASS8.adr : Nat := 0x2120
def EV_CLASS8.FAST : Fld := ⟨EV_CLASS8.adr, 31, 0⟩
/-- EV_CLASS9 (12 R421, 15 R488). -/
def EV_CLASS9.adr : Nat := 0x2124
def EV_CLASS9.FAST : Fld := ⟨EV_CLASS9.adr, 31, 0⟩
/-- EV_MASK (12 R421). -/
def EV_MASK.adr (i : Nat) : Nat := 0x2140 + 0x4 * i
def EV_MASK.MASK (i : Nat) : Fld := ⟨EV_MASK.adr i, 31, 0⟩
/-- EV_PEND (12 R422). -/
def EV_PEND.adr (i : Nat) : Nat := 0x2180 + 0x4 * i
def EV_PEND.PEND (i : Nat) : Fld := ⟨EV_PEND.adr i, 31, 0⟩
/-- FEV_SNAP (12 R424). -/
def FEV_SNAP.adr (i : Nat) : Nat := 0x3100 + 0x4 * i
def FEV_SNAP.WORD (i : Nat) : Fld := ⟨FEV_SNAP.adr i, 31, 0⟩
/-- FEV_SNAP_CNT (12 R424). -/
def FEV_SNAP_CNT.adr : Nat := 0x3140
def FEV_SNAP_CNT.COUNT : Fld := ⟨FEV_SNAP_CNT.adr, 15, 0⟩
/-- SQ_CFG (06 R201). -/
def SQ_CFG.adr (i : Nat) : Nat := 0x4000 + 0x20 * i
def SQ_CFG.EN (i : Nat) : Fld := ⟨SQ_CFG.adr i, 31, 31⟩
def SQ_CFG.MODE (i : Nat) : Fld := ⟨SQ_CFG.adr i, 30, 30⟩
def SQ_CFG.LOG2N (i : Nat) : Fld := ⟨SQ_CFG.adr i, 28, 24⟩
def SQ_CFG.TENANT (i : Nat) : Fld := ⟨SQ_CFG.adr i, 21, 16⟩
def SQ_CFG.CQ (i : Nat) : Fld := ⟨SQ_CFG.adr i, 4, 0⟩
/-- SQ_BASE_LO (06 R201). -/
def SQ_BASE_LO.adr (i : Nat) : Nat := 0x4004 + 0x20 * i
def SQ_BASE_LO.ADDR (i : Nat) : Fld := ⟨SQ_BASE_LO.adr i, 31, 0⟩
/-- SQ_BASE_HI (06 R201). -/
def SQ_BASE_HI.adr (i : Nat) : Nat := 0x4008 + 0x20 * i
def SQ_BASE_HI.ADDR (i : Nat) : Fld := ⟨SQ_BASE_HI.adr i, 31, 0⟩
/-- SQ_STAT (06 R202). -/
def SQ_STAT.adr (i : Nat) : Nat := 0x400C + 0x20 * i
def SQ_STAT.ENABLED (i : Nat) : Fld := ⟨SQ_STAT.adr i, 31, 31⟩
def SQ_STAT.TAG_WAIT (i : Nat) : Fld := ⟨SQ_STAT.adr i, 30, 30⟩
def SQ_STAT.STALE_WAIT (i : Nat) : Fld := ⟨SQ_STAT.adr i, 29, 29⟩
def SQ_STAT.REASON (i : Nat) : Fld := ⟨SQ_STAT.adr i, 23, 16⟩
/-- SQ_HEAD (06 R205). -/
def SQ_HEAD.adr (i : Nat) : Nat := 0x4010 + 0x20 * i
def SQ_HEAD.INDEX (i : Nat) : Fld := ⟨SQ_HEAD.adr i, 16, 0⟩
/-- SQ_TAIL (06 R204). -/
def SQ_TAIL.adr (i : Nat) : Nat := 0x4014 + 0x20 * i
def SQ_TAIL.INDEX (i : Nat) : Fld := ⟨SQ_TAIL.adr i, 16, 0⟩
/-- SQ_CNT (06 R214). -/
def SQ_CNT.adr (i : Nat) : Nat := 0x4018 + 0x20 * i
def SQ_CNT.STALE (i : Nat) : Fld := ⟨SQ_CNT.adr i, 31, 16⟩
def SQ_CNT.BAD (i : Nat) : Fld := ⟨SQ_CNT.adr i, 15, 0⟩
/-- SQ_TAGS (06 R218). -/
def SQ_TAGS.adr (i : Nat) : Nat := 0x401C + 0x20 * i
def SQ_TAGS.HELD (i : Nat) : Fld := ⟨SQ_TAGS.adr i, 12, 0⟩
/-- CQ_CFG (06 R203). -/
def CQ_CFG.adr (i : Nat) : Nat := 0x5000 + 0x20 * i
def CQ_CFG.EN (i : Nat) : Fld := ⟨CQ_CFG.adr i, 31, 31⟩
def CQ_CFG.NOTIFY (i : Nat) : Fld := ⟨CQ_CFG.adr i, 30, 30⟩
def CQ_CFG.LOG2N (i : Nat) : Fld := ⟨CQ_CFG.adr i, 28, 24⟩
def CQ_CFG.QUOTA_M1 (i : Nat) : Fld := ⟨CQ_CFG.adr i, 11, 0⟩
/-- CQ_BASE_LO (06 R203). -/
def CQ_BASE_LO.adr (i : Nat) : Nat := 0x5004 + 0x20 * i
def CQ_BASE_LO.ADDR (i : Nat) : Fld := ⟨CQ_BASE_LO.adr i, 31, 0⟩
/-- CQ_BASE_HI (06 R203). -/
def CQ_BASE_HI.adr (i : Nat) : Nat := 0x5008 + 0x20 * i
def CQ_BASE_HI.ADDR (i : Nat) : Fld := ⟨CQ_BASE_HI.adr i, 31, 0⟩
/-- CQ_STAT (06 R203). -/
def CQ_STAT.adr (i : Nat) : Nat := 0x500C + 0x20 * i
def CQ_STAT.ENABLED (i : Nat) : Fld := ⟨CQ_STAT.adr i, 31, 31⟩
def CQ_STAT.FULL (i : Nat) : Fld := ⟨CQ_STAT.adr i, 30, 30⟩
def CQ_STAT.STALLED (i : Nat) : Fld := ⟨CQ_STAT.adr i, 29, 29⟩
def CQ_STAT.REASON (i : Nat) : Fld := ⟨CQ_STAT.adr i, 23, 16⟩
def CQ_STAT.HELD (i : Nat) : Fld := ⟨CQ_STAT.adr i, 12, 0⟩
/-- CQ_HEAD (06 R213). -/
def CQ_HEAD.adr (i : Nat) : Nat := 0x5010 + 0x20 * i
def CQ_HEAD.INDEX (i : Nat) : Fld := ⟨CQ_HEAD.adr i, 16, 0⟩
/-- CQ_TAIL (06 R221). -/
def CQ_TAIL.adr (i : Nat) : Nat := 0x5014 + 0x20 * i
def CQ_TAIL.INDEX (i : Nat) : Fld := ⟨CQ_TAIL.adr i, 16, 0⟩
/-- CQ_WAIT (06 R223). -/
def CQ_WAIT.adr (i : Nat) : Nat := 0x5018 + 0x20 * i
def CQ_WAIT.COUNT (i : Nat) : Fld := ⟨CQ_WAIT.adr i, 12, 0⟩
/-- CQ_STALL (06 R225). -/
def CQ_STALL.adr (i : Nat) : Nat := 0x501C + 0x20 * i
def CQ_STALL.LIMIT (i : Nat) : Fld := ⟨CQ_STALL.adr i, 15, 0⟩
/-- GEO_WIN0_CTRL (05 R183). -/
def GEO_WIN0_CTRL.adr : Nat := 0x6000
def GEO_WIN0_CTRL.EN : Fld := ⟨GEO_WIN0_CTRL.adr, 31, 31⟩
def GEO_WIN0_CTRL.OWNER : Fld := ⟨GEO_WIN0_CTRL.adr, 30, 30⟩
def GEO_WIN0_CTRL.BADRANGE : Fld := ⟨GEO_WIN0_CTRL.adr, 13, 0⟩
/-- GEO_WIN_CTRL (05 R183 (t = 1-63)). -/
def GEO_WIN_CTRL.adr (t : Nat) : Nat := 0x6000 + 0x80 * t
def GEO_WIN_CTRL.EN (t : Nat) : Fld := ⟨GEO_WIN_CTRL.adr t, 31, 31⟩
def GEO_WIN_CTRL.OWNER (t : Nat) : Fld := ⟨GEO_WIN_CTRL.adr t, 30, 30⟩
def GEO_WIN_CTRL.BADRANGE (t : Nat) : Fld := ⟨GEO_WIN_CTRL.adr t, 13, 0⟩
/-- GEO_WIN_A (05 R183). -/
def GEO_WIN_A.adr (i j : Nat) : Nat := 0x6010 + 0x80 * i + 0x8 * j
def GEO_WIN_A.EN (i j : Nat) : Fld := ⟨GEO_WIN_A.adr i j, 31, 31⟩
def GEO_WIN_A.R (i j : Nat) : Fld := ⟨GEO_WIN_A.adr i j, 30, 30⟩
def GEO_WIN_A.W (i j : Nat) : Fld := ⟨GEO_WIN_A.adr i j, 29, 29⟩
def GEO_WIN_A.LUN_LAST (i j : Nat) : Fld := ⟨GEO_WIN_A.adr i j, 19, 10⟩
def GEO_WIN_A.LUN_FIRST (i j : Nat) : Fld := ⟨GEO_WIN_A.adr i j, 9, 0⟩
/-- GEO_WIN_B (05 R183). -/
def GEO_WIN_B.adr (i j : Nat) : Nat := 0x6014 + 0x80 * i + 0x8 * j
def GEO_WIN_B.EB_LAST (i j : Nat) : Fld := ⟨GEO_WIN_B.adr i j, 23, 12⟩
def GEO_WIN_B.EB_FIRST (i j : Nat) : Fld := ⟨GEO_WIN_B.adr i j, 11, 0⟩
/-- BRD_CTRL (10 T10.12). -/
def BRD_CTRL.adr : Nat := 0x8000
def BRD_CTRL.RAC_EN : Fld := ⟨BRD_CTRL.adr, 31, 31⟩
def BRD_CTRL.SUSP_EN : Fld := ⟨BRD_CTRL.adr, 30, 30⟩
def BRD_CTRL.WAIT_MAX : Fld := ⟨BRD_CTRL.adr, 15, 0⟩
/-- BRD_SUSP (10 T10.12). -/
def BRD_SUSP.adr : Nat := 0x8004
def BRD_SUSP.HOLD_MAX : Fld := ⟨BRD_SUSP.adr, 15, 0⟩
/-- BRD_CLASS0 (10 R353). -/
def BRD_CLASS0.adr : Nat := 0x8010
def BRD_CLASS0.DEFAULT : Fld := ⟨BRD_CLASS0.adr, 23, 0⟩
/-- BRD_CLASS1 (10 R353). -/
def BRD_CLASS1.adr : Nat := 0x8014
def BRD_CLASS1.DEFAULT : Fld := ⟨BRD_CLASS1.adr, 23, 0⟩
/-- BRD_CLASS2 (10 R353). -/
def BRD_CLASS2.adr : Nat := 0x8018
def BRD_CLASS2.DEFAULT : Fld := ⟨BRD_CLASS2.adr, 23, 0⟩
/-- BRD_CLASS3 (10 R353). -/
def BRD_CLASS3.adr : Nat := 0x801C
def BRD_CLASS3.DEFAULT : Fld := ⟨BRD_CLASS3.adr, 23, 0⟩
/-- BRD_CNT_SUSP (10 T10.12). -/
def BRD_CNT_SUSP.adr : Nat := 0x8020
def BRD_CNT_SUSP.COUNT : Fld := ⟨BRD_CNT_SUSP.adr, 31, 0⟩
/-- BRD_CNT_RAC_WON (10 R372). -/
def BRD_CNT_RAC_WON.adr : Nat := 0x8024
def BRD_CNT_RAC_WON.COUNT : Fld := ⟨BRD_CNT_RAC_WON.adr, 31, 0⟩
/-- BRD_CNT_RAC_LOST (10 R372). -/
def BRD_CNT_RAC_LOST.adr : Nat := 0x8028
def BRD_CNT_RAC_LOST.COUNT : Fld := ⟨BRD_CNT_RAC_LOST.adr, 31, 0⟩
/-- BRD_CNT_MISSED (10 T10.12). -/
def BRD_CNT_MISSED.adr : Nat := 0x802C
def BRD_CNT_MISSED.COUNT : Fld := ⟨BRD_CNT_MISSED.adr, 31, 0⟩
/-- BRD_CRED_CTRL (10 R368). -/
def BRD_CRED_CTRL.adr (i : Nat) : Nat := 0x8100 + 0x10 * i
def BRD_CRED_CTRL.BURST (i : Nat) : Fld := ⟨BRD_CRED_CTRL.adr i, 31, 16⟩
def BRD_CRED_CTRL.RATE_PCT (i : Nat) : Fld := ⟨BRD_CRED_CTRL.adr i, 7, 0⟩
/-- BRD_CRED_BAL (10 R368). -/
def BRD_CRED_BAL.adr (i : Nat) : Nat := 0x8104 + 0x10 * i
def BRD_CRED_BAL.BALANCE (i : Nat) : Fld := ⟨BRD_CRED_BAL.adr i, 25, 0⟩
/-- BRD_CRED_CNT (10 R368). -/
def BRD_CRED_CNT.adr (i : Nat) : Nat := 0x8108 + 0x10 * i
def BRD_CRED_CNT.REFUSED (i : Nat) : Fld := ⟨BRD_CRED_CNT.adr i, 31, 16⟩
def BRD_CRED_CNT.STARTED (i : Nat) : Fld := ⟨BRD_CRED_CNT.adr i, 15, 0⟩
/-- BRD_SHARE (10 R359). -/
def BRD_SHARE.adr (i : Nat) : Nat := 0x8400 + 0x4 * i
def BRD_SHARE.D0_PCT (i : Nat) : Fld := ⟨BRD_SHARE.adr i, 15, 8⟩
def BRD_SHARE.WEIGHT (i : Nat) : Fld := ⟨BRD_SHARE.adr i, 7, 0⟩
/-- DMA_POOL_CTRL (11 R404). -/
def DMA_POOL_CTRL.adr : Nat := 0x9000
def DMA_POOL_CTRL.EMPTY_LIMIT : Fld := ⟨DMA_POOL_CTRL.adr, 31, 16⟩
def DMA_POOL_CTRL.RETRY : Fld := ⟨DMA_POOL_CTRL.adr, 15, 0⟩
/-- DMA_STAT (11 T11.4). -/
def DMA_STAT.adr : Nat := 0x9004
def DMA_STAT.OUT1 : Fld := ⟨DMA_STAT.adr, 24, 16⟩
def DMA_STAT.OUT0 : Fld := ⟨DMA_STAT.adr, 8, 0⟩
/-- DMA_ERR_CNT (11 R400). -/
def DMA_ERR_CNT.adr : Nat := 0x9008
def DMA_ERR_CNT.PORT1 : Fld := ⟨DMA_ERR_CNT.adr, 31, 16⟩
def DMA_ERR_CNT.PORT0 : Fld := ⟨DMA_ERR_CNT.adr, 15, 0⟩
/-- DMA_LATE_CNT (11 R399). -/
def DMA_LATE_CNT.adr : Nat := 0x900C
def DMA_LATE_CNT.COUNT : Fld := ⟨DMA_LATE_CNT.adr, 15, 0⟩
/-- DMA_POOL_HELD0 (11 T11.4). -/
def DMA_POOL_HELD0.adr : Nat := 0x9010
def DMA_POOL_HELD0.C16K : Fld := ⟨DMA_POOL_HELD0.adr, 31, 16⟩
def DMA_POOL_HELD0.C4K : Fld := ⟨DMA_POOL_HELD0.adr, 15, 0⟩
/-- DMA_POOL_HELD1 (11 T11.4). -/
def DMA_POOL_HELD1.adr : Nat := 0x9014
def DMA_POOL_HELD1.C256K : Fld := ⟨DMA_POOL_HELD1.adr, 31, 16⟩
def DMA_POOL_HELD1.C64K : Fld := ⟨DMA_POOL_HELD1.adr, 15, 0⟩
/-- DMA_POOL_WAIT (11 T11.4). -/
def DMA_POOL_WAIT.adr : Nat := 0x9018
def DMA_POOL_WAIT.NEEDS : Fld := ⟨DMA_POOL_WAIT.adr, 12, 0⟩
/-- DMA_POOL_CNT (11 T11.4). -/
def DMA_POOL_CNT.adr : Nat := 0x901C
def DMA_POOL_CNT.EMPTY : Fld := ⟨DMA_POOL_CNT.adr, 31, 16⟩
def DMA_POOL_CNT.REFUSED : Fld := ⟨DMA_POOL_CNT.adr, 15, 0⟩
/-- GEO_DK_CTRL (05 R170). -/
def GEO_DK_CTRL.adr (i : Nat) : Nat := 0xA000 + 0x80 * i
def GEO_DK_CTRL.VALID (i : Nat) : Fld := ⟨GEO_DK_CTRL.adr i, 31, 31⟩
def GEO_DK_CTRL.IFMODE (i : Nat) : Fld := ⟨GEO_DK_CTRL.adr i, 30, 29⟩
def GEO_DK_CTRL.RATE (i : Nat) : Fld := ⟨GEO_DK_CTRL.adr i, 27, 24⟩
def GEO_DK_CTRL.SUSP (i : Nat) : Fld := ⟨GEO_DK_CTRL.adr i, 23, 23⟩
def GEO_DK_CTRL.SCHEME (i : Nat) : Fld := ⟨GEO_DK_CTRL.adr i, 22, 21⟩
def GEO_DK_CTRL.NOP (i : Nat) : Fld := ⟨GEO_DK_CTRL.adr i, 19, 16⟩
/-- GEO_DK_GEOM (05 R170). -/
def GEO_DK_GEOM.adr (i : Nat) : Nat := 0xA004 + 0x80 * i
def GEO_DK_GEOM.NPL_M1 (i : Nat) : Fld := ⟨GEO_DK_GEOM.adr i, 31, 29⟩
def GEO_DK_GEOM.NCW_M1 (i : Nat) : Fld := ⟨GEO_DK_GEOM.adr i, 28, 27⟩
def GEO_DK_GEOM.PSZ (i : Nat) : Fld := ⟨GEO_DK_GEOM.adr i, 26, 25⟩
def GEO_DK_GEOM.EBS_M1 (i : Nat) : Fld := ⟨GEO_DK_GEOM.adr i, 23, 12⟩
def GEO_DK_GEOM.PAGES_M1 (i : Nat) : Fld := ⟨GEO_DK_GEOM.adr i, 11, 0⟩
/-- GEO_DK_ADDR (05 R173). -/
def GEO_DK_ADDR.adr (i : Nat) : Nat := 0xA008 + 0x80 * i
def GEO_DK_ADDR.ROWCYC (i : Nat) : Fld := ⟨GEO_DK_ADDR.adr i, 31, 31⟩
def GEO_DK_ADDR.LUN_BITS (i : Nat) : Fld := ⟨GEO_DK_ADDR.adr i, 30, 29⟩
def GEO_DK_ADDR.PAGE_BITS (i : Nat) : Fld := ⟨GEO_DK_ADDR.adr i, 28, 24⟩
def GEO_DK_ADDR.PLANE_BITS (i : Nat) : Fld := ⟨GEO_DK_ADDR.adr i, 22, 20⟩
def GEO_DK_ADDR.EB_BITS (i : Nat) : Fld := ⟨GEO_DK_ADDR.adr i, 19, 16⟩
def GEO_DK_ADDR.PAGE_BYTES (i : Nat) : Fld := ⟨GEO_DK_ADDR.adr i, 14, 0⟩
/-- GEO_DK_WL (05 R175). -/
def GEO_DK_WL.adr (i : Nat) : Nat := 0xA00C + 0x80 * i
def GEO_DK_WL.PPWL_M1 (i : Nat) : Fld := ⟨GEO_DK_WL.adr i, 25, 24⟩
def GEO_DK_WL.WLG_M1 (i : Nat) : Fld := ⟨GEO_DK_WL.adr i, 20, 16⟩
/-- GEO_DK_RETRY (05 R176). -/
def GEO_DK_RETRY.adr (i : Nat) : Nat := 0xA010 + 0x80 * i
def GEO_DK_RETRY.RS_FADDR (i : Nat) : Fld := ⟨GEO_DK_RETRY.adr i, 31, 24⟩
def GEO_DK_RETRY.RS_NOFF (i : Nat) : Fld := ⟨GEO_DK_RETRY.adr i, 23, 20⟩
def GEO_DK_RETRY.RS_COUNT_M1 (i : Nat) : Fld := ⟨GEO_DK_RETRY.adr i, 19, 12⟩
def GEO_DK_RETRY.LADDER_MAX (i : Nat) : Fld := ⟨GEO_DK_RETRY.adr i, 7, 0⟩
/-- GEO_DK_DEFSET (05 R177). -/
def GEO_DK_DEFSET.adr (i : Nat) : Nat := 0xA014 + 0x80 * i
def GEO_DK_DEFSET.SET_COLD (i : Nat) : Fld := ⟨GEO_DK_DEFSET.adr i, 31, 24⟩
def GEO_DK_DEFSET.SET_NORM (i : Nat) : Fld := ⟨GEO_DK_DEFSET.adr i, 23, 16⟩
def GEO_DK_DEFSET.SET_HOT (i : Nat) : Fld := ⟨GEO_DK_DEFSET.adr i, 15, 8⟩
/-- GEO_DK_TEMP (05 R182). -/
def GEO_DK_TEMP.adr (i : Nat) : Nat := 0xA018 + 0x80 * i
def GEO_DK_TEMP.T_COLD (i : Nat) : Fld := ⟨GEO_DK_TEMP.adr i, 31, 24⟩
def GEO_DK_TEMP.T_HOT (i : Nat) : Fld := ⟨GEO_DK_TEMP.adr i, 23, 16⟩
def GEO_DK_TEMP.T_PROG_MAX (i : Nat) : Fld := ⟨GEO_DK_TEMP.adr i, 15, 8⟩
/-- GEO_DK_TREAD (05 T5.5). -/
def GEO_DK_TREAD.adr (i : Nat) : Nat := 0xA01C + 0x80 * i
def GEO_DK_TREAD.T_RFIRST (i : Nat) : Fld := ⟨GEO_DK_TREAD.adr i, 31, 16⟩
def GEO_DK_TREAD.T_RLIM (i : Nat) : Fld := ⟨GEO_DK_TREAD.adr i, 15, 0⟩
/-- GEO_DK_TPROG (05 T5.5). -/
def GEO_DK_TPROG.adr (i : Nat) : Nat := 0xA020 + 0x80 * i
def GEO_DK_TPROG.T_PFIRST (i : Nat) : Fld := ⟨GEO_DK_TPROG.adr i, 31, 16⟩
def GEO_DK_TPROG.T_PLIM (i : Nat) : Fld := ⟨GEO_DK_TPROG.adr i, 15, 0⟩
/-- GEO_DK_TERASE (05 T5.5). -/
def GEO_DK_TERASE.adr (i : Nat) : Nat := 0xA024 + 0x80 * i
def GEO_DK_TERASE.T_EFIRST (i : Nat) : Fld := ⟨GEO_DK_TERASE.adr i, 31, 16⟩
def GEO_DK_TERASE.T_ELIM (i : Nat) : Fld := ⟨GEO_DK_TERASE.adr i, 15, 0⟩
/-- GEO_DK_TPOLL (05 T5.5). -/
def GEO_DK_TPOLL.adr (i : Nat) : Nat := 0xA028 + 0x80 * i
def GEO_DK_TPOLL.T_POLL (i : Nat) : Fld := ⟨GEO_DK_TPOLL.adr i, 31, 16⟩
def GEO_DK_TPOLL.T_RST (i : Nat) : Fld := ⟨GEO_DK_TPOLL.adr i, 15, 0⟩
/-- GEO_DK_SUSP (05 T5.5). -/
def GEO_DK_SUSP.adr (i : Nat) : Nat := 0xA02C + 0x80 * i
def GEO_DK_SUSP.SUSP_PROG (i : Nat) : Fld := ⟨GEO_DK_SUSP.adr i, 31, 24⟩
def GEO_DK_SUSP.SUSP_ERASE (i : Nat) : Fld := ⟨GEO_DK_SUSP.adr i, 23, 16⟩
def GEO_DK_SUSP.RESUME_MIN (i : Nat) : Fld := ⟨GEO_DK_SUSP.adr i, 15, 0⟩
/-- GEO_DK_SUSPCMD (05 T5.5). -/
def GEO_DK_SUSPCMD.adr (i : Nat) : Nat := 0xA030 + 0x80 * i
def GEO_DK_SUSPCMD.T_SUSP (i : Nat) : Fld := ⟨GEO_DK_SUSPCMD.adr i, 31, 16⟩
def GEO_DK_SUSPCMD.SUSP_CMD (i : Nat) : Fld := ⟨GEO_DK_SUSPCMD.adr i, 15, 8⟩
def GEO_DK_SUSPCMD.RESUME_CMD (i : Nat) : Fld := ⟨GEO_DK_SUSPCMD.adr i, 7, 0⟩
/-- GEO_DK_ECHK (05 T5.5). -/
def GEO_DK_ECHK.adr (i : Nat) : Nat := 0xA034 + 0x80 * i
def GEO_DK_ECHK.PROG_MIN (i : Nat) : Fld := ⟨GEO_DK_ECHK.adr i, 31, 16⟩
def GEO_DK_ECHK.ERASED_MAX (i : Nat) : Fld := ⟨GEO_DK_ECHK.adr i, 15, 0⟩
/-- GEO_DK_MISC (05 T5.5). -/
def GEO_DK_MISC.adr (i : Nat) : Nat := 0xA038 + 0x80 * i
def GEO_DK_MISC.SLC_PFX (i : Nat) : Fld := ⟨GEO_DK_MISC.adr i, 31, 24⟩
def GEO_DK_MISC.TPOOL_N (i : Nat) : Fld := ⟨GEO_DK_MISC.adr i, 19, 16⟩
def GEO_DK_MISC.SAMPLE_WLS (i : Nat) : Fld := ⟨GEO_DK_MISC.adr i, 7, 0⟩
/-- GEO_DK_TPOOL (05 R171). -/
def GEO_DK_TPOOL.adr (i j : Nat) : Nat := 0xA03C + 0x80 * i + 0x4 * j
def GEO_DK_TPOOL.TPODD (i j : Nat) : Fld := ⟨GEO_DK_TPOOL.adr i j, 27, 16⟩
def GEO_DK_TPOOL.TPEVEN (i j : Nat) : Fld := ⟨GEO_DK_TPOOL.adr i j, 11, 0⟩
/-- GEO_CTRL (05 R166). -/
def GEO_CTRL.adr : Nat := 0xA200
def GEO_CTRL.VALIDATE : Fld := ⟨GEO_CTRL.adr, 0, 0⟩
/-- GEO_STAT (05 R166). -/
def GEO_STAT.adr : Nat := 0xA204
def GEO_STAT.VALID : Fld := ⟨GEO_STAT.adr, 31, 31⟩
def GEO_STAT.BUSY : Fld := ⟨GEO_STAT.adr, 30, 30⟩
def GEO_STAT.REASON : Fld := ⟨GEO_STAT.adr, 23, 16⟩
def GEO_STAT.INDEX : Fld := ⟨GEO_STAT.adr, 11, 0⟩
/-- GEO_RLH_CFG (05 R181). -/
def GEO_RLH_CFG.adr : Nat := 0xA208
def GEO_RLH_CFG.EN : Fld := ⟨GEO_RLH_CFG.adr, 31, 31⟩
def GEO_RLH_CFG.WLG_M1 : Fld := ⟨GEO_RLH_CFG.adr, 28, 24⟩
def GEO_RLH_CFG.EBS_M1 : Fld := ⟨GEO_RLH_CFG.adr, 11, 0⟩
/-- GEO_BST_CFG (05 R192). -/
def GEO_BST_CFG.adr : Nat := 0xA20C
def GEO_BST_CFG.EN : Fld := ⟨GEO_BST_CFG.adr, 31, 31⟩
/-- GEO_RLH_BASE_LO (05 R181). -/
def GEO_RLH_BASE_LO.adr : Nat := 0xA210
def GEO_RLH_BASE_LO.ADDR : Fld := ⟨GEO_RLH_BASE_LO.adr, 31, 0⟩
/-- GEO_RLH_BASE_HI (05 R181). -/
def GEO_RLH_BASE_HI.adr : Nat := 0xA214
def GEO_RLH_BASE_HI.ADDR : Fld := ⟨GEO_RLH_BASE_HI.adr, 31, 0⟩
/-- GEO_BST_BASE_LO (05 R189). -/
def GEO_BST_BASE_LO.adr : Nat := 0xA218
def GEO_BST_BASE_LO.ADDR : Fld := ⟨GEO_BST_BASE_LO.adr, 31, 0⟩
/-- GEO_BST_BASE_HI (05 R189). -/
def GEO_BST_BASE_HI.adr : Nat := 0xA21C
def GEO_BST_BASE_HI.ADDR : Fld := ⟨GEO_BST_BASE_HI.adr, 31, 0⟩
/-- GEO_TEMP (05 R182). -/
def GEO_TEMP.adr (i : Nat) : Nat := 0xA240 + 0x4 * i
def GEO_TEMP.VALID (i : Nat) : Fld := ⟨GEO_TEMP.adr i, 31, 31⟩
def GEO_TEMP.HOLD (i : Nat) : Fld := ⟨GEO_TEMP.adr i, 30, 30⟩
def GEO_TEMP.TEMP (i : Nat) : Fld := ⟨GEO_TEMP.adr i, 7, 0⟩
/-- GEO_STRIPE_SEL (05 R188). -/
def GEO_STRIPE_SEL.adr : Nat := 0xA300
def GEO_STRIPE_SEL.ID : Fld := ⟨GEO_STRIPE_SEL.adr, 11, 0⟩
/-- GEO_STRIPE_VIEW (05 R188). -/
def GEO_STRIPE_VIEW.adr (i : Nat) : Nat := 0xA380 + 0x4 * i
def GEO_STRIPE_VIEW.WORD (i : Nat) : Fld := ⟨GEO_STRIPE_VIEW.adr i, 31, 0⟩
/-- GEO_LUNMAP (05 R178). -/
def GEO_LUNMAP.adr (i : Nat) : Nat := 0xA800 + 0x4 * i
def GEO_LUNMAP.ODD (i : Nat) : Fld := ⟨GEO_LUNMAP.adr i, 31, 16⟩
def GEO_LUNMAP.EVEN (i : Nat) : Fld := ⟨GEO_LUNMAP.adr i, 15, 0⟩
/-- BAL_FATAL (13 R436). -/
def BAL_FATAL.adr : Nat := 0xB000
def BAL_FATAL.TEST : Fld := ⟨BAL_FATAL.adr, 7, 7⟩
def BAL_FATAL.NO_DECODER : Fld := ⟨BAL_FATAL.adr, 5, 5⟩
def BAL_FATAL.RETENTION_BAD : Fld := ⟨BAL_FATAL.adr, 4, 4⟩
def BAL_FATAL.SELFTEST_TOP : Fld := ⟨BAL_FATAL.adr, 3, 3⟩
def BAL_FATAL.TOP_STORE_UE : Fld := ⟨BAL_FATAL.adr, 2, 2⟩
def BAL_FATAL.ESCALATED : Fld := ⟨BAL_FATAL.adr, 1, 1⟩
def BAL_FATAL.TRIM_BAD : Fld := ⟨BAL_FATAL.adr, 0, 0⟩
/-- BAL_FATAL_TEST (13 R436). -/
def BAL_FATAL_TEST.adr : Nat := 0xB004
def BAL_FATAL_TEST.SET : Fld := ⟨BAL_FATAL_TEST.adr, 0, 0⟩
/-- BAL_SPARE (13 T13.7). -/
def BAL_SPARE.adr : Nat := 0xB008
def BAL_SPARE.SLICES : Fld := ⟨BAL_SPARE.adr, 31, 28⟩
def BAL_SPARE.SPC_OK : Fld := ⟨BAL_SPARE.adr, 27, 27⟩
def BAL_SPARE.SPC_SERVING : Fld := ⟨BAL_SPARE.adr, 26, 26⟩
def BAL_SPARE.SPC_QUAD : Fld := ⟨BAL_SPARE.adr, 25, 23⟩
def BAL_SPARE.STBY_OK : Fld := ⟨BAL_SPARE.adr, 15, 8⟩
/-- BAL_ROW_CTRL (13 R442). -/
def BAL_ROW_CTRL.adr : Nat := 0xB010
def BAL_ROW_CTRL.WINDOW : Fld := ⟨BAL_ROW_CTRL.adr, 31, 24⟩
def BAL_ROW_CTRL.LIMIT : Fld := ⟨BAL_ROW_CTRL.adr, 3, 0⟩
/-- BAL_ROW_STAT (13 R442). -/
def BAL_ROW_STAT.adr : Nat := 0xB014
def BAL_ROW_STAT.TRACKED : Fld := ⟨BAL_ROW_STAT.adr, 22, 16⟩
def BAL_ROW_STAT.DROPPED : Fld := ⟨BAL_ROW_STAT.adr, 15, 0⟩
/-- BAL_REPAIR (13 R442). -/
def BAL_REPAIR.adr : Nat := 0xB018
def BAL_REPAIR.GO : Fld := ⟨BAL_REPAIR.adr, 31, 31⟩
def BAL_REPAIR.BANK : Fld := ⟨BAL_REPAIR.adr, 29, 24⟩
def BAL_REPAIR.ROW : Fld := ⟨BAL_REPAIR.adr, 19, 0⟩
/-- BAL_INJECT (13 R446). -/
def BAL_INJECT.adr : Nat := 0xB020
def BAL_INJECT.MODE : Fld := ⟨BAL_INJECT.adr, 31, 30⟩
def BAL_INJECT.BANK : Fld := ⟨BAL_INJECT.adr, 29, 24⟩
def BAL_INJECT.TESTREAD : Fld := ⟨BAL_INJECT.adr, 23, 23⟩
def BAL_INJECT.ROW : Fld := ⟨BAL_INJECT.adr, 19, 0⟩
/-- BAL_INJECT_STAT (13 R447). -/
def BAL_INJECT_STAT.adr : Nat := 0xB024
def BAL_INJECT_STAT.DONE : Fld := ⟨BAL_INJECT_STAT.adr, 2, 2⟩
def BAL_INJECT_STAT.RESULT : Fld := ⟨BAL_INJECT_STAT.adr, 1, 0⟩
/-- BAL_FLT_FIRST (13 T13.2 (units T0-T5)). -/
def BAL_FLT_FIRST.adr (i : Nat) : Nat := 0xB100 + 0x10 * i
def BAL_FLT_FIRST.VALID (i : Nat) : Fld := ⟨BAL_FLT_FIRST.adr i, 31, 31⟩
def BAL_FLT_FIRST.MULTI (i : Nat) : Fld := ⟨BAL_FLT_FIRST.adr i, 30, 30⟩
def BAL_FLT_FIRST.CLASS (i : Nat) : Fld := ⟨BAL_FLT_FIRST.adr i, 29, 28⟩
def BAL_FLT_FIRST.RECOVERING (i : Nat) : Fld := ⟨BAL_FLT_FIRST.adr i, 27, 27⟩
def BAL_FLT_FIRST.INJECTED (i : Nat) : Fld := ⟨BAL_FLT_FIRST.adr i, 26, 26⟩
def BAL_FLT_FIRST.CODE (i : Nat) : Fld := ⟨BAL_FLT_FIRST.adr i, 23, 16⟩
/-- BAL_FLT_CTX (13 T13.2 (units T0-T5)). -/
def BAL_FLT_CTX.adr (i : Nat) : Nat := 0xB104 + 0x10 * i
def BAL_FLT_CTX.CTX (i : Nat) : Fld := ⟨BAL_FLT_CTX.adr i, 31, 0⟩
/-- BAL_FLT_TIME (13 T13.2 (units T0-T5)). -/
def BAL_FLT_TIME.adr (i : Nat) : Nat := 0xB108 + 0x10 * i
def BAL_FLT_TIME.TIME (i : Nat) : Fld := ⟨BAL_FLT_TIME.adr i, 31, 0⟩
/-- BAL_FLT_CNT (13 T13.2 (units T0-T5)). -/
def BAL_FLT_CNT.adr (i : Nat) : Nat := 0xB10C + 0x10 * i
def BAL_FLT_CNT.REC (i : Nat) : Fld := ⟨BAL_FLT_CNT.adr i, 31, 16⟩
def BAL_FLT_CNT.CORR (i : Nat) : Fld := ⟨BAL_FLT_CNT.adr i, 15, 0⟩
/-- BAL_BANK (13 T13.7 (USED: factory repairs)). -/
def BAL_BANK.adr (i : Nat) : Nat := 0xB300 + 0x4 * i
def BAL_BANK.USED (i : Nat) : Fld := ⟨BAL_BANK.adr i, 28, 24⟩
def BAL_BANK.CORR (i : Nat) : Fld := ⟨BAL_BANK.adr i, 15, 0⟩
/-- PHY_CTRL (03 T3.3). -/
def PHY_CTRL.adr (q : Nat) : Nat := 0x10100 + 0x10000 * q
def PHY_CTRL.RATE (q : Nat) : Fld := ⟨PHY_CTRL.adr q, 31, 28⟩
def PHY_CTRL.APPLY (q : Nat) : Fld := ⟨PHY_CTRL.adr q, 0, 0⟩
/-- PHY_STAT (03 T3.4). -/
def PHY_STAT.adr (q : Nat) : Nat := 0x10104 + 0x10000 * q
def PHY_STAT.RATE_NOW (q : Nat) : Fld := ⟨PHY_STAT.adr q, 31, 28⟩
def PHY_STAT.REASON (q : Nat) : Fld := ⟨PHY_STAT.adr q, 23, 16⟩
def PHY_STAT.CHAN (q : Nat) : Fld := ⟨PHY_STAT.adr q, 13, 12⟩
def PHY_STAT.APPLY_BUSY (q : Nat) : Fld := ⟨PHY_STAT.adr q, 2, 2⟩
def PHY_STAT.STBY_LOCK (q : Nat) : Fld := ⟨PHY_STAT.adr q, 1, 1⟩
def PHY_STAT.LOCK (q : Nat) : Fld := ⟨PHY_STAT.adr q, 0, 0⟩
/-- ZQ_CTRL (03 T3.15). -/
def ZQ_CTRL.adr (q : Nat) : Nat := 0x10110 + 0x10000 * q
def ZQ_CTRL.PERIOD (q : Nat) : Fld := ⟨ZQ_CTRL.adr q, 23, 16⟩
def ZQ_CTRL.START (q : Nat) : Fld := ⟨ZQ_CTRL.adr q, 0, 0⟩
/-- ZQ_STAT (03 T3.16). -/
def ZQ_STAT.adr (q : Nat) : Nat := 0x10114 + 0x10000 * q
def ZQ_STAT.FAIL (q : Nat) : Fld := ⟨ZQ_STAT.adr q, 31, 31⟩
def ZQ_STAT.BUSY (q : Nat) : Fld := ⟨ZQ_STAT.adr q, 30, 30⟩
def ZQ_STAT.ODT_CODE (q : Nat) : Fld := ⟨ZQ_STAT.adr q, 21, 16⟩
def ZQ_STAT.PD_CODE (q : Nat) : Fld := ⟨ZQ_STAT.adr q, 13, 8⟩
def ZQ_STAT.PU_CODE (q : Nat) : Fld := ⟨ZQ_STAT.adr q, 5, 0⟩
/-- Q_FLT_FIRST (13 T13.2). -/
def Q_FLT_FIRST.adr (q : Nat) : Nat := 0x10200 + 0x10000 * q
def Q_FLT_FIRST.VALID (q : Nat) : Fld := ⟨Q_FLT_FIRST.adr q, 31, 31⟩
def Q_FLT_FIRST.MULTI (q : Nat) : Fld := ⟨Q_FLT_FIRST.adr q, 30, 30⟩
def Q_FLT_FIRST.CLASS (q : Nat) : Fld := ⟨Q_FLT_FIRST.adr q, 29, 28⟩
def Q_FLT_FIRST.RECOVERING (q : Nat) : Fld := ⟨Q_FLT_FIRST.adr q, 27, 27⟩
def Q_FLT_FIRST.INJECTED (q : Nat) : Fld := ⟨Q_FLT_FIRST.adr q, 26, 26⟩
def Q_FLT_FIRST.CODE (q : Nat) : Fld := ⟨Q_FLT_FIRST.adr q, 23, 16⟩
/-- Q_FLT_CTX (13 T13.2). -/
def Q_FLT_CTX.adr (q : Nat) : Nat := 0x10204 + 0x10000 * q
def Q_FLT_CTX.CTX (q : Nat) : Fld := ⟨Q_FLT_CTX.adr q, 31, 0⟩
/-- Q_FLT_TIME (13 T13.2). -/
def Q_FLT_TIME.adr (q : Nat) : Nat := 0x10208 + 0x10000 * q
def Q_FLT_TIME.TIME (q : Nat) : Fld := ⟨Q_FLT_TIME.adr q, 31, 0⟩
/-- Q_FLT_CNT (13 T13.2). -/
def Q_FLT_CNT.adr (q : Nat) : Nat := 0x1020C + 0x10000 * q
def Q_FLT_CNT.REC (q : Nat) : Fld := ⟨Q_FLT_CNT.adr q, 31, 16⟩
def Q_FLT_CNT.CORR (q : Nat) : Fld := ⟨Q_FLT_CNT.adr q, 15, 0⟩
/-- Q_FLT_CTRL (13 T13.6). -/
def Q_FLT_CTRL.adr (q : Nat) : Nat := 0x10210 + 0x10000 * q
def Q_FLT_CTRL.FENCED (q : Nat) : Fld := ⟨Q_FLT_CTRL.adr q, 31, 31⟩
def Q_FLT_CTRL.SPARE_SERVING (q : Nat) : Fld := ⟨Q_FLT_CTRL.adr q, 30, 30⟩
def Q_FLT_CTRL.CHT_FAULTED (q : Nat) : Fld := ⟨Q_FLT_CTRL.adr q, 29, 29⟩
def Q_FLT_CTRL.CHT_LIMIT (q : Nat) : Fld := ⟨Q_FLT_CTRL.adr q, 11, 8⟩
def Q_FLT_CTRL.DECLARE (q : Nat) : Fld := ⟨Q_FLT_CTRL.adr q, 2, 2⟩
def Q_FLT_CTRL.FENCE (q : Nat) : Fld := ⟨Q_FLT_CTRL.adr q, 1, 1⟩
def Q_FLT_CTRL.UNFENCE (q : Nat) : Fld := ⟨Q_FLT_CTRL.adr q, 0, 0⟩
/-- CHT_CTRL (04 T4.14). -/
def CHT_CTRL.adr (q : Nat) : Nat := 0x11000 + 0x10000 * q
def CHT_CTRL.WDOG (q : Nat) : Fld := ⟨CHT_CTRL.adr q, 15, 0⟩
/-- CHT_CTX (04 T4.14). -/
def CHT_CTX.adr (n : Nat) : Nat := 0x11010 + 0x10000 * (n / 4) + 4 * (n % 4)
def CHT_CTX.STATE (n : Nat) : Fld := ⟨CHT_CTX.adr n, 31, 30⟩
def CHT_CTX.BANK (n : Nat) : Fld := ⟨CHT_CTX.adr n, 29, 29⟩
def CHT_CTX.ROUTINE (n : Nat) : Fld := ⟨CHT_CTX.adr n, 23, 16⟩
def CHT_CTX.PC (n : Nat) : Fld := ⟨CHT_CTX.adr n, 13, 0⟩
/-- CHT_CNT (04 T4.14). -/
def CHT_CNT.adr (q : Nat) : Nat := 0x11020 + 0x10000 * q
def CHT_CNT.RESTARTS (q : Nat) : Fld := ⟨CHT_CNT.adr q, 31, 16⟩
def CHT_CNT.CORR (q : Nat) : Fld := ⟨CHT_CNT.adr q, 15, 0⟩
/-- CH_MODE (03 T3.8). -/
def CH_MODE.adr (n : Nat) : Nat := 0x14000 + 0x10000 * (n / 4) + 0x1000 * (n % 4)
def CH_MODE.IFMODE (n : Nat) : Fld := ⟨CH_MODE.adr n, 31, 30⟩
def CH_MODE.SDR_TM (n : Nat) : Fld := ⟨CH_MODE.adr n, 29, 27⟩
def CH_MODE.DRV (n : Nat) : Fld := ⟨CH_MODE.adr n, 26, 24⟩
def CH_MODE.ODT (n : Nat) : Fld := ⟨CH_MODE.adr n, 23, 21⟩
def CH_MODE.CE_EN (n : Nat) : Fld := ⟨CH_MODE.adr n, 15, 8⟩
def CH_MODE.ENABLE (n : Nat) : Fld := ⟨CH_MODE.adr n, 0, 0⟩
/-- CH_MODE_STAT (03 T3.9). -/
def CH_MODE_STAT.adr (n : Nat) : Nat := 0x14004 + 0x10000 * (n / 4) + 0x1000 * (n % 4)
def CH_MODE_STAT.IF_NOW (n : Nat) : Fld := ⟨CH_MODE_STAT.adr n, 31, 30⟩
def CH_MODE_STAT.TM_NOW (n : Nat) : Fld := ⟨CH_MODE_STAT.adr n, 29, 27⟩
def CH_MODE_STAT.TRAINED (n : Nat) : Fld := ⟨CH_MODE_STAT.adr n, 1, 1⟩
def CH_MODE_STAT.SAFE (n : Nat) : Fld := ⟨CH_MODE_STAT.adr n, 0, 0⟩
/-- CH_TIM0 (03 T3.10). -/
def CH_TIM0.adr (n : Nat) : Nat := 0x14010 + 0x10000 * (n / 4) + 0x1000 * (n % 4)
def CH_TIM0.TCS (n : Nat) : Fld := ⟨CH_TIM0.adr n, 31, 24⟩
def CH_TIM0.TCH (n : Nat) : Fld := ⟨CH_TIM0.adr n, 23, 16⟩
def CH_TIM0.TCAS (n : Nat) : Fld := ⟨CH_TIM0.adr n, 15, 8⟩
def CH_TIM0.TCAH (n : Nat) : Fld := ⟨CH_TIM0.adr n, 7, 0⟩
/-- CH_TIM1 (03 T3.11). -/
def CH_TIM1.adr (n : Nat) : Nat := 0x14014 + 0x10000 * (n / 4) + 0x1000 * (n % 4)
def CH_TIM1.TWP (n : Nat) : Fld := ⟨CH_TIM1.adr n, 31, 24⟩
def CH_TIM1.TWH (n : Nat) : Fld := ⟨CH_TIM1.adr n, 23, 16⟩
def CH_TIM1.TWB (n : Nat) : Fld := ⟨CH_TIM1.adr n, 15, 8⟩
def CH_TIM1.TRHW (n : Nat) : Fld := ⟨CH_TIM1.adr n, 7, 0⟩
/-- CH_TIM2 (03 T3.12). -/
def CH_TIM2.adr (n : Nat) : Nat := 0x14018 + 0x10000 * (n / 4) + 0x1000 * (n % 4)
def CH_TIM2.TWHR (n : Nat) : Fld := ⟨CH_TIM2.adr n, 27, 16⟩
def CH_TIM2.TADL (n : Nat) : Fld := ⟨CH_TIM2.adr n, 11, 0⟩
/-- CH_TIM3 (03 T3.13). -/
def CH_TIM3.adr (n : Nat) : Nat := 0x1401C + 0x10000 * (n / 4) + 0x1000 * (n % 4)
def CH_TIM3.TCCS (n : Nat) : Fld := ⟨CH_TIM3.adr n, 27, 16⟩
def CH_TIM3.TRR (n : Nat) : Fld := ⟨CH_TIM3.adr n, 7, 0⟩
/-- CH_TIM4 (03 T3.14). -/
def CH_TIM4.adr (n : Nat) : Nat := 0x14020 + 0x10000 * (n / 4) + 0x1000 * (n % 4)
def CH_TIM4.TRPRE (n : Nat) : Fld := ⟨CH_TIM4.adr n, 31, 28⟩
def CH_TIM4.TRPST (n : Nat) : Fld := ⟨CH_TIM4.adr n, 27, 24⟩
def CH_TIM4.TWPRE (n : Nat) : Fld := ⟨CH_TIM4.adr n, 23, 20⟩
def CH_TIM4.TWPST (n : Nat) : Fld := ⟨CH_TIM4.adr n, 19, 16⟩
def CH_TIM4.TDQSRE (n : Nat) : Fld := ⟨CH_TIM4.adr n, 15, 8⟩
def CH_TIM4.RWARM (n : Nat) : Fld := ⟨CH_TIM4.adr n, 7, 4⟩
def CH_TIM4.WWARM (n : Nat) : Fld := ⟨CH_TIM4.adr n, 3, 0⟩
/-- CH_TRAIN_CTRL (03 T3.18). -/
def CH_TRAIN_CTRL.adr (n : Nat) : Nat := 0x14040 + 0x10000 * (n / 4) + 0x1000 * (n % 4)
def CH_TRAIN_CTRL.PATTERN (n : Nat) : Fld := ⟨CH_TRAIN_CTRL.adr n, 31, 24⟩
def CH_TRAIN_CTRL.INVERT (n : Nat) : Fld := ⟨CH_TRAIN_CTRL.adr n, 23, 16⟩
def CH_TRAIN_CTRL.TGT_MASK (n : Nat) : Fld := ⟨CH_TRAIN_CTRL.adr n, 15, 8⟩
def CH_TRAIN_CTRL.STEPS (n : Nat) : Fld := ⟨CH_TRAIN_CTRL.adr n, 7, 4⟩
def CH_TRAIN_CTRL.START (n : Nat) : Fld := ⟨CH_TRAIN_CTRL.adr n, 0, 0⟩
/-- CH_TRAIN_STAT (03 T3.19). -/
def CH_TRAIN_STAT.adr (n : Nat) : Nat := 0x14044 + 0x10000 * (n / 4) + 0x1000 * (n % 4)
def CH_TRAIN_STAT.BUSY (n : Nat) : Fld := ⟨CH_TRAIN_STAT.adr n, 31, 31⟩
def CH_TRAIN_STAT.PASS (n : Nat) : Fld := ⟨CH_TRAIN_STAT.adr n, 30, 30⟩
def CH_TRAIN_STAT.FAIL (n : Nat) : Fld := ⟨CH_TRAIN_STAT.adr n, 29, 29⟩
def CH_TRAIN_STAT.FAIL_STEP (n : Nat) : Fld := ⟨CH_TRAIN_STAT.adr n, 27, 24⟩
def CH_TRAIN_STAT.FAIL_BITS (n : Nat) : Fld := ⟨CH_TRAIN_STAT.adr n, 23, 16⟩
def CH_TRAIN_STAT.COUNT (n : Nat) : Fld := ⟨CH_TRAIN_STAT.adr n, 15, 0⟩
/-- CH_RGATE (03 T3.20). -/
def CH_RGATE.adr (n : Nat) : Nat := 0x14048 + 0x10000 * (n / 4) + 0x1000 * (n % 4)
def CH_RGATE.COARSE (n : Nat) : Fld := ⟨CH_RGATE.adr n, 10, 7⟩
def CH_RGATE.FINE (n : Nat) : Fld := ⟨CH_RGATE.adr n, 6, 0⟩
/-- CH_RDQS (03 T3.20 (reset: Trim, loaded at start-up step 3)). -/
def CH_RDQS.adr (n : Nat) : Nat := 0x1404C + 0x10000 * (n / 4) + 0x1000 * (n % 4)
def CH_RDQS.DLY (n : Nat) : Fld := ⟨CH_RDQS.adr n, 7, 0⟩
/-- CH_RDQ_DLY0 (03 T3.20). -/
def CH_RDQ_DLY0.adr (n : Nat) : Nat := 0x14050 + 0x10000 * (n / 4) + 0x1000 * (n % 4)
def CH_RDQ_DLY0.BIT3 (n : Nat) : Fld := ⟨CH_RDQ_DLY0.adr n, 29, 24⟩
def CH_RDQ_DLY0.BIT2 (n : Nat) : Fld := ⟨CH_RDQ_DLY0.adr n, 21, 16⟩
def CH_RDQ_DLY0.BIT1 (n : Nat) : Fld := ⟨CH_RDQ_DLY0.adr n, 13, 8⟩
def CH_RDQ_DLY0.BIT0 (n : Nat) : Fld := ⟨CH_RDQ_DLY0.adr n, 5, 0⟩
/-- CH_RDQ_DLY1 (03 T3.20). -/
def CH_RDQ_DLY1.adr (n : Nat) : Nat := 0x14054 + 0x10000 * (n / 4) + 0x1000 * (n % 4)
def CH_RDQ_DLY1.BIT3 (n : Nat) : Fld := ⟨CH_RDQ_DLY1.adr n, 29, 24⟩
def CH_RDQ_DLY1.BIT2 (n : Nat) : Fld := ⟨CH_RDQ_DLY1.adr n, 21, 16⟩
def CH_RDQ_DLY1.BIT1 (n : Nat) : Fld := ⟨CH_RDQ_DLY1.adr n, 13, 8⟩
def CH_RDQ_DLY1.BIT0 (n : Nat) : Fld := ⟨CH_RDQ_DLY1.adr n, 5, 0⟩
/-- CH_WDQ_DLY0 (03 T3.20). -/
def CH_WDQ_DLY0.adr (n : Nat) : Nat := 0x14058 + 0x10000 * (n / 4) + 0x1000 * (n % 4)
def CH_WDQ_DLY0.BIT3 (n : Nat) : Fld := ⟨CH_WDQ_DLY0.adr n, 29, 24⟩
def CH_WDQ_DLY0.BIT2 (n : Nat) : Fld := ⟨CH_WDQ_DLY0.adr n, 21, 16⟩
def CH_WDQ_DLY0.BIT1 (n : Nat) : Fld := ⟨CH_WDQ_DLY0.adr n, 13, 8⟩
def CH_WDQ_DLY0.BIT0 (n : Nat) : Fld := ⟨CH_WDQ_DLY0.adr n, 5, 0⟩
/-- CH_WDQ_DLY1 (03 T3.20). -/
def CH_WDQ_DLY1.adr (n : Nat) : Nat := 0x1405C + 0x10000 * (n / 4) + 0x1000 * (n % 4)
def CH_WDQ_DLY1.BIT3 (n : Nat) : Fld := ⟨CH_WDQ_DLY1.adr n, 29, 24⟩
def CH_WDQ_DLY1.BIT2 (n : Nat) : Fld := ⟨CH_WDQ_DLY1.adr n, 21, 16⟩
def CH_WDQ_DLY1.BIT1 (n : Nat) : Fld := ⟨CH_WDQ_DLY1.adr n, 13, 8⟩
def CH_WDQ_DLY1.BIT0 (n : Nat) : Fld := ⟨CH_WDQ_DLY1.adr n, 5, 0⟩
/-- CH_WDQS (03 T3.20). -/
def CH_WDQS.adr (n : Nat) : Nat := 0x14060 + 0x10000 * (n / 4) + 0x1000 * (n % 4)
def CH_WDQS.DLY (n : Nat) : Fld := ⟨CH_WDQS.adr n, 7, 0⟩
/-- CH_RXVREF (03 T3.20). -/
def CH_RXVREF.adr (n : Nat) : Nat := 0x14064 + 0x10000 * (n / 4) + 0x1000 * (n % 4)
def CH_RXVREF.LEVEL (n : Nat) : Fld := ⟨CH_RXVREF.adr n, 4, 0⟩
/-- CH_DRIFT_CTRL (03 T3.21). -/
def CH_DRIFT_CTRL.adr (n : Nat) : Nat := 0x14070 + 0x10000 * (n / 4) + 0x1000 * (n % 4)
def CH_DRIFT_CTRL.PERIOD (n : Nat) : Fld := ⟨CH_DRIFT_CTRL.adr n, 31, 24⟩
def CH_DRIFT_CTRL.LIMIT (n : Nat) : Fld := ⟨CH_DRIFT_CTRL.adr n, 23, 16⟩
def CH_DRIFT_CTRL.MARGIN (n : Nat) : Fld := ⟨CH_DRIFT_CTRL.adr n, 15, 8⟩
/-- CH_DRIFT_STAT (03 T3.21). -/
def CH_DRIFT_STAT.adr (n : Nat) : Nat := 0x14074 + 0x10000 * (n / 4) + 0x1000 * (n % 4)
def CH_DRIFT_STAT.RETRAIN (n : Nat) : Fld := ⟨CH_DRIFT_STAT.adr n, 31, 31⟩
def CH_DRIFT_STAT.BOTH (n : Nat) : Fld := ⟨CH_DRIFT_STAT.adr n, 30, 30⟩
def CH_DRIFT_STAT.MOVED (n : Nat) : Fld := ⟨CH_DRIFT_STAT.adr n, 23, 16⟩
def CH_DRIFT_STAT.MISSED (n : Nat) : Fld := ⟨CH_DRIFT_STAT.adr n, 15, 8⟩
def CH_DRIFT_STAT.PHYF (n : Nat) : Fld := ⟨CH_DRIFT_STAT.adr n, 7, 0⟩
/-- CH_RB_CTRL (03 T3.22). -/
def CH_RB_CTRL.adr (n : Nat) : Nat := 0x14080 + 0x10000 * (n / 4) + 0x1000 * (n % 4)
def CH_RB_CTRL.CHATTER (n : Nat) : Fld := ⟨CH_RB_CTRL.adr n, 23, 16⟩
def CH_RB_CTRL.IGNORE (n : Nat) : Fld := ⟨CH_RB_CTRL.adr n, 7, 0⟩
/-- CH_RB_STAT (03 T3.22). -/
def CH_RB_STAT.adr (n : Nat) : Nat := 0x14084 + 0x10000 * (n / 4) + 0x1000 * (n % 4)
def CH_RB_STAT.STUCK (n : Nat) : Fld := ⟨CH_RB_STAT.adr n, 31, 24⟩
def CH_RB_STAT.RAW (n : Nat) : Fld := ⟨CH_RB_STAT.adr n, 15, 8⟩
def CH_RB_STAT.DEB (n : Nat) : Fld := ⟨CH_RB_STAT.adr n, 7, 0⟩
/-- CH_FLT_FIRST (13 T13.2). -/
def CH_FLT_FIRST.adr (n : Nat) : Nat := 0x14100 + 0x10000 * (n / 4) + 0x1000 * (n % 4)
def CH_FLT_FIRST.VALID (n : Nat) : Fld := ⟨CH_FLT_FIRST.adr n, 31, 31⟩
def CH_FLT_FIRST.MULTI (n : Nat) : Fld := ⟨CH_FLT_FIRST.adr n, 30, 30⟩
def CH_FLT_FIRST.CLASS (n : Nat) : Fld := ⟨CH_FLT_FIRST.adr n, 29, 28⟩
def CH_FLT_FIRST.RECOVERING (n : Nat) : Fld := ⟨CH_FLT_FIRST.adr n, 27, 27⟩
def CH_FLT_FIRST.INJECTED (n : Nat) : Fld := ⟨CH_FLT_FIRST.adr n, 26, 26⟩
def CH_FLT_FIRST.CODE (n : Nat) : Fld := ⟨CH_FLT_FIRST.adr n, 23, 16⟩
/-- CH_FLT_CTX (13 T13.2). -/
def CH_FLT_CTX.adr (n : Nat) : Nat := 0x14104 + 0x10000 * (n / 4) + 0x1000 * (n % 4)
def CH_FLT_CTX.CTX (n : Nat) : Fld := ⟨CH_FLT_CTX.adr n, 31, 0⟩
/-- CH_FLT_TIME (13 T13.2). -/
def CH_FLT_TIME.adr (n : Nat) : Nat := 0x14108 + 0x10000 * (n / 4) + 0x1000 * (n % 4)
def CH_FLT_TIME.TIME (n : Nat) : Fld := ⟨CH_FLT_TIME.adr n, 31, 0⟩
/-- CH_FLT_CNT (13 T13.2). -/
def CH_FLT_CNT.adr (n : Nat) : Nat := 0x1410C + 0x10000 * (n / 4) + 0x1000 * (n % 4)
def CH_FLT_CNT.REC (n : Nat) : Fld := ⟨CH_FLT_CNT.adr n, 31, 16⟩
def CH_FLT_CNT.CORR (n : Nat) : Fld := ⟨CH_FLT_CNT.adr n, 15, 0⟩
/-- CH_FLT_LUNS (13 R432). -/
def CH_FLT_LUNS.adr (n : Nat) : Nat := 0x14110 + 0x10000 * (n / 4) + 0x1000 * (n % 4)
def CH_FLT_LUNS.LUNS (n : Nat) : Fld := ⟨CH_FLT_LUNS.adr n, 31, 0⟩
/-- CH_FENCE (13 T13.6). -/
def CH_FENCE.adr (n : Nat) : Nat := 0x14114 + 0x10000 * (n / 4) + 0x1000 * (n % 4)
def CH_FENCE.LUNS (n : Nat) : Fld := ⟨CH_FENCE.adr n, 31, 0⟩
/-- CH_UNFENCE (13 T13.6). -/
def CH_UNFENCE.adr (n : Nat) : Nat := 0x14118 + 0x10000 * (n / 4) + 0x1000 * (n % 4)
def CH_UNFENCE.LUNS (n : Nat) : Fld := ⟨CH_UNFENCE.adr n, 31, 0⟩
/-- CH_FLT_CTRL (13 T13.6). -/
def CH_FLT_CTRL.adr (n : Nat) : Nat := 0x1411C + 0x10000 * (n / 4) + 0x1000 * (n % 4)
def CH_FLT_CTRL.FENCED (n : Nat) : Fld := ⟨CH_FLT_CTRL.adr n, 31, 31⟩
def CH_FLT_CTRL.FENCE (n : Nat) : Fld := ⟨CH_FLT_CTRL.adr n, 1, 1⟩
def CH_FLT_CTRL.UNFENCE (n : Nat) : Fld := ⟨CH_FLT_CTRL.adr n, 0, 0⟩
/-- BLW_CTRL (08 R290). -/
def BLW_CTRL.adr : Nat := 0x90000
def BLW_CTRL.SOFT_MAX : Fld := ⟨BLW_CTRL.adr, 28, 24⟩
def BLW_CTRL.ITER_MS_M1 : Fld := ⟨BLW_CTRL.adr, 20, 16⟩
def BLW_CTRL.ITER_BF_M1 : Fld := ⟨BLW_CTRL.adr, 11, 8⟩
def BLW_CTRL.HM_EN : Fld := ⟨BLW_CTRL.adr, 1, 1⟩
def BLW_CTRL.CLR : Fld := ⟨BLW_CTRL.adr, 0, 0⟩
/-- BLW_STAT (08 T8.4). -/
def BLW_STAT.adr : Nat := 0x90004
def BLW_STAT.WAITING : Fld := ⟨BLW_STAT.adr, 28, 16⟩
def BLW_STAT.SOFT_RUN : Fld := ⟨BLW_STAT.adr, 12, 8⟩
def BLW_STAT.ACTIVE : Fld := ⟨BLW_STAT.adr, 4, 0⟩
/-- BLW_SLICE_MAP (08 T8.4). -/
def BLW_SLICE_MAP.adr : Nat := 0x90008
def BLW_SLICE_MAP.ACTIVE : Fld := ⟨BLW_SLICE_MAP.adr, 17, 0⟩
/-- BLW_CNT_BF (08 T8.4). -/
def BLW_CNT_BF.adr : Nat := 0x90010
def BLW_CNT_BF.COUNT : Fld := ⟨BLW_CNT_BF.adr, 31, 0⟩
/-- BLW_CNT_MS (08 T8.4). -/
def BLW_CNT_MS.adr : Nat := 0x90014
def BLW_CNT_MS.COUNT : Fld := ⟨BLW_CNT_MS.adr, 31, 0⟩
/-- BLW_CNT_FAIL (08 T8.4). -/
def BLW_CNT_FAIL.adr : Nat := 0x90018
def BLW_CNT_FAIL.COUNT : Fld := ⟨BLW_CNT_FAIL.adr, 31, 0⟩
/-- BLW_CNT_MISCORR (08 T8.4). -/
def BLW_CNT_MISCORR.adr : Nat := 0x9001C
def BLW_CNT_MISCORR.COUNT : Fld := ⟨BLW_CNT_MISCORR.adr, 31, 0⟩
/-- BLW_CNT_ERASED (08 T8.4). -/
def BLW_CNT_ERASED.adr : Nat := 0x90020
def BLW_CNT_ERASED.COUNT : Fld := ⟨BLW_CNT_ERASED.adr, 31, 0⟩
/-- BLW_INJECT (13 R446). -/
def BLW_INJECT.adr : Nat := 0x90030
def BLW_INJECT.ARM : Fld := ⟨BLW_INJECT.adr, 8, 8⟩
def BLW_INJECT.SLICE : Fld := ⟨BLW_INJECT.adr, 4, 0⟩
/-- BLW_FLT_FIRST (13 T13.2). -/
def BLW_FLT_FIRST.adr (i : Nat) : Nat := 0x90100 + 0x10 * i
def BLW_FLT_FIRST.VALID (i : Nat) : Fld := ⟨BLW_FLT_FIRST.adr i, 31, 31⟩
def BLW_FLT_FIRST.MULTI (i : Nat) : Fld := ⟨BLW_FLT_FIRST.adr i, 30, 30⟩
def BLW_FLT_FIRST.CLASS (i : Nat) : Fld := ⟨BLW_FLT_FIRST.adr i, 29, 28⟩
def BLW_FLT_FIRST.RECOVERING (i : Nat) : Fld := ⟨BLW_FLT_FIRST.adr i, 27, 27⟩
def BLW_FLT_FIRST.INJECTED (i : Nat) : Fld := ⟨BLW_FLT_FIRST.adr i, 26, 26⟩
def BLW_FLT_FIRST.CODE (i : Nat) : Fld := ⟨BLW_FLT_FIRST.adr i, 23, 16⟩
/-- BLW_FLT_CTX (13 T13.2). -/
def BLW_FLT_CTX.adr (i : Nat) : Nat := 0x90104 + 0x10 * i
def BLW_FLT_CTX.CTX (i : Nat) : Fld := ⟨BLW_FLT_CTX.adr i, 31, 0⟩
/-- BLW_FLT_TIME (13 T13.2). -/
def BLW_FLT_TIME.adr (i : Nat) : Nat := 0x90108 + 0x10 * i
def BLW_FLT_TIME.TIME (i : Nat) : Fld := ⟨BLW_FLT_TIME.adr i, 31, 0⟩
/-- BLW_FLT_CNT (13 T13.2). -/
def BLW_FLT_CNT.adr (i : Nat) : Nat := 0x9010C + 0x10 * i
def BLW_FLT_CNT.REC (i : Nat) : Fld := ⟨BLW_FLT_CNT.adr i, 31, 16⟩
def BLW_FLT_CNT.CORR (i : Nat) : Fld := ⟨BLW_FLT_CNT.adr i, 15, 0⟩
/-- PAT_CTRL (04 T4.13). -/
def PAT_CTRL.adr : Nat := 0xA0000
def PAT_CTRL.CLEAR : Fld := ⟨PAT_CTRL.adr, 1, 1⟩
def PAT_CTRL.ACTIVATE : Fld := ⟨PAT_CTRL.adr, 0, 0⟩
/-- PAT_STAT (04 T4.13). -/
def PAT_STAT.adr : Nat := 0xA0004
def PAT_STAT.ACT_PENDING : Fld := ⟨PAT_STAT.adr, 31, 31⟩
def PAT_STAT.WR_REFUSED : Fld := ⟨PAT_STAT.adr, 30, 30⟩
def PAT_STAT.PEND_BANK : Fld := ⟨PAT_STAT.adr, 29, 29⟩
def PAT_STAT.ROMCHK_FAIL : Fld := ⟨PAT_STAT.adr, 8, 0⟩
/-- PAT_QUAD_PATCH_STATE (04 T4.13). -/
def PAT_QUAD_PATCH_STATE.adr : Nat := 0xA0008
def PAT_QUAD_PATCH_STATE.STATE : Fld := ⟨PAT_QUAD_PATCH_STATE.adr, 26, 0⟩
/-- PAT_BANK_ID (04 T4.13). -/
def PAT_BANK_ID.adr (i : Nat) : Nat := 0xA0010 + 0x4 * i
def PAT_BANK_ID.ID (i : Nat) : Fld := ⟨PAT_BANK_ID.adr i, 31, 0⟩
/-- PAT_ROM_CRC (04 R156). -/
def PAT_ROM_CRC.adr : Nat := 0xA0020
def PAT_ROM_CRC.CRC : Fld := ⟨PAT_ROM_CRC.adr, 31, 0⟩
/-- PAT_INJECT (13 R446). -/
def PAT_INJECT.adr : Nat := 0xA0030
def PAT_INJECT.MODE : Fld := ⟨PAT_INJECT.adr, 1, 0⟩
/-- PAT_MATCH (04 R159 (two banks; stored in the bank)). -/
def PAT_MATCH.adr (i : Nat) : Nat := 0xA0100 + 0x4 * i
def PAT_MATCH.EN (i : Nat) : Fld := ⟨PAT_MATCH.adr i, 31, 31⟩
def PAT_MATCH.SPACE (i : Nat) : Fld := ⟨PAT_MATCH.adr i, 30, 30⟩
def PAT_MATCH.FROM (i : Nat) : Fld := ⟨PAT_MATCH.adr i, 29, 16⟩
def PAT_MATCH.TO (i : Nat) : Fld := ⟨PAT_MATCH.adr i, 13, 0⟩
/-- PAT_ENTRY (04 R160 (two banks; stored in the bank)). -/
def PAT_ENTRY.adr (i : Nat) : Nat := 0xA0200 + 0x4 * i
def PAT_ENTRY.EN (i : Nat) : Fld := ⟨PAT_ENTRY.adr i, 31, 31⟩
def PAT_ENTRY.ENTRY (i : Nat) : Fld := ⟨PAT_ENTRY.adr i, 13, 0⟩
/-- PAT_ROW (04 R158 (two banks; stored in the bank)). -/
def PAT_ROW.adr (i j : Nat) : Nat := 0xA8000 + 0x8 * i + 0x4 * j
def PAT_ROW.ROW (i j : Nat) : Fld := ⟨PAT_ROW.adr i j, 31, 0⟩
/-- PAT_NANO (04 R158 (two banks; stored in the bank)). -/
def PAT_NANO.adr (i j : Nat) : Nat := 0xAC000 + 0x20 * i + 0x4 * j
def PAT_NANO.NANO (i j : Nat) : Fld := ⟨PAT_NANO.adr i j, 31, 0⟩
/-- RETRY_SET (05 R176). -/
def RETRY_SET.adr (i j k : Nat) : Nat := 0xC0000 + 0x1000 * i + 0x10 * j + 0x4 * k
def RETRY_SET.OFFS (i j k : Nat) : Fld := ⟨RETRY_SET.adr i j k, 31, 0⟩
/-- GEO_LAD (08 T8.6). -/
def GEO_LAD.adr (i : Nat) : Nat := 0xC8000 + 0x4 * i
def GEO_LAD.SOFT_STEP (i : Nat) : Fld := ⟨GEO_LAD.adr i, 31, 24⟩
def GEO_LAD.STEP_MAX (i : Nat) : Fld := ⟨GEO_LAD.adr i, 18, 16⟩
/-- GEO_RLHC_CTRL (08 T8.9). -/
def GEO_RLHC_CTRL.adr : Nat := 0xC9000
def GEO_RLHC_CTRL.EPOCH_SHIFT : Fld := ⟨GEO_RLHC_CTRL.adr, 31, 26⟩
def GEO_RLHC_CTRL.CLR : Fld := ⟨GEO_RLHC_CTRL.adr, 24, 24⟩
def GEO_RLHC_CTRL.AGE_MAX : Fld := ⟨GEO_RLHC_CTRL.adr, 23, 12⟩
def GEO_RLHC_CTRL.MISS_WAIT : Fld := ⟨GEO_RLHC_CTRL.adr, 7, 0⟩
/-- GEO_RLHC_STAT (08 T8.9). -/
def GEO_RLHC_STAT.adr : Nat := 0xC9004
def GEO_RLHC_STAT.DIRTY : Fld := ⟨GEO_RLHC_STAT.adr, 27, 16⟩
def GEO_RLHC_STAT.FILLS : Fld := ⟨GEO_RLHC_STAT.adr, 6, 0⟩
/-- GEO_RLHC_EPOCH (08 R301). -/
def GEO_RLHC_EPOCH.adr : Nat := 0xC9008
def GEO_RLHC_EPOCH.EPOCH : Fld := ⟨GEO_RLHC_EPOCH.adr, 11, 0⟩
/-- GEO_RLHC_HIT (08 T8.9). -/
def GEO_RLHC_HIT.adr : Nat := 0xC9010
def GEO_RLHC_HIT.COUNT : Fld := ⟨GEO_RLHC_HIT.adr, 31, 0⟩
/-- GEO_RLHC_MISS (08 T8.9). -/
def GEO_RLHC_MISS.adr : Nat := 0xC9014
def GEO_RLHC_MISS.COUNT : Fld := ⟨GEO_RLHC_MISS.adr, 31, 0⟩
/-- GEO_RLHC_LATE (08 T8.9). -/
def GEO_RLHC_LATE.adr : Nat := 0xC9018
def GEO_RLHC_LATE.COUNT : Fld := ⟨GEO_RLHC_LATE.adr, 31, 0⟩
/-- GEO_RLHC_WB (08 T8.9). -/
def GEO_RLHC_WB.adr : Nat := 0xC901C
def GEO_RLHC_WB.COUNT : Fld := ⟨GEO_RLHC_WB.adr, 31, 0⟩

end Sys2Proof.Machine
end

