-- ==== Sys2Proof/Machine/Tab.lean ====
section
/-! DEFINITION. Indexed stores as plain data: a list of (index, value) pairs in one canonical form (indices strictly
rising, no value equal to the one an unlisted index reads as), so that equal stores are equal lists. What an unlisted
index reads as is the reset value, given as a function of the index. -/

namespace Sys2Proof.Machine

/-- A sparse store: the entries that differ from reset. -/
abbrev Tab (α : Type) := List (Nat × α)

/-- The value at index k; an unlisted index reads as its reset value. -/
def tabGet {α : Type} (d : Nat → α) : Tab α → Nat → α
  | [], k => d k
  | (i, v) :: r, k => if i = k then v else tabGet d r k

/-- The store without an entry for k. -/
def tabDrop {α : Type} (k : Nat) (t : Tab α) : Tab α := t.filter (fun e => e.1 != k)

/-- Insert in index order; used on a store that holds no entry for k. -/
def tabIns {α : Type} (k : Nat) (v : α) : Tab α → Tab α
  | [] => [(k, v)]
  | e :: r => if k < e.1 then (k, v) :: e :: r else e :: tabIns k v r

/-- Write index k; writing the reset value removes the entry. -/
def tabPut {α : Type} [DecidableEq α] (d : Nat → α) (t : Tab α) (k : Nat) (v : α) : Tab α :=
  if v = d k then tabDrop k t else tabIns k v (tabDrop k t)

/-- Change the value at index k. -/
def tabMod {α : Type} [DecidableEq α] (d : Nat → α) (t : Tab α) (k : Nat) (f : α → α) : Tab α :=
  tabPut d t k (f (tabGet d t k))

/-- The canonical form: indices strictly rising, no entry equal to its reset value. -/
def tabWf {α : Type} [DecidableEq α] (d : Nat → α) : Tab α → Bool
  | [] => true
  | (i, v) :: r => decide (v ≠ d i) && r.all (fun e => decide (i < e.1)) && tabWf d r

/-- An element takes its place in a list ordered by a key, behind those of its own key. -/
def insBy {α : Type} (key : α → Nat) (x : α) : List α → List α
  | [] => [x]
  | y :: l => if key x < key y then x :: y :: l else y :: insBy key x l

end Sys2Proof.Machine
end

