-- ==== Sys2Proof/Machine/State.lean ====
section
/-! DEFINITION. The state of the block as plain data. Software-visible registers have one home, the register file
`regs` (the setup window of R484, status fields included); everything the spec gives the block beside them is a field
of its own. Every structure's default is its reset value. -/

namespace Sys2Proof.Machine

/-- Pins and handshakes (Tables 2.1, 2.13). -/
structure Pins where
  resetN : Bool := false
  testMode : Bool := false
  pwrfailN : Bool := true
  wakeN : Bool := true
  faultN : Bool := false
  irqN : Bool := true
  irqF : Bool := false
  pwrReq : BitVec 28 := 0
  pwrAck : BitVec 28 := 0
  cclkReq : Bool := false
  cclkAck : Bool := false
  fuseReq : Bool := false
  fuseAddr : Nat := 0
  pshReady : Bool := true
  /-- The setup port accepts every request (R53, Table 2.13); the response to the last one (Table 2.2). -/
  cfgQready : Bool := true
  cfgSdata : Word32 := 0
  cfgSerr : Bool := false
deriving DecidableEq, Repr

/-- The Tether's own state (R31). -/
structure Tether where
  time : Word64 := 0
  /-- Start-up runs (R475). -/
  starting : Bool := false
  /-- The retained Trim Row, words loaded so far (R81, R82). -/
  trim : List Word32 := []
  /-- The doorbell shadow, oldest write first (R59), and the write that the Push port holds (R59, R206). -/
  shadow : List (List Beat) := []
  waiting : Option (List Beat) := none
  /-- Tether time, in ticks, of the last accepted WAKE_N edge (R427). -/
  lastWake : Option Nat := none
  /-- Windows IDLE_WIN of accepted edges that run, oldest first: work has been seen in each (R427). -/
  windows : List Bool := []
  /-- Step of the DEEP entry, 0 when none runs (Table 14.5). -/
  sleepStep : Nat := 0
  /-- CAUSE bits that have become 1 since step 1, and a WAKE write since then (R471). -/
  prepCause : Word32 := 0
  prepWake : Bool := false
  /-- Domains powered whose stores are filled and whose outputs are unclamped (R460, R462). -/
  usable : BitVec 28 := 0
  /-- Acknowledges already reported late in this handshake (R80); index 28 is CCLK. -/
  late : BitVec 29 := 0
  /-- EV_PWR_ACK_LATE information that waits until PD_TOP takes records, oldest first (R80). -/
  lateTold : List Nat := []
  /-- Bank 32 is filled: decoding may start (R473). -/
  bank32 : Bool := true
  /-- A wake from DEEP under the latch has powered PD_TOP only, and the latch is still set (R474). -/
  topOnly : Bool := false
  /-- Hold-up has expired since the last RESET_N (R480). -/
  heldSafe : Bool := false
deriving DecidableEq, Repr

/-- What a Spool transfer is for. -/
inductive Cont where
  | user (tag unit len : Nat)
  | metaOut (tag unit : Nat)
  | hostUser (tag unit off len skip : Nat)
  | hostMeta (tag unit skip len : Nat)
  /-- Data read again for the pass record of (lun, eb, page). -/
  | later (lun eb page off len skip : Nat)
  | laterMeta (lun eb page unit skip len : Nat)
  | cpl (cq n : Nat)
  | event (r n : Nat)
  | fetch (sq idx n : Nat)
  | refetch (sq idx : Nat)
  | image (tag : Nat)
  | rlhFill (line tag : Nat)
  | rlhWb (line mask : Nat)
  | rlhPool (tag line : Nat)
  | bstRead (sub : Nat)
  | bstWrite (sub entry : Nat) (bad : Bool)
  /-- Spill traffic of a row, for the fold of a tag's slot where it serves one (R321, R322). -/
  | spill (stripe row : Nat) (tag : Option Nat)
  /-- Soft data of a read's code word, a rebuilt code word, on its way into its Pool buffer. -/
  | stageSoft (id cw : Nat)
  | stageRac (r cw : Nat)
  | record (lun eb page : Nat)
  | list
deriving DecidableEq, Repr

/-- The work that a held event source keeps waiting until its record finds room (R419). -/
inductive Holder where
  | tag (t : Nat)
  /-- A LUN's Tally agent. -/
  | tally (g : Nat)
  /-- A failed pass of a page. -/
  | pass (lun eb page : Nat)
  | sub (j : Nat)
  | freset
  /-- The passes of a stripe and its close. -/
  | stripe (id : Nat)
  /-- What follows a failed transfer that serves no tag (Table 11.2). -/
  | work (c : Cont)
deriving DecidableEq, Repr

/-- An event record before it takes a ring index (Table 12.1); `lun` names the latch of an EV_READABLE (R420). -/
structure EvRec where
  src : Nat := 0
  fast : Bool := false
  sev : Nat := 0
  coal : Nat := 0
  time : Word32 := 0
  info : Word64 := 0
  holder : Option Holder := none
deriving DecidableEq, Repr

/-- One event ring's hidden state (R415 to R423); its registers are in `regs`. -/
structure Ring where
  /-- On-chip queue of at most 64 records. -/
  queue : List EvRec := []
  /-- Records in source latches, waiting held records and EV_READABLE latches, in the order raised (R419, R420). -/
  late : List EvRec := []
  /-- Records written whose response has not returned, oldest first. -/
  out : List EvRec := []
  /-- Halted by a write error until the next valid head doorbell (R418). -/
  halted : Bool := false
  holdoff : Bool := false
  disabling : Bool := false
deriving DecidableEq, Repr

/-- A submission queue's hidden state (R206, R209, R211). -/
structure Sq where
  slot : List Desc := []
  /-- Fetched entries not yet taken in: ring index and descriptor. -/
  fetched : List (Nat × Desc) := []
  /-- Next index to fetch, and entries whose read data has not returned. -/
  fetchIdx : Nat := 0
  fetching : Nat := 0
  /-- Refetches made of the stale entry at the head. -/
  tries : Nat := 0
  refetching : Bool := false
deriving DecidableEq, Repr

/-- A completion as it waits in the COS (Table 7.7); phase and, for a native SQ, the head are set at the write. -/
structure Cpl where
  sq : Nat := 0
  status : Nat := 0
  hostTag : Nat := 0
  detail : Nat := 0
  head : Nat := 0
  info0 : Nat := 0
  info1 : Nat := 0
deriving DecidableEq, Repr

/-- A completion queue's hidden state (R221 to R226). -/
structure Cq where
  /-- Tags with a completion in the COS that is not issued, oldest first. -/
  waiting : List Nat := []
  /-- Tags of the beats issued or to be retried, oldest first. -/
  issued : List Nat := []
  retry : Bool := false
  posted : Bool := false
  stallTold : Bool := false
deriving DecidableEq, Repr

/-- What became of one code word of a read (R298). -/
inductive CwRes where
  | waiting
  | ok (step : Nat)
  | bad
  | erased
  | fenced
  | poison (detail : Nat)
deriving DecidableEq, Repr

/-- One unit of a tag's work: a code word by transfer index (R236), or a unit of Table 11.1. -/
structure Cw where
  plane : Nat := 0
  cw : Nat := 0
  res : CwRes := .waiting
  corr : Nat := 0
  /-- Bytes of the unit moved with success, metadata moved, requests unanswered. -/
  moved : Nat := 0
  metaDone : Bool := false
  metaBad : Bool := false
deriving DecidableEq, Repr

/-- Whom a read serves: a tag's plane page, source `src` of rebuild `r`, substitution `j`. -/
inductive Owner where
  | tag (t : Nat)
  | rac (r src : Nat)
  | sub (j : Nat)
deriving DecidableEq, Repr

/-- One code word of a plane page being read. -/
structure PCw where
  cw : Nat := 0
  res : CwRes := .waiting
  corr : Nat := 0
  /-- The decoded word, unscrambled; the staged senses of steps 2 and 3, lowest offset first within each step (R293). -/
  word : List Byte := []
  senses : List (List Byte) := []
  /-- Place of its soft data in the order of staging (R38). -/
  order : Nat := 0
  /-- A transfer of its soft data has met an error; others are still out (R400). -/
  lost : Bool := false
deriving DecidableEq, Repr

/-- A read of one plane page: its code words and its run of the retry ladder (R291 to R295). -/
structure PRead where
  id : Nat := 0
  owner : Owner := .tag 0
  lun : Nat := 0
  eb : Nat := 0
  page : Nat := 0
  plane : Nat := 0
  cws : List PCw := []
  /-- READ_RAW: one sense, no decode; RAW leaves the information bytes scrambled. -/
  raw : Bool := false
  scrambled : Bool := false
  noRlh : Bool := false
  /-- The held tag, tenant, class and deadline its operations take; a member read (R367). -/
  tag : Option Nat := none
  tenant : Nat := 0
  cls : Nat := 0
  due : Nat := 0
  order : Nat := 0
  member : Bool := false
  step : Nat := 0
  /-- Set of the current sense, of step 0; whether step 0 used a prediction; a stale entry's set (R302). -/
  set : Nat := 0
  set0 : Nat := 0
  predicted : Bool := false
  stale : Option Nat := none
  tried : List Nat := []
  counted : Nat := 0
  /-- Residual weight of the last failed job of each set tried, in the order tried (R293). -/
  weights : List (Nat × Nat) := []
  centre : Nat := 0
  softKept : Bool := false
  lastGood : Nat := 0
  /-- A sense operation is waiting or running; code words of it still to be transferred; jobs waiting or running. -/
  sensing : Bool := false
  xfers : List Nat := []
  jobs : Nat := 0
  /-- A first job on the current sense's data, or the sense, has failed (R294). -/
  failed : Bool := false
  /-- Waits for an RLH fill (R303), for Pool buffers of step 2, for a rebuild (R297). -/
  waitsRlh : Bool := false
  waitsPool : Bool := false
  rebuilding : Bool := false
  /-- Its first sense has been offered; its unit is fenced; it has ended. -/
  started : Bool := false
  fenced : Bool := false
  ended : Bool := false
  /-- Senses of the operation at hand that count as issued once it starts. -/
  unissued : Nat := 0
  /-- Reconstruct-around has been tried for it when it was next to start (R365); one has run for it (R372). -/
  looked : Bool := false
  around : Bool := false
  /-- A member read of a reconstruct-around, always in band 0 (R367); its first command cycle has been issued (R368). -/
  racMember : Bool := false
  issued : Bool := false
deriving DecidableEq, Repr

/-- A tag (R218) and the work it stands for. -/
structure Tag where
  held : Bool := false
  desc : Desc := 0
  sq : Nat := 0
  tenant : Nat := 0
  cq : Nat := 0
  shared : Bool := false
  seq : Nat := 0
  /-- Deadline instant in µs of Tether time, and whether it has passed (R232). -/
  due : Nat := 0
  past : Bool := false
  /-- A die operation of its own has started; one has passed COMMIT. -/
  started : Bool := false
  committed : Bool := false
  /-- A die operation for it, a pad, parity or member read included, has started (R224); a sense of its own read has (R310). -/
  begun : Bool := false
  sensed : Bool := false
  waitsOrder : Bool := false
  cws : List Cw := []
  /-- Highest step at which a code word was recovered, and that any plane page reached (R299). -/
  okStep : Nat := 0
  topStep : Nat := 0
  senses : Nat := 0
  lastSet : Nat := 0
  /-- Requests not issued or not answered: host writes, host reads. -/
  writes : Nat := 0
  reads : Nat := 0
  unissued : Nat := 0
  moved : Nat := 0
  /-- First error: port, direction and code as `cpl.detail` carries them (Table 7.8). -/
  dmaErr : Option Nat := none
  /-- Drogue has ended the tag (R376). -/
  ended : Bool := false
  inserted : Bool := false
  /-- Stripe, row and member of its slot. -/
  slot : Option (Nat × Nat × Nat) := none
  /-- Host data gathered, by unit, user bytes then metadata. -/
  data : Tab (List Byte) := []
  /-- The status a program or erase ends with so far, and location words (R267). -/
  status : Nat := 0
  detail : Nat := 0
  info0 : Nat := 0
  info1 : Nat := 0
  /-- Tags that a FLUSH, STRIPE_CLOSE or ABORT waits for; those an ABORT matched that ended ST_ABORTED. -/
  waitsFor : List Nat := []
  matched : Nat := 0
  aborted : Nat := 0
  /-- Phase of a multi-step command. -/
  phase : Nat := 0
 deriving DecidableEq, Repr

/-- Location of a page or code word on the medium. -/
structure Loc where
  lun : Nat := 0
  eb : Nat := 0
  page : Nat := 0
  planes : Nat := 0
deriving DecidableEq, Repr

/-- What a die operation is for; END's result goes where this says (R154). -/
inductive Role where
  | none
  /-- A sense, the transfer of a code word, a soft read of a code word, of read `id`. -/
  | sense (id : Nat)
  | xfer (id cw : Nat)
  | soft (id cw : Nat)
  /-- Passes: the first pass of the tag's own page, a later pass, a pad, of parity member m of a stripe row. -/
  | first
  | later
  | pad
  | parity (stripe row member : Nat)
  /-- A pass of substitution j at its new place, its erase. -/
  | subst (j : Nat)
  | substErase (j : Nat)
  | erase
  | sample (i cw : Nat)
  /-- Tally work of a LUN by step: 1 header sense, 2 header transfer, 3 record program, 4 pool erase, 5 header program, 6 page
  sense, 7 page transfer. -/
  | tally (step : Nat)
  | resetLun
  | poll
  | resume
  | finish
  /-- A routine of a training run, a tracking burst (R114, R121). -/
  | train
  | raw
  | routine
deriving DecidableEq, Repr

/-- A pass record (R325): a page whose first pass has verified and whose last pass has not. -/
structure PassRec where
  eb : Nat := 0
  page : Nat := 0
  planes : Nat := 0
  tag : Option Nat := none
  desc : Desc := 0
  cq : Nat := 0
  tenant : Nat := 0
  cls : Nat := 2
  due : Nat := 0
  digest : Word32 := 0
  stripe : Option (Nat × Nat × Nat) := none
  /-- Its data is in a Pool buffer (COPY, pad, substitution copy) and not read from host memory again. -/
  pool : Bool := false
  isPad : Bool := false
  /-- Its later pass waits or runs; its data is being read again; requests unanswered and what they brought, by unit. -/
  running : Bool := false
  reading : Bool := false
  left : Nat := 0
  got : Tab (List Byte) := []
  /-- SQ and host tag for the post-reset list; intake order of the program (none for pads and parity). -/
  sq : Nat := 0x7F
  order : Option Nat := none
  hostTag : Nat := 0xFFFF
  /-- A request for its data has met an error (R398, Table 11.2). -/
  bad : Bool := false
  /-- Parity of a row whose stripe has been freed before this page's later pass (R249). -/
  kept : List (List Byte) := []
  /-- R323's condition has been met for its word line. -/
  fine : Bool := false
  /-- Its first pass was a ROUTINE's, and its later pass is left to one (R261, R337). -/
  raw : Bool := false
  /-- R323 bars its later pass for good (log entry 98). -/
  dead : Bool := false
deriving DecidableEq, Repr

/-- A die operation: waiting in Bridle, running in a context, or past its confirm on a LUN (R354, R355). -/
structure Op where
  routine : Nat := 0
  loc : Loc := {}
  cw : Nat := 0
  v3 : Word32 := 0
  v4 : Word32 := 0
  v6 : Word32 := 0
  v7 : Word32 := 0
  role : Role := .none
  /-- The held tag that waits on it, its tenant, class and deadline instant (R356). -/
  tag : Option Nat := none
  tenant : Nat := 0
  cls : Nat := 2
  due : Nat := 0
  past : Bool := false
  seq : Nat := 0
  member : Bool := false
  /-- A member read of a reconstruct-around (R367). -/
  racMember : Bool := false
  /-- READ_SOFT: the offsets that each sense writes, lowest first (R291). -/
  offs : List (List Int) := []
  /-- Deadline while no held tag waits on it (R356). -/
  due2 : Nat := 0
  stripe : Option (Nat × Nat × Nat) := none
  /-- Code words of the page in stored form (a program's staging), by plane and index in transfer order. -/
  data : List (List Byte) := []
  folded : Bool := false
  /-- Its stored forms are kept in a Pool buffer for the later pass (R325); a pad page. -/
  pooled : Bool := false
  isPad : Bool := false
  digest : Word32 := 0
  /-- Its first pass has been offered before (hold-up took it back, R478); the pad of a slot that ended before its COMMIT (R377). -/
  begun : Bool := false
  refill : Bool := false
  /-- The SUBSTITUTE, REBUILD or ERASE whose command a substitution's operation carries out (R376). -/
  boss : Option Nat := none
  /-- The program whose failed page a substitution programs again, for the page's record (R378). -/
  origin : Option PassRec := none
  /-- FINISH: the requests that were pending for the routine it follows or have come since: 0 abort, 1 suspend, 2 cancel (R386). -/
  reqs : List Nat := []
deriving DecidableEq, Repr

/-- A program frontier entry (R336); the list keeps the most recently programmed first. -/
structure Front where
  eb : Nat := 0
  planes : Nat := 0
  np : Nat := 0
  /-- Lowest page not readable when the block last was the horizon block (R328). -/
  h : Nat := 0
  /-- Lowest word line with a pass that has failed outside a stripe (R323). -/
  halt : Option Nat := none
deriving DecidableEq, Repr

/-- A tally record in logical form (Table 9.3) with its place (R347). -/
structure TallyRec where
  page : Nat := 0
  slot : Nat := 0
  w0 : Word32 := 0
  w1 : Word32 := 0
  w2 : Word32 := 0
  w3 : Word32 := 0
deriving DecidableEq, Repr

/-- Whose erase it is: a tag's, a substitution's, the tally pool's own (by pool index). -/
inductive Eraser where
  | tag (t : Nat)
  | sub (j : Nat)
  | pool (idx : Nat)
deriving DecidableEq, Repr

/-- Work of a Tally agent: an intent record, the recording of an erase's outcome in the record of an index, TALLY_WRITE,
TALLY_SCAN, the check that ERASE of a block causes (R349). -/
inductive TWork where
  | intent (w : Eraser) (eb planes tag : Nat)
  | clear (w : Eraser) (idx : Nat) (bad : Bool)
  | write (t : Nat)
  | scan (t : Nat)
deriving DecidableEq, Repr

/-- A LUN's tally window (R345 to R350). -/
structure Tally where
  established : Bool := false
  /-- The first pre-erased block of an established window is still being made; other work waits for it (R349). -/
  opening : Bool := false
  stopped : Bool := false
  /-- Pool index of W1 and of W0, GEN of W1. -/
  w1 : Nat := 0
  w0 : Option Nat := none
  gen : Nat := 0
  /-- Records of W1 and of W0 that the agent has read or written. -/
  recs1 : List TallyRec := []
  recs0 : List TallyRec := []
  /-- Last page in use of a W0 that was W1 since RESET_N. -/
  end0 : Option Nat := none
  /-- Pool indices that have failed (R350), and the pre-erased one. -/
  failed : List Nat := []
  ready : Option Nat := none
  /-- Headers read while establishing: pool index and GEN (R349). -/
  found : List (Nat × Nat) := []
  /-- Work waiting for the window, oldest first, and the work at hand. -/
  queue : List TWork := []
  cur : Option TWork := none
  /-- 0 idle, 1 reading headers, 2 searching W1, 3 programming a record, 4 erasing a pool block, 5 writing a header,
  6 reading the page of an update, 7 scanning. -/
  phase : Nat := 0
  /-- Pool indices whose header is still to be read; bounds of the search; page being read; block being scanned. -/
  left : List Nat := []
  lo : Nat := 0
  hi : Nat := 0
  page : Nat := 0
  onW0 : Bool := false
  /-- Record being programmed. -/
  now : TallyRec := {}
  /-- Erases whose outcome is not recorded: their records' indices (R348); those whose outcome is known. -/
  flight : List (Eraser × Nat) := []
  known : List Eraser := []
  /-- W1 takes no new record: a program in it has failed (R350), or the work at hand waits for the advance. -/
  full : Bool := false
  /-- Work whose record's program failed, and the record to be written in the new W1 for it (R350). -/
  redo : Option (TWork × TallyRec) := none
  /-- The erase at hand makes the block ready for a first header (R349), is its repeat after that header failed. -/
  first : Bool := false
  again : Bool := false
deriving DecidableEq, Repr

/-- Bus actions of the op lane (Table 4.5). -/
inductive BusOp where
  | ceOn | ceOff | cmd | addr | din | dout | status | trnRd | trnWr
deriving DecidableEq, Repr

/-- An op-lane entry (R143) with the values its word latched (R140). -/
structure Lane where
  op : BusOp := .ceOff
  tgt : Nat := 0
  cmd : Byte := 0
  addr : List Byte := []
  /-- Immediate data of XFER 0b01, or the register that takes it. -/
  imm : List Byte := []
  xfer : Nat := 0
  dest : Nat := 0
  len : Nat := 0
  handle : Nat := 0
  tsel : Nat := 0
  commit : Bool := false
  /-- The LUN whose routine queued it. -/
  lun : Nat := 0
deriving DecidableEq, Repr

/-- Vector registers and the rest of a context (spec/04, "Contexts, registers and parking"). -/
structure Ctx where
  /-- Table 4.14 STATE: 0 free, 1 executing, 2 ready, 3 not ready. -/
  state : Nat := 0
  v : List Word32 := List.replicate 16 0
  pc : Nat := 0
  stack : List Nat := []
  z : Bool := false
  n : Bool := false
  c : Bool := false
  timerOn : Bool := false
  timer : Word32 := 0
  timerUnit : Nat := 0
  abortReq : Bool := false
  suspReq : Bool := false
  cancelReq : Bool := false
  bank : Bool := false
  routine : Nat := 0
  entry : Nat := 0
  copy : List Word32 := List.replicate 8 0
  restarts : Nat := 0
  giveWay : Bool := false
  safeYield : Bool := false
  words : Nat := 0
  op : Op := {}
  lun : Nat := 0
  committed : Bool := false
  /-- The bus action of a word that waits for the lane has entered it (R143). -/
  issued : Bool := false
  /-- A DOUT that waits for its staging reservation (R23, R143). -/
  doutWait : Option Lane := none
  /-- Its word waits until the lane has drained (R143). -/
  laneWait : Bool := false
deriving DecidableEq, Repr

/-- Per-LUN state of a channel engine (R21, Table 5.7) with what the channel engine keeps for the LUN. -/
structure Lun where
  busy : Bool := false
  suspended : Bool := false
  fenced : Bool := false
  committed : Bool := false
  op : Nat := 0
  suspCount : Nat := 0
  tag : Nat := 0
  eb : Nat := 0
  page : Nat := 0
  row : Word32 := 0
  /-- Low 32 bits of Tether time at the confirm. -/
  confirm : Word32 := 0
  /-- RUN up to the last resume, Tether time of the last resume or confirm (R363). -/
  ran : Nat := 0
  since : Nat := 0
  horizon : Option (Nat × Nat) := none
  suspErase : Option (Nat × Nat) := none
  resetting : Bool := false
  limitHit : Bool := false
  park : Option Ctx := none
  /-- Order in which the parked routine woke, none while it sleeps (R145). -/
  woken : Option Nat := none
  /-- The operation past its confirm, kept for FINISH, RESUME and polls. -/
  cur : Op := {}
  frontier : List Front := []
  recs : List PassRec := []
  tally : Tally := {}
  /-- The operation that reached its time limit, until the reset's outcome (R128). -/
  hung : Option Op := none
  /-- Drogue has the suspended operation's LUN reset (R376, R379). -/
  abortDie : Bool := false
  /-- It has stayed busy after a reset, its operation's outcome known: not followed until a status poll finds it ready (R128, R146). -/
  stuck : Bool := false
  /-- Tether µs of the confirm of a sense made in a suspension (R410). -/
  asideAt : Nat := 0
  holdMaxed : Bool := false
deriving DecidableEq, Repr

/-- A code word or page in staging (R23, R24). -/
structure Stage where
  /-- Its data is on its way to host memory; freed when its write responses have returned (R24). -/
  done : Bool := false
  handle : Nat := 0
  tag : Option Nat := none
  loc : Loc := {}
  cw : Nat := 0
  /-- Bytes reserved (R23). -/
  size : Nat := 0
  bytes : List Byte := []
  /-- Fewest stored zero bits of its senses (R283). -/
  zeros : Nat := 0
  /-- The read that it serves; the senses of a soft read in the order staged. -/
  read : Option Nat := none
  soft : List (List Byte) := []
  /-- Place in the order in which code words entered staging (R38). -/
  order : Nat := 0
deriving DecidableEq, Repr

/-- The levels of one channel's pads (Table 2.11, Table 3.24). -/
structure Pads where
  ceN : BitVec 8 := 0xFF
  weN : Bool := true
  reT : Bool := true
  reC : Bool := false
  cle : Bool := false
  ale : Bool := false
  dqOn : Bool := false
  dqsOn : Bool := false
  wpN : Bool := false
  /-- Last byte driven on DQ. -/
  dq : Byte := 0
deriving DecidableEq, Repr

/-- A channel engine and its PHY slice. -/
structure Chan where
  pads : Pads := {}
  lane : List Lane := []
  tgt : Option Nat := none
  /-- The LUN whose routine selected the target. -/
  tgtBy : Nat := 0
  stat : Byte := 0
  xferFault : Bool := false
  cmpPass : Bool := false
  /-- The transfer under way has been repeated once (R125). -/
  repeated : Bool := false
  staging : List Stage := []
  nextHandle : Nat := 0
  /-- CHn_MODE and CHn_TIM0 to CHn_TIM4 in force (R98). -/
  mode : Word32 := 0
  tim : List Word32 := [0x230A0505, 0x0B0B6464, 0x0050012C, 0x012C0014, 0x42421900]
  /-- Training run: none, full, refresh, in an APPLY step (R113 to R115). -/
  training : Nat := 0
  /-- Routines of the run started so far. -/
  trainAt : Nat := 0
  /-- Safe state by the long calibration's failure or PLL failure of the last APPLY (R131). -/
  applyBad : Bool := false
  /-- Tenants' band-0 bus ns in the 1 ms period, and virtual times (R357, R359). -/
  d0 : Tab Nat := []
  vt : Tab Nat := []
  /-- A read burst was carried in the drift period (R120). -/
  burst : Bool := false
  /-- Per target: consecutive status polls that found its LUNs ready while RB_N reads busy (R127). -/
  readyPolls : Tab Nat := []
  /-- Per target: accepted transitions of RB_N in the current 1 ms window (R127). -/
  rbCount : Tab Nat := []
  /-- Pull-up, pull-down and termination codes that the pads use, and Tether µs since when newer codes wait (R108). -/
  zq : List Nat := [0x20, 0x20, 0x20]
  zqDue : Option Nat := none
  /-- Sum of moves per bit since full training (R121). -/
  moves : List Int := List.replicate 8 0
deriving DecidableEq, Repr

/-- A quad: PHY macro, Chanter, power state. -/
structure Quad where
  /-- APPLY step of R99: 0 none, 1 draining, 3 relocking, 4 calibrating, 5 waiting for the 10 µs, 6 training. -/
  apply : Nat := 0
  applyHeld : Bool := false
  applyFail : Nat := 0
  /-- Running PLL; per PLL: locked, out of use (retired, or a relock that failed), losses (R452, R453). -/
  pll : Nat := 0
  locked : BitVec 2 := 0
  retired : BitVec 2 := 0
  losses : List Nat := [0, 0]
  relocking : Bool := false
  switching : Bool := false
  zqWanted : Bool := false
  /-- The calibration that START asked for has found its idle boundary (R107). -/
  zqRuns : Bool := false
  /-- Long calibration since PD_Pq came up and since the last APPLY relocked the PLLs (R133). -/
  calDone : Bool := false
  /-- PLL_RELOCK owes EV_PLL_SWITCH for this many losses (R452). -/
  lostPll : Nat := 0
  /-- Tether times in µs of counted Chanter faults (R449). -/
  faults : List Nat := []
  takeover : Bool := false
  /-- The context that took the last turn (R27). -/
  turn : Nat := 3
  /-- A wake from QUAD_OFF (1) or from DEEP (2) is under way (R466, R473). -/
  waking : Nat := 0
  /-- A DEEP entry under way has released the quad (R471). -/
  deepDown : Bool := false
  /-- Reconstruct credit drawn per tenant in this 1 ms period (R369). -/
  drawn : Tab Nat := []
  /-- Tether time to which the credit balance is kept, and its part below 1 ns, in 1/25 ns (R368). -/
  credAt : Nat := 0
  credRest : Nat := 0
deriving DecidableEq, Repr

/-- One patch bank (R157, R158). -/
structure PatBank where
  /-- Low word last written of a row, the row's 64 bits, rows written, check bits inverted (R446). -/
  rowWord : Tab Word32 := []
  row : Tab Word64 := []
  rowOk : Tab Bool := []
  rowInv : Tab Nat := []
  nanoWord : Tab Word32 := []
  nano : Tab (BitVec 192) := []
  nanoOk : Tab Bool := []
  nanoInv : Tab Nat := []
  mtch : Tab Word32 := []
  entry : Tab Word32 := []
  ident : Word32 := 0
deriving DecidableEq, Repr

/-- A Stripe Table entry (Table 5.12) with the intake flag of STRIPE_CLOSE (R249). -/
structure Stripe where
  tenant : Nat := 0
  planes : Nat := 0
  npar : Nat := 0
  ndata : Nat := 0
  state : Nat := 0
  degraded : Bool := false
  parityLost : Bool := false
  nextMember : Nat := 0
  nextRow : Nat := 0
  opened : Word32 := 0
  /-- Members 0 to 33: SUBST, LUN and EB. -/
  members : List (Bool × Nat × Nat) := []
  closing : Bool := false
  /-- The stripe has stopped (R341), and its lost members, as bits. -/
  stopped : Bool := false
  lost : Nat := 0
  /-- Row and member of the earliest failed page of a stopped stripe (R341). -/
  stopRow : Nat := 0
  stopMember : Nat := 0
deriving DecidableEq, Repr

/-- A stripe row from its first slot taken until its parity's last pass: slots whose first pass has verified, folded,
filled by pads, parity members whose first and last pass have verified. -/
structure Row where
  stripe : Nat := 0
  row : Nat := 0
  verified : Nat := 0
  folded : Nat := 0
  padded : Nat := 0
  parFirst : Nat := 0
  parLast : Nat := 0
  parWanted : Bool := false
  /-- A slot of it can take no page: its parity is not programmed (log entry 81). -/
  dead : Bool := false
  /-- Closed without parity: pads on parity members (R335). -/
  noParity : Bool := false
deriving DecidableEq, Repr

/-- A parity accumulator (R319): on chip, or in a Pool buffer at an address; P and Q bytes by plane and code word. -/
structure Acc where
  stripe : Nat := 0
  row : Nat := 0
  chip : Bool := true
  addr : Nat := 0
  asked : Bool := false
  /-- Its buffer may no longer be used (R406). -/
  lost : Bool := false
  p : List (List Byte) := []
  q : List (List Byte) := []
  complete : Nat := 0
deriving DecidableEq, Repr

/-- Decoder modes (Table 8.3). -/
inductive Mode where
  | bf | hm | s2 | s3
deriving DecidableEq, Repr

/-- Whose code word a decode job recovers. -/
inductive JobFor where
  | cw (id cw : Nat)
  | rebuilt (r cw : Nat)
deriving DecidableEq, Repr

/-- A decode job (R288, R289). -/
structure Job where
  who : JobFor := .cw 0 0
  mode : Mode := .bf
  tag : Option Nat := none
  /-- Location of the code word and the staged data of its (centre) sense. -/
  loc : Loc := {}
  input : List Byte := []
  ch : Nat := 0
  handle : Nat := 0
  set : Nat := 0
  /-- Ladder step of its data (R294). -/
  step : Nat := 0
  /-- Soft input of a min-sum job: sign per bit, and the magnitude's bit planes, lowest first (Table 8.3, R286). -/
  sign : List Byte := []
  mag : List (List Byte) := []
  /-- Iteration limit, taken with the slice (R290). -/
  limit : Nat := 0
  due : Nat := 0
  order : Nat := 0
  /-- Its result is no longer wanted (R370). -/
  dead : Bool := false
deriving DecidableEq, Repr

/-- A decoder slice (R29, R448). -/
structure Slice where
  /-- 0 unused, 1 active, 2 spare, 3 retired, 4 spare being powered and tested. -/
  st : Nat := 0
  job : Option Job := none
  forFault : Nat := 0
deriving DecidableEq, Repr

/-- A cached RLH line (R305). -/
structure RlhLine where
  line : Nat := 0
  way : Nat := 0
  entries : List Word32 := []
  dirty : BitVec 16 := 0
  /-- Entries updated since the write-back under way was issued (R306). -/
  again : BitVec 16 := 0
  /-- The intake order when an entry was last updated (R258). -/
  stamp : Nat := 0
deriving DecidableEq, Repr

/-- A dirty line staged in a Pool buffer (R307): the tag that owns the buffer, the slot of 64 B, and 0 on its way there, 1 there,
2 being read back, 3 being written back. -/
structure PoolLine where
  tag : Nat := 0
  slot : Nat := 0
  line : RlhLine := {}
  stage : Nat := 0
deriving DecidableEq, Repr

/-- An update of an RLH entry (Table 8.8): table index, highest step of its code words, whether step 0's set was predicted, the set and the
centre set that recovered them, the epoch. -/
structure RlhUpd where
  index : Nat := 0
  step : Nat := 0
  predicted : Bool := false
  set : Nat := 0
  centre : Nat := 0
  epoch : Nat := 0
deriving DecidableEq, Repr

/-- The RLH cache (R305 to R308). -/
structure Rlh where
  lines : List RlhLine := []
  /-- Tree pseudo-LRU bits per set. -/
  plru : Tab (BitVec 7) := []
  /-- Fills outstanding: line, tag, still wanted by its READ. -/
  fills : List (Nat × Nat) := []
  /-- Evicted dirty lines waiting for their write-back. -/
  wbq : List RlhLine := []
  /-- Lines staged in Pool buffers, oldest first. -/
  pooled : List PoolLine := []
  /-- Lines whose fill has returned and that wait for a way (R303, R307). -/
  landed : List (Nat × List Byte) := []
  /-- Lines of late fills with the tag whose READ caused them (R303, R307). -/
  late : List (Nat × Nat) := []
  /-- Updates that wait for their line (R304). -/
  updates : List RlhUpd := []
deriving DecidableEq, Repr

/-- A Spool request (Table 2.5): one to 64 beats, with the bytes and strobes of a write. -/
structure Spool where
  port : Nat := 0
  sid : Nat := 0
  write : Bool := false
  addr : Nat := 0
  beats : Nat := 1
  data : List Byte := []
  strb : List (BitVec 64) := []
  cont : Cont := .list
  tid : Nat := 0
  /-- It became ready in the command at hand (R395). -/
  fresh : Bool := false
deriving DecidableEq, Repr

/-- What a Pool buffer is for (Table 11.3). -/
inductive PoolUse where
  | soft (id cw : Nat)
  | recon (r cw : Nat)
  | rlhEvict (tag : Nat)
  | spill (stripe row : Nat)
  | record (lun eb page : Nat)
deriving DecidableEq, Repr

/-- A Pool request waiting to be sent, outstanding, or a need waiting after EMPTY (R403, R404). -/
structure PoolReq where
  op : Nat := 0
  cls : Nat := 0
  owner : Nat := 0
  addr : Nat := 0
  use : PoolUse := .soft 0 0
  /-- Order of the need's first EMPTY answer, none before one (R404). -/
  first : Option Nat := none
deriving DecidableEq, Repr

/-- A buffer held: class granted, address, owners (R405). -/
structure PoolBuf where
  cls : Nat := 0
  addr : Nat := 0
  owners : List Nat := []
  use : PoolUse := .soft 0 0
deriving DecidableEq, Repr

/-- The Pool port (R402 to R406). -/
structure Pool where
  send : List PoolReq := []
  out : List PoolReq := []
  empty : List PoolReq := []
  bufs : List PoolBuf := []
  emptyTold : Bool := false
  /-- First EMPTY answers so far. -/
  firsts : Nat := 0
deriving DecidableEq, Repr

/-- A substitution, SUBSTITUTE, REBUILD member, or an ERASE with SPARE (R190, R246, R339, R454). -/
structure Sub where
  id : Nat := 0
  /-- 0 failed pass, 1 SUBSTITUTE, 2 REBUILD member, 3 ERASE with SPARE. -/
  kind : Nat := 0
  tag : Option Nat := none
  stripe : Nat := 0
  member : Nat := 0
  lun : Nat := 0
  eb : Nat := 0
  /-- Where the member moves to. -/
  toLun : Nat := 0
  toEb : Nat := 0
  entry : Nat := 0
  planes : Nat := 0
  /-- 0 waiting its turn, 1 reading the record, 2 writing USED, 3 intent, 4 erasing, 5 copying, 6 done, 7 swapped or lost and told. -/
  phase : Nat := 0
  record : List Byte := []
  /-- Pages still to copy, the failed page, its operation. -/
  pages : List Nat := []
  failed : Option Nat := none
  op : Op := {}
  /-- Descriptor and queues of the failed program (R378). -/
  origin : Option PassRec := none
  /-- Code words of the page being copied (plain information), its page, reads or rebuilds of it under way. -/
  got : Tab (List Byte) := []
  page : Nat := 0
  reads : Nat := 0
  /-- Stored forms before and after, XORed, of data pages whose row's parity is still open: row, transfer index, bytes (R339). -/
  diffs : List (Nat × Nat × List Byte) := []
  degrade : Bool := false
  /-- The page at hand cannot be rebuilt and is programmed as a pad (R455). -/
  padNow : Bool := false
  notRebuilt : Nat := 0
  /-- EV_STRIPE_DEGRADED has been raised for it. -/
  told : Bool := false
  /-- Status and detail of a page that could not be recovered or programmed (R250). -/
  bad : Option (Nat × Nat) := none
  /-- Port and stream ID of the record access under way (R190). -/
  port : Nat × Nat := (1, 36)
deriving DecidableEq, Repr

/-- A source of a rebuild: a data member, P or Q (R366). -/
structure Src where
  member : Nat := 0
  lun : Nat := 0
  eb : Nat := 0
  /-- 0 unavailable, 1 to be read or reading, 2 read, 3 Q while nothing else is missing (R297), 4 from the accumulator. -/
  st : Nat := 0
  /-- By code word index: the stored form, empty where not recovered. -/
  got : Tab (List Byte) := []
  cost : Nat := 0
  started : Bool := false
  /-- Its read was cancelled before its first command cycle (R368). -/
  unspent : Bool := false
deriving DecidableEq, Repr

/-- A rebuild of code words of one plane page: ladder step 4 or reconstruct-around (R297, R365). -/
structure Rac where
  id : Nat := 0
  owner : Owner := .tag 0
  lun : Nat := 0
  eb : Nat := 0
  page : Nat := 0
  plane : Nat := 0
  cws : List Nat := []
  /-- Code words whose rebuild has ended: recovered or not. -/
  done : List (Nat × Bool) := []
  stripe : Nat := 0
  member : Nat := 0
  around : Bool := false
  /-- The first rebuild of the reconstruct-around that it belongs to (R365). -/
  group : Nat := 0
  srcs : List Src := []
  tag : Option Nat := none
  tenant : Nat := 0
  cls : Nat := 0
  due : Nat := 0
  order : Nat := 0
  noRlh : Bool := false
  /-- Buffers still to be granted, SHARE of a spill buffer awaited; 0 waiting, 1 reading, 2 decoding. -/
  bufs : Nat := 0
  sharing : Bool := false
  phase : Nat := 0
  won : Bool := false
  /-- The accumulator it reads P and Q from, once its stripe has released the row (R405). -/
  kept : Option Acc := none
deriving DecidableEq, Repr

/-- A function reset under way (R383). -/
structure Freset where
  busy : Bool := false
  immediate : Bool := false
  /-- Step of R383 reached. -/
  step : Nat := 0
  list : List (List Byte) := []
  written : Nat := 0
  writing : Bool := false
  stoppedList : Bool := false
deriving DecidableEq, Repr

/-- A tracked row (R442). -/
structure Track where
  bank : Nat := 0
  row : Nat := 0
  first : Nat := 0
  count : Nat := 0
deriving DecidableEq, Repr

/-- Ballast (R429, R442, R446, R450). -/
structure Ballast where
  tracker : List Track := []
  /-- Rows mapped to spare rows: bank, row, spare index; the copies under way. -/
  rowMap : List (Nat × Nat × Nat) := []
  copying : List (Nat × Nat × Nat) := []
  /-- Words read as uncorrectable and not known to be written since: bank, row, word (R440). -/
  poison : List (Nat × Nat × Nat) := []
  /-- Tags poisoned by an uncorrectable read that a recovery waits for (Table 13.5): unit index, tag. -/
  waits : List (Nat × Nat) := []
  sliceArmed : Option Nat := none
  spcOk : Bool := false
  spcQuad : Option Nat := none
  cosHighTold : Bool := false
deriving DecidableEq, Repr

/-- Why a command stops the model. Every path but these goes on. -/
inductive Fault where
  /-- A functional command while TEST_MODE is high: R89 calls the block's functional behaviour undefined then. Raised by
  every functional command's meaning through `live`. Safe: nothing is claimed of such a run. -/
  | testMode
deriving DecidableEq, Repr

/-- Why a command has no meaning in the model. -/
inductive Refusal where
  /-- A command whose meaning is not written, by its mnemonic. Raised by Dispatch.lean's refused arms alone. Safe. -/
  | notModelled (mnemonic : String)
deriving DecidableEq, Repr

/-- Consequences that fall due within the command that causes them and are carried out at its end, oldest first (the
model's own list; empty between commands). -/
inductive Todo where
  /-- A tag's completion has entered the COS: waiters on it look again (R254, R257, R249, R234). -/
  | inserted (t : Nat)
  /-- A LUN has been fenced: its operations and the tags on it end (R434, R44). -/
  | lunFenced (g : Nat)
  | chanFenced (n : Nat)
  | quadFenced (q : Nat)
  /-- A row is to be spared; the Boolean says after an uncorrectable read (R442). -/
  | spareRow (bank row : Nat) (bad : Bool)
  /-- A tag ends with this status, detail and information words. -/
  | endTag (t status detail info0 info1 : Nat)
  /-- A held record has found room. -/
  | released (h : Holder)
  /-- Every code word of a page read, of a rebuild, has its outcome. -/
  | readDone (id : Nat)
  | racEnd (id : Nat)
  /-- A rebuild that has no member read to wait for is solved. -/
  | racGo (id : Nat)
  /-- A page read has reached ladder step 4; its RLH entry is to be updated. -/
  | step4 (id : Nat)
  /-- Pool grant for a need. -/
  | granted (use : PoolUse)
  /-- A tag looks again whether it is complete. -/
  | tagCheck (t : Nat)
  /-- Erases: the intent record is in place; the outcome is known and recorded; no intent record could be written (R342). -/
  | eraseGo (g : Nat) (w : Eraser)
  | eraseOver (g : Nat) (w : Eraser) (ok : Bool)
  | intentBad (g : Nat) (w : Eraser)
  /-- The sources of a substitution's page are read, or could not be: status and detail of that failure. -/
  | subSourced (j : Nat) (bad : Option (Nat × Nat))
  /-- A TALLY_SCAN has its records: their bytes go through the tag's shape. -/
  | scanned (t : Nat) (bytes : List Byte)
  /-- A die operation has ended with a result code and v6, v7 (R154). -/
  | opEnd (op : Op) (result v6 v7 : Nat)
  /-- What follows a held record (R419): a poisoned and a stopped stripe, a page whose pass has failed for good, a lost member's substitution
  and one that is done with what it reports. -/
  | poisoned (stripe : Nat)
  | stopped (stripe row member : Nat)
  | passOver (lun eb page : Nat) (halt : Bool)
  /-- R323 bars passes of a block for good. -/
  | halted (lun eb : Nat)
  | lostOver (sub : Nat)
  | subDone (sub : Nat) (degrades : Bool) (tags : List Nat)
deriving DecidableEq, Repr

/-- The whole state of the block. -/
structure State where
  /-- Commands waiting, first in, first out. -/
  pending : List Instr := []
  /-- Draws of free values so far (the model's own field). -/
  freeCount : Nat := 0
  pins : Pins := {}
  /-- Setup registers that differ from their reset value, by byte address (R484). -/
  regs : Tab Word32 := []
  tet : Tether := {}
  /-- The top has halted on a fatal fault (R437). -/
  halted : Bool := false
  sqs : Tab Sq := []
  cqs : Tab Cq := []
  tags : Tab Tag := []
  cos : Tab Cpl := []
  /-- Completions that wait for their tag's Pool buffers to be released or for a held record (R405, R419). -/
  parked : List (Nat × Cpl) := []
  todo : List Todo := []
  /-- What waits at the point where a held record was raised, until the record has room (R419). -/
  held : List (Holder × Todo) := []
  intakeSeq : Nat := 0
  rrSq : Nat := 0
  wakeSeq : Nat := 0
  rings : Tab Ring := []
  /-- Fast events of the command at hand, which take their snapshot slots at its end (R424); empty between commands. -/
  snaps : List EvRec := []
  luns : Tab Lun := []
  chans : Tab Chan := []
  ctxs : Tab Ctx := []
  quads : Tab Quad := []
  pat0 : PatBank := {}
  pat1 : PatBank := {}
  /-- In-force geometry: the stored words that the last passing VALIDATE copied (R165). -/
  force : Tab Word32 := []
  /-- Words captured by a running VALIDATE (R166). -/
  checking : Option (Tab Word32) := none
  stripes : Tab Stripe := []
  rows : List Row := []
  accs : List Acc := []
  ops : List Op := []
  jobs : List Job := []
  jobSeq : Nat := 0
  slices : Tab Slice := []
  rlh : Rlh := {}
  /-- Spool requests ready and not issued, and transactions outstanding. -/
  ready : List Spool := []
  flying : List Spool := []
  pool : Pool := {}
  subs : List Sub := []
  racs : List Rac := []
  reads : List PRead := []
  nextId : Nat := 0
  freset : Freset := {}
  ballast : Ballast := {}
deriving DecidableEq, Repr

/-- The machine as RESET_N low leaves it (R50, R91, R484): every structure at its reset value. -/
def State.reset : State := {}

end Sys2Proof.Machine
end

