-- ==== Sys2Proof/Machine/Ops.lean ====
section
/-! DEFINITION. The named operations over the state that every family uses: register fields, the units of the block,
power and time, events (R408 to R427), fault capture and escalation (R430 to R436), the safe state (R130, R131), fences,
the Completion Overflow Store (R220, R396, R405) and free values. -/

namespace Sys2Proof.Machine

/-! ### Register fields -/

/-- The stored word of the register at byte address a. -/
def State.reg (s : State) (a : Nat) : Word32 := tabGet regReset s.regs a

/-- Store a whole register word. -/
def State.setReg (s : State) (a : Nat) (w : Word32) : State := { s with regs := tabPut regReset s.regs a w }

/-- The stored value of a field. -/
def State.get (s : State) (f : Fld) : Nat := fld (s.reg f.adr) f.hi f.lo

/-- Whether a field is not 0. -/
def State.on (s : State) (f : Fld) : Bool := s.get f != 0

/-- Hardware sets a field. -/
def State.put (s : State) (f : Fld) (v : Nat) : State := s.setReg f.adr (putFld (s.reg f.adr) f.hi f.lo v)

/-- A counter field goes up by n and stays at its largest value. -/
def State.bump (s : State) (f : Fld) (n : Nat) : State := s.put f (satAdd (f.hi + 1 - f.lo) (s.get f) n)

/-- Put bit i of a register word. -/
def State.setBit (s : State) (a i : Nat) (b : Bool) : State := s.setReg a (putBit (s.reg a) i b)

/-! ### The units -/

def State.sqOf (s : State) (i : Nat) : Sq := tabGet (fun _ => {}) s.sqs i
def State.modSq (s : State) (i : Nat) (f : Sq → Sq) : State := { s with sqs := tabMod (fun _ => {}) s.sqs i f }
def State.cqOf (s : State) (i : Nat) : Cq := tabGet (fun _ => {}) s.cqs i
def State.modCq (s : State) (i : Nat) (f : Cq → Cq) : State := { s with cqs := tabMod (fun _ => {}) s.cqs i f }
def State.tagOf (s : State) (i : Nat) : Tag := tabGet (fun _ => {}) s.tags i
def State.modTag (s : State) (i : Nat) (f : Tag → Tag) : State := { s with tags := tabMod (fun _ => {}) s.tags i f }
def State.ringOf (s : State) (i : Nat) : Ring := tabGet (fun _ => {}) s.rings i
def State.modRing (s : State) (i : Nat) (f : Ring → Ring) : State := { s with rings := tabMod (fun _ => {}) s.rings i f }
def State.lunOf (s : State) (i : Nat) : Lun := tabGet (fun _ => {}) s.luns i
def State.modLun (s : State) (i : Nat) (f : Lun → Lun) : State := { s with luns := tabMod (fun _ => {}) s.luns i f }
def State.chanOf (s : State) (i : Nat) : Chan := tabGet (fun _ => {}) s.chans i
def State.modChan (s : State) (i : Nat) (f : Chan → Chan) : State := { s with chans := tabMod (fun _ => {}) s.chans i f }
def State.ctxOf (s : State) (i : Nat) : Ctx := tabGet (fun _ => {}) s.ctxs i
def State.modCtx (s : State) (i : Nat) (f : Ctx → Ctx) : State := { s with ctxs := tabMod (fun _ => {}) s.ctxs i f }
def State.quadOf (s : State) (i : Nat) : Quad := tabGet (fun _ => {}) s.quads i
def State.modQuad (s : State) (i : Nat) (f : Quad → Quad) : State := { s with quads := tabMod (fun _ => {}) s.quads i f }
def State.stripeOf (s : State) (i : Nat) : Stripe := tabGet (fun _ => {}) s.stripes i
def State.modStripe (s : State) (i : Nat) (f : Stripe → Stripe) : State := { s with stripes := tabMod (fun _ => {}) s.stripes i f }
def State.sliceOf (s : State) (i : Nat) : Slice := tabGet (fun _ => {}) s.slices i
def State.modSlice (s : State) (i : Nat) (f : Slice → Slice) : State := { s with slices := tabMod (fun _ => {}) s.slices i f }

/-- Add work that falls due at the end of the command. -/
def State.later (s : State) (t : Todo) : State := { s with todo := s.todo ++ [t] }

/-- Draw a free value: the spec leaves this value open. -/
def State.draw (s : State) : Word32 × State := (Config.freeWord s.freeCount, { s with freeCount := s.freeCount + 1 })

/-- Free bytes: the spec does not say what they hold. -/
def State.drawBytes (s : State) : Nat → List Byte × State
  | 0 => ([], s)
  | k + 1 => let (w, s) := s.draw; let (l, s) := s.drawBytes k; (w.setWidth 8 :: l, s)

/-! ### Names of units (R19, R34, Table 2.9) -/

def lunChan (g : Nat) : Nat := g / 32
def lunTarget (g : Nat) : Nat := g / 4 % 8
def lunInTarget (g : Nat) : Nat := g % 4
def lunQuad (g : Nat) : Nat := g / 128
def chanQuad (n : Nat) : Nat := n / 4
/-- The LUNs of a channel, of a target of it, and of a quad. -/
def chanLuns (n : Nat) : List Nat := (List.range 32).map (fun l => 32 * n + l)
def targetLuns (n t : Nat) : List Nat := (List.range 4).map (fun l => 32 * n + 4 * t + l)
def quadChans (q : Nat) : List Nat := [4 * q, 4 * q + 1, 4 * q + 2, 4 * q + 3]
/-- Power handshake indices (Table 2.9). -/
def pdTop : Nat := 0
def pdPar : Nat := 1
def pdQ (q : Nat) : Nat := 2 + q
def pdP (q : Nat) : Nat := 10 + q
def pdB (b : Nat) : Nat := 18 + b
def pdSpc : Nat := 27

/-- Fold a function over a list of indices. -/
def State.each (s : State) (l : List Nat) (f : State → Nat → State) : State := l.foldl f s

/-! ### Time and power -/

/-- Tether time in TCLK ticks of 640 ns, and in whole µs. -/
def State.now (s : State) : Nat := s.tet.time.toNat
def State.us (s : State) : Nat := s.now * 16 / 25
def State.time32 (s : State) : Word32 := s.tet.time.setWidth 32

/-- Domain d is powered: request and acknowledge both high (`TET_DOM_STAT.ON`). -/
def State.powered (s : State) (d : Nat) : Bool := s.pins.pwrReq.getLsbD d && s.pins.pwrAck.getLsbD d

/-- The stores of domain d are filled and its outputs unclamped (R460, R462). -/
def State.usable (s : State) (d : Nat) : Bool := s.powered d && s.tet.usable.getLsbD d

/-- Raise or lower a power request; a lowered request leaves the domain unusable (R79). -/
def State.setReq (s : State) (d : Nat) (b : Bool) : State :=
  { s with pins := { s.pins with pwrReq := putBit s.pins.pwrReq d b },
           tet := { s.tet with usable := if b then s.tet.usable else putBit s.tet.usable d false,
                               late := putBit s.tet.late d false } }

/-- Ask for a domain's power unless it is asked for or its acknowledge is still high (R79); after a fatal fault requests stay as they
are (Table 2.13). -/
def State.powerUp (s : State) (d : Nat) : State :=
  if s.halted || s.pins.pwrReq.getLsbD d || s.pins.pwrAck.getLsbD d then s else s.setReq d true

def blockStarting : Nat := 0
def blockActive : Nat := 1
def blockPreparing : Nat := 2
def blockDeep : Nat := 3
def blockWaking : Nat := 4
def State.block (s : State) : Nat := s.get TET_PWR_STAT.BLOCK
/-- Quad state of `TET_PWR_STAT.QSTATE`: 0 ACTIVE, 1 QUAD_IDLE, 2 QUAD_OFF, 3 in transition. -/
def State.qstate (s : State) (q : Nat) : Nat := fld (s.reg TET_PWR_STAT.adr) (2 * q + 1) (2 * q)
def State.setQstate (s : State) (q v : Nat) : State :=
  s.setReg TET_PWR_STAT.adr (putFld (s.reg TET_PWR_STAT.adr) (2 * q + 1) (2 * q) v)
def State.isReady (s : State) : Bool := s.on TET_STARTUP.READY
/-- Start-up has not ended; one that ended without READY leaves BLOCK as it is (R476, log entry 92). -/
def State.inStartup (s : State) : Bool := s.block == blockStarting && !s.on TET_STARTUP.FAILED

/-! ### Wake slots (R426) -/

/-- Wake slot j fires: CAUSE is set only while its EN bit is 1, and counts for a DEEP entry under way (R471). DESIGN CHOICE (log entry 93):
a slot that fires while its CAUSE bit is 1 from before asks for no wake: the bit does not become 1. -/
def State.fireSlot (s : State) (j : Nat) : State :=
  if (s.reg TET_WAKE_EN.adr).getLsbD j then
    let was := (s.reg TET_WAKE_CAUSE.adr).getLsbD j
    let s := s.setBit TET_WAKE_CAUSE.adr j true
    if !was && (s.block = blockPreparing || s.block = blockDeep) then
      { s with tet := { s.tet with prepCause := putBit s.tet.prepCause j true } }
    else s
  else s

/-- Every slot 4 to 31 that watches source src fires. -/
def State.fireSource (s : State) (src : Nat) : State :=
  s.each ((List.range 28).map (fun j => j + 4)) fun s j =>
    if s.get (TET_WAKE_SEL.SOURCE j) = src then s.fireSlot j else s

/-! ### Events -/

/-- Power domain of a source (Table 12.2). -/
def sourceDomain (src : Nat) : Nat :=
  if src < 192 then pdQ (src / 24) else if src < 224 then pdQ ((src - 192) / 4)
  else if src < 260 then pdB ((src - 224) / 4) else pdTop

/-- Sources whose work waits for queue space (Table 12.5, R419). -/
def sourceHeld (src : Nat) : Bool := src == 266 || src == 270 || src == 272 || src == 273 || src == 277

/-- Sources whose class is fixed as fast (Table 12.5, R421). -/
def sourceFixed (src : Nat) : Bool := src == 282 || src == 287 || src == 288

/-- Bit of source src in one of the ten-word register groups at base (R421). -/
def State.srcBit (s : State) (base src : Nat) : Bool := (s.reg (base + 4 * (src / 32))).getLsbD (src % 32)

/-- Word k of a record as the ring holds it; phase 1 and no count for a snapshot (Table 12.1, R424). -/
def EvRec.word (r : EvRec) (phase : Bool) (coal : Nat) (k : Nat) : Word32 :=
  match k with
  | 0 => BitVec.ofNat 32 (phase.toNat * 2 ^ 31 + r.fast.toNat * 2 ^ 30 + r.sev % 4 * 2 ^ 28 + coal % 256 * 2 ^ 16 + r.src % 512)
  | 1 => r.time
  | 2 => r.info.setWidth 32
  | _ => (r.info >>> 32).setWidth 32

/-- A fast event is copied into the next snapshot slot (R424). -/
def State.snapshot (s : State) (r : EvRec) : State :=
  let j := s.get FEV_SNAP_CNT.COUNT % 4
  let s := s.each [0, 1, 2, 3] fun s k => s.setReg (FEV_SNAP.adr (4 * j + k)) (r.word true 0 k)
  s.put FEV_SNAP_CNT.COUNT (s.get FEV_SNAP_CNT.COUNT + 1)

/-- The fast events of a command take their slots in ascending source ID (R424). DESIGN CHOICE (log 7): one command is one cycle. -/
def State.snapAll (s : State) : State := s.snaps.foldl State.snapshot { s with snaps := [] }

/-- EV_READABLE, latched per LUN (R420). -/
def srcReadable : Nat := 271

/-- Merge an occurrence into a latched record when it has one: EV_READABLE of the same LUN is replaced (R420), any other
unheld source coalesces (R419). None when no latch of the source is full. -/
def mergeLate (r : EvRec) : List EvRec → Option (List EvRec × Bool)
  | [] => none
  | e :: l =>
    if r.src = srcReadable && e.src = srcReadable && e.info &&& 0x3FF = r.info &&& 0x3FF then
      some ({ e with time := r.time, info := r.info } :: l, false)
    else if e.src = r.src && r.src != srcReadable && !sourceHeld r.src then
      some ({ e with coal := min (e.coal + 1) 255 } :: l, true)
    else match mergeLate r l with
      | some (l', b) => some (e :: l', b)
      | none => none

/-- The base of ring r's registers: normal 0, fast 1 (Table 12.7). -/
def ringBase (r : Nat) : Nat := 0x2000 + 0x1000 * r
def evF (r : Nat) (f : Fld) : Fld := { f with adr := f.adr + 0x1000 * r }

/-- A record enters its ring's queue, or its latch, or waits at its held source (R419). -/
def State.enqueue (s : State) (ring : Nat) (r : EvRec) : State :=
  let q := s.ringOf ring
  if q.queue.length < 64 then s.modRing ring fun q => { q with queue := q.queue ++ [r] }
  else if sourceHeld r.src then s.modRing ring fun q => { q with late := q.late ++ [r] }
  else match mergeLate r q.late with
    | some (l, counted) =>
      let s := s.modRing ring fun q => { q with late := l }
      if counted then s.bump (evF ring EV_CNT.COALESCED) 1 else s
    | none => s.modRing ring fun q => { q with late := q.late ++ [r] }

/-- A Push write or an event counts as work in every open window of R427. -/
def State.sawWork (s : State) : State := { s with tet := { s.tet with windows := s.tet.windows.map (fun _ => true) } }

/-- Raise an event with its severity and information (R409, R421, R422, R424, R426, R427). -/
def State.raise (s : State) (src sev : Nat) (info : Nat) (holder : Option Holder := none) : State :=
  if !s.powered (sourceDomain src) then s
  else
    let s := s.fireSource src
    let s := if src != 279 then s.sawWork else s
    if s.srcBit (EV_MASK.adr 0) src then s.setBit (EV_PEND.adr (src / 32)) (src % 32) true
    else
      let fast := sourceFixed src || s.srcBit EV_CLASS0.adr src
      let r : EvRec := { src := src, fast := fast, sev := sev, time := s.time32, info := BitVec.ofNat 64 info, holder := holder }
      let s := if fast then { s with snaps := insBy EvRec.src r s.snaps } else s
      s.enqueue fast.toNat r

/-- Records that waited enter the queue as room appears; a held one releases its work. -/
def drainLate : List EvRec → List EvRec → List EvRec × List EvRec × List Holder
  | q, [] => (q, [], [])
  | q, r :: l =>
    if q.length < 64 then
      let (q', l', h) := drainLate (q ++ [r]) l
      (q', l', match r.holder with | some x => x :: h | none => h)
    else (q, r :: l, [])

def State.refillRing (s : State) (ring : Nat) : State :=
  let q := s.ringOf ring
  let (a, b, h) := drainLate q.queue q.late
  let s := s.modRing ring fun q => { q with queue := a, late := b }
  h.foldl (fun s x => s.later (.released x)) s

/-- Whether work waits for a held record (R419). -/
def State.holds (s : State) (h : Holder) : Bool :=
  (s.ringOf 0).late.any (fun r => r.holder == some h) || (s.ringOf 1).late.any (fun r => r.holder == some h)

/-- What follows a record of holder h: at once, or where the record waits (R419). -/
def State.andThen (s : State) (h : Holder) (t : Todo) (f : State → State) : State :=
  if s.holds h then { s with held := s.held ++ [(h, t)] } else f s
/-- The same for a consequence. -/
def State.laterFor (s : State) (h : Holder) (t : Todo) : State := s.andThen h t (·.later t)

/-- The last record that work waited for has room: the work goes on. -/
def State.unholdWork (s : State) (h : Holder) : State :=
  if s.holds h then s
  else { s with held := s.held.filter (fun e => e.1 != h), todo := s.todo ++ (s.held.filter (fun e => e.1 == h)).map (·.2) }

/-! Event numbers with their severities (Tables 12.3 to 12.5). -/

/-- `ev.info` of a channel source (R410). -/
def chanInfo (lun tag code detail : Nat) : Nat :=
  lun % 1024 + tag % 4096 * 2 ^ 10 + code % 256 * 2 ^ 22 + detail % 2 ^ 32 * 2 ^ 32
def State.evOpError (s : State) (n lun tag code detail : Nat) : State := s.raise (6 * n) 1 (chanInfo lun tag code detail)
def State.evLunFault (s : State) (n lun tag code : Nat) : State := s.raise (6 * n + 1) 2 (chanInfo lun tag code 0)
def State.evRbStuck (s : State) (n code t : Nat) : State := s.raise (6 * n + 2) 1 (chanInfo 0x3FF 0xFFF code t)
def State.evTimeout (s : State) (n lun tag code us : Nat) : State := s.raise (6 * n + 3) 1 (chanInfo lun tag code us)
def State.evTrainDrift (s : State) (n code : Nat) : State :=
  s.raise (6 * n + 4) 0 (chanInfo 0x3FF 0xFFF code (s.reg (CH_DRIFT_STAT.adr n)).toNat)
def State.evPhyFault (s : State) (n lun tag code detail : Nat) : State :=
  s.raise (6 * n + 5) (if code = 1 then 2 else 1) (chanInfo lun tag code detail)
/-- Quad sources 192 + 4q + k. -/
def State.evQuad (s : State) (q k sev info : Nat) : State := s.raise (192 + 4 * q + k) sev info
def State.evSlice (s : State) (sl k info : Nat) : State := s.raise (224 + 2 * sl + k) 2 info
/-- EV_SPARE_EXHAUSTED and EV_SPARE_TAKEN (Table 13.11). -/
def State.evSpareExhausted (s : State) (kind unit : Nat) : State := s.raise 282 2 (kind + unit % 4096 * 16)
def State.evSpareTaken (s : State) (kind unit spare : Nat) : State :=
  s.raise 283 2 (kind + unit % 4096 * 16 + spare % 4096 * 2 ^ 16)
/-- EV_STRIPE_DEGRADED (Table 9.6). -/
def State.evStripeDegraded (s : State) (id why : Nat) (h : Option Holder) : State := s.raise 270 2 (id + why * 2 ^ 12) h
/-- EV_LATE_PROGRAM_FAIL (Table 9.6). -/
def State.evLateFail (s : State) (g eb page pass outcome spare stripe : Nat) (h : Option Holder) : State :=
  s.raise 272 2 (g + eb * 2 ^ 10 + page * 2 ^ 22 + pass * 2 ^ 34 + outcome * 2 ^ 36 + spare % 4096 * 2 ^ 40 + stripe * 2 ^ 52) h

/-! ### The safe state -/

/-- PD_Pq on, ENABLE in force, and no cause of R131 (R133 adds the long calibration). DESIGN CHOICE (log entry 93): a channel with
ENABLE = 1 in force and no declared LUN has no cause: R88's condition is left to ENABLE. -/
def State.safeCause (s : State) (n : Nat) : Bool :=
  !s.pins.resetN || !s.powered (pdP (chanQuad n)) || !bit (s.chanOf n).mode 0 || (s.chanOf n).applyBad
    || (s.reg BAL_FATAL.adr != 0) || s.tet.heldSafe

/-- A channel enters the safe state (Tables 3.24 and 3.25): the pads take their safe levels and what the op lane holds is
cut. -/
def State.enterSafe (s : State) (n : Nat) : State :=
  (s.modChan n fun c => { c with pads := {}, lane := [], tgt := none }).put (CH_MODE_STAT.SAFE n) 1

/-- The PHY takes a channel's pads back, once no long calibration is owed or runs (R133, R104). -/
def State.leaveSafe (s : State) (n : Nat) : State :=
  if s.safeCause n || !(s.quadOf (chanQuad n)).calDone || s.on (ZQ_STAT.BUSY (chanQuad n)) || !s.on (CH_MODE_STAT.SAFE n) then s
  else (s.modChan n fun c => { c with pads := { c.pads with wpN := true, ceN := 0xFF } }).put (CH_MODE_STAT.SAFE n) 0

/-- Every channel enters the safe state. -/
def State.allSafe (s : State) : State := s.each (List.range 32) State.enterSafe

/-! ### Fatal faults (R436, R437) -/

def fatalTrim : Nat := 0
def fatalEscalated : Nat := 1
def fatalStore : Nat := 2
def fatalSelftest : Nat := 3
def fatalRetention : Nat := 4
def fatalNoDecoder : Nat := 5
def fatalTestBit : Nat := 7

/-- An APPLY step that a safe-state entry cuts ends at once with its calibration and its training, untrained, with REASON as it
was (R102). -/
def State.cutApply (s : State) (q : Nat) : State :=
  if (s.quadOf q).apply = 0 then s
  else
    let s := if (s.quadOf q).apply = 4 then s.put (ZQ_STAT.BUSY q) (s.quadOf q).zqWanted.toNat else s
    let s := (s.modQuad q fun x => { x with apply := 0, applyHeld := false, applyFail := 0, relocking := false }).put (PHY_STAT.APPLY_BUSY q) 0
    s.each (quadChans q) fun s n =>
      let s := if (s.chanOf n).training != 0 && (s.ctxOf n).op.role == Role.train then
          (s.modCtx n fun _ => {}).modChan n fun c => { c with lane := [], tgt := none } else s
      ((s.modChan n fun c => { c with training := 0, trainAt := 0 }).put (CH_MODE_STAT.TRAINED n) 0).put (CH_TRAIN_STAT.BUSY n) 0

/-- A fatal cause: its bit, FAULT_N low, every channel safe, EV_FATAL, and the top halts. -/
def State.fatal (s : State) (b : Nat) : State :=
  let s := s.setBit BAL_FATAL.adr b true
  let s := { s with pins := { s.pins with faultN := false }, halted := true }
  let s := (s.each (List.range 8) State.cutApply).allSafe
  s.raise 287 3 (s.reg BAL_FATAL.adr).toNat

/-! ### Fault status blocks -/

def fltAdr : FltUnit → Nat
  | .chan n => CH_FLT_FIRST.adr n.val
  | .quad q => Q_FLT_FIRST.adr q.val
  | .slice i => BLW_FLT_FIRST.adr i.val
  | .top k => BAL_FLT_FIRST.adr k.val

def fltValid (a : Nat) : Fld := ⟨a, 31, 31⟩
def fltMulti (a : Nat) : Fld := ⟨a, 30, 30⟩
def fltRecovering (a : Nat) : Fld := ⟨a, 27, 27⟩
def State.recovering (s : State) (u : FltUnit) : Bool := s.on (fltRecovering (fltAdr u))
def State.setRecovering (s : State) (u : FltUnit) (b : Bool) : State := s.put (fltRecovering (fltAdr u)) b.toNat

/-- Capture and count a fault of a unit (R430); class 1 correctable, 2 recoverable, 3 fatal. -/
def State.capture (s : State) (u : FltUnit) (code cls ctx : Nat) (injected : Bool) : State :=
  let a := (fltAdr u)
  let s := s.bump (if cls = 1 then ⟨a + 12, 15, 0⟩ else ⟨a + 12, 31, 16⟩) 1
  if s.on (fltValid a) then s.put (fltMulti a) 1
  else
    let s := s.setReg a (BitVec.ofNat 32 (2 ^ 31 + cls * 2 ^ 28 + (s.recovering u).toNat * 2 ^ 27 + injected.toNat * 2 ^ 26 + code * 2 ^ 16))
    (s.setReg (a + 4) (BitVec.ofNat 32 ctx)).setReg (a + 8) s.time32

/-- The LUN a channel fault names, within the channel (Table 13.4, R432). -/
def faultLun (code ctx : Nat) : Option Nat :=
  if code = 1 || code = 2 || code = 4 then some (ctx % 32)
  else if code = 9 && ctx < 2 ^ 31 then some (ctx % 32) else none

/-- Fence a LUN (Table 13.6); the tags and operations on it end at the end of the command. -/
def State.fenceLun (s : State) (g : Nat) : State := (s.modLun g fun l => { l with fenced := true }).later (.lunFenced g)

/-- Fence a channel or a quad. -/
def State.fenceChan (s : State) (n : Nat) : State := (s.put (CH_FLT_CTRL.FENCED n) 1).later (.chanFenced n)
def State.fenceQuad (s : State) (q : Nat) : State := (s.put (Q_FLT_CTRL.FENCED q) 1).later (.quadFenced q)

/-- A fault during a recovery of its unit escalates as Table 13.5 gives (R433). -/
def State.escalate (s : State) (u : FltUnit) (code cls : Nat) (restarted : Bool) : State :=
  match u with
  | .chan n =>
    if cls = 2 && code != 8 && code != 9 then
      ((s.capture u 8 2 code false).fenceChan n.val).evLunFault n.val 0x3FF 0xFFF 2
    else s
  | .quad q =>
    if restarted || code = 0x13 then s
    else s.each (quadChans q.val) (fun s n => s.evLunFault n 0x3FF 0xFFF 2) |> (fun s => (s.capture u 0x13 2 code false).fenceQuad q.val)
  | .slice _ => s
  | .top k => if cls = 2 && (k.val = 0 || k.val = 2 || k.val = 3 || k.val = 4) then s.fatal fatalEscalated else s

/-- A fault of a unit. `restarted`: a Chanter fault of a routine that R151 restarts. -/
def State.fault (s : State) (u : FltUnit) (code cls ctx : Nat) (restarted : Bool := false) (injected : Bool := false) : State :=
  let rec? := s.recovering u
  let s := s.capture u code cls ctx injected
  let s := match u, faultLun code ctx with
    | .chan n, some l => s.setBit (CH_FLT_LUNS.adr n.val) l true
    | _, _ => s
  if rec? && !injected then s.escalate u code cls restarted else s

/-- Whether die operations on LUN g are shut out by a fence of it, its channel or its quad (R434). -/
def State.isFenced (s : State) (g : Nat) : Bool :=
  (s.lunOf g).fenced || s.on (CH_FLT_CTRL.FENCED (lunChan g)) || s.on (Q_FLT_CTRL.FENCED (lunQuad g))

/-- An operation is in flight on a LUN; one whose outcome is known though the LUN has stayed busy is not (R128). -/
def Lun.inFlight (l : Lun) : Bool := (l.busy && !l.stuck) || l.resetting

/-! ### Tags and the Completion Overflow Store -/

/-- The tags held, ascending. -/
def State.heldTags (s : State) : List Nat := (s.tags.filter (fun e => e.2.held)).map (·.1)

/-- Native mode of an SQ. -/
def State.native (s : State) (sq : Nat) : Bool := !s.on (SQ_CFG.MODE sq)
/-- Depth of an SQ, of a CQ, of an event ring. -/
def State.sqN (s : State) (sq : Nat) : Nat := 2 ^ s.get (SQ_CFG.LOG2N sq)
def State.cqN (s : State) (cq : Nat) : Nat := 2 ^ s.get (CQ_CFG.LOG2N cq)
def State.evN (s : State) (r : Nat) : Nat := 2 ^ s.get (evF r EV_CFG.LOG2N)

/-- Ring indices (R194, R195): position in two laps, entries held, the next index, the expected phase. -/
def ixLin (n i : Nat) : Nat := i / 65536 % 2 * n + i % 65536
def ixCount (n h t : Nat) : Nat := (ixLin n t + 2 * n - ixLin n h) % (2 * n)
def ixNext (n i : Nat) : Nat := if i % 65536 + 1 = n then (1 - i / 65536 % 2) * 65536 else i + 1
def ixAdd (n i : Nat) : Nat → Nat
  | 0 => i
  | k + 1 => ixAdd n (ixNext n i) k
/-- The index k places before i. -/
def ixSub (n i k : Nat) : Nat := let x := (ixLin n i + 2 * n - k) % (2 * n); x / n * 65536 + x % n
def ixPhase (i : Nat) : Bool := i / 65536 % 2 == 0

def State.sqHead (s : State) (q : Nat) : Nat := s.get (SQ_HEAD.INDEX q)
def State.sqTail (s : State) (q : Nat) : Nat := s.get (SQ_TAIL.INDEX q)
def State.cqHead (s : State) (c : Nat) : Nat := s.get (CQ_HEAD.INDEX c)
def State.cqTail (s : State) (c : Nat) : Nat := s.get (CQ_TAIL.INDEX c)
def State.cqEnabled (s : State) (c : Nat) : Bool := s.on (CQ_STAT.ENABLED c)
def State.cqCount (s : State) (c : Nat) : Nat := ixCount (s.cqN c) (s.cqHead c) (s.cqTail c)
def State.cqFull (s : State) (c : Nat) : Bool := s.cqEnabled c && s.cqCount c == s.cqN c

/-- A completion beat of CQ c waits to be issued, or for its response. -/
def State.cplOut (s : State) (c : Nat) : Bool :=
  let p := fun (r : Spool) => match r.cont with | .cpl x _ => x == c | _ => false
  s.ready.any p || s.flying.any p

/-- Completions that wait in the COS to be written, those of a beat to be retried included (R222, R223). -/
def State.cqWait (s : State) (c : Nat) : Nat :=
  (s.cqOf c).waiting.length + (if s.cplOut c then 0 else (s.cqOf c).issued.length)

/-- COS entries that hold a completion not yet written (`TOP_COS.USED`). -/
def State.cosUsed (s : State) : Nat := s.cos.length

/-- Statuses whose detail is the deadline code of R265. -/
def statusDeadline (st : Nat) : Bool :=
  st == 0x00 || st == 0x01 || st == 0x02 || st == 0x30 || st == 0x31 || st == 0x34

/-- A Pool operation code (Table 2.8). -/
def poolAlloc : Nat := 0
def poolShare : Nat := 1
def poolDrop : Nat := 2
def poolFree : Nat := 3

/-- A SHARE of the buffer at an address waits to be sent or answered: its tag is about to own the buffer too. -/
def State.sharePending (s : State) (addr : Nat) : Bool :=
  (s.pool.send ++ s.pool.out).any (fun r => r.op == poolShare && r.addr == addr)

/-- Bytes of a buffer of a class. -/
def classBytes (c : Nat) : Nat := 4096 * 4 ^ c

/-- A request of staging traffic (SID 36) to a buffer of a class at an address. -/
def Spool.inBuf (r : Spool) (addr cls : Nat) : Bool := r.sid == 36 && decide (addr ≤ r.addr) && decide (r.addr < addr + classBytes cls)

/-- A FREE waits for the responses of requests issued to its buffer (R401). -/
def State.bufBusy (s : State) (r : PoolReq) : Bool := r.op == poolFree && s.flying.any (·.inBuf r.addr r.cls)

/-- An owner gives up a buffer: FREE as its last owner, else DROP (R71, R405); the tag of a SHARE on its way counts as an owner. What has not
been issued to a buffer that is freed is not issued (R401). -/
def State.releaseBuf (s : State) (owner addr : Nat) : State :=
  match s.pool.bufs.find? (fun b => b.addr == addr && b.owners.contains owner) with
  | none => s
  | some b =>
    let last := b.owners.length == 1 && !s.sharePending addr
    let op := if last then poolFree else poolDrop
    let bufs := if last then s.pool.bufs.filter (fun x => x.addr != addr)
      else s.pool.bufs.map (fun x => if x.addr = addr then { x with owners := x.owners.filter (· != owner) } else x)
    { s with ready := if last then s.ready.filter (!·.inBuf addr b.cls) else s.ready,
             pool := { s.pool with bufs := bufs, send := s.pool.send ++ [{ op := op, cls := b.cls, owner := owner, addr := addr, use := b.use }] } }

/-- Release every buffer of an owner, but one with RLH lines still on their way to the table (R307). -/
def State.releaseAll (s : State) (owner : Nat) : State :=
  (s.pool.bufs.filter (fun b => b.owners.contains owner && !(b.use == .rlhEvict owner && s.rlh.pooled.any (fun p => p.tag == owner)))).foldl (fun s b => s.releaseBuf owner b.addr) s

/-- Pool traffic of a tag that is not answered: its completion waits for it (R405). -/
def State.poolBusy (s : State) (t : Nat) : Bool :=
  s.pool.bufs.any (fun b => b.owners.contains t) || s.pool.send.any (fun r => r.op != 0 && r.owner == t)
    || s.pool.out.any (fun r => r.owner == t)

def CwRes.good (r : CwRes) : Bool := match r with | .ok _ => true | _ => false

/-- Staging of tag t that its completion's insertion frees: all but what a delivered code word's write responses free; after an abort all
of it (R24). -/
def State.stageOver (s : State) (t : Nat) (g : Stage) : Bool :=
  g.tag == some t && ((s.tagOf t).ended || !(g.done && ((s.tagOf t).cws.find? (fun c => 2 ^ c.plane == g.loc.planes && c.cw == g.cw)).all (·.res.good)))

/-- Insertion into COS entry t (R220, R265): the first is final. Staging of code words that were not delivered is freed
(R24), and waiters look again. -/
def State.cosPut (s : State) (t : Nat) (c : Cpl) : State :=
  let tg := s.tagOf t
  if !tg.held || tg.inserted then s
  else
    let late := statusDeadline c.status && tg.past
    let detail := if statusDeadline c.status then (if tg.past then 0x22 else 0) else c.detail
    let s := if late then s.bump BRD_CNT_MISSED.COUNT 1 else s
    let s := { s with cos := tabIns t { c with sq := tg.sq, detail := detail, hostTag := c.hostTag } (tabDrop t s.cos) }
    let s := s.modTag t fun x => { x with inserted := true }
    let s := s.modCq tg.cq fun q => { q with waiting := q.waiting ++ [t] }
    let s := s.put TOP_COS.PEAK (max (s.get TOP_COS.PEAK) s.cosUsed)
    let s := if s.cosUsed = 3584 && !s.ballast.cosHighTold then
        { s with ballast := { s.ballast with cosHighTold := true } }.raise 265 0 s.cosUsed else s
    (s.each (List.range 32) fun s n =>
      if (s.chanOf n).staging.any (s.stageOver t) then
        s.modChan n fun ch => { ch with staging := ch.staging.filter (fun g => !s.stageOver t g) } else s).later (.inserted t)

/-- A tag completes, unless a function reset runs (R383): its Pool buffers are released first, and a held record of it goes first (R405, R419).
DESIGN CHOICE (log 85): R396 keeps a tag's Pool buffers until every write response of its descriptor has returned, R405 and Table 11.3 have them
released and answered before the insertion, which waits for no write response: the model follows R405. -/
def State.cosInsert (s : State) (t : Nat) (c : Cpl) : State :=
  if s.freset.busy || (s.tagOf t).inserted || !(s.tagOf t).held || s.parked.any (fun p => p.1 == t) then s
  else
    let s := s.releaseAll t
    if s.poolBusy t || s.holds (.tag t) then { s with parked := s.parked ++ [(t, c)] } else s.cosPut t c

/-- Completions whose buffers and records are settled enter the COS. -/
def State.retryParked (s : State) : State :=
  let go := s.parked.filter (fun p => !s.poolBusy p.1 && !s.holds (.tag p.1))
  let s := { s with parked := s.parked.filter (fun p => s.poolBusy p.1 || s.holds (.tag p.1)) }
  go.foldl (fun s p => s.cosPut p.1 p.2) s

/-- A tag ends with a status; its host tag is the descriptor's. -/
def State.complete (s : State) (t status detail info0 info1 : Nat) : State :=
  s.cosInsert t { status := status, detail := detail, info0 := info0, info1 := info1, hostTag := fld (s.tagOf t).desc 47 32 }

/-- A Spool request made for a tag's descriptor. -/
def Cont.tagData (t : Nat) (c : Cont) : Bool := match c with
  | .user x _ _ => x == t
  | .metaOut x _ => x == t
  | .hostUser x _ _ _ _ => x == t
  | .hostMeta x _ _ _ => x == t
  | .image x => x == t
  | _ => false

/-- A tag's requests whose responses have not returned. -/
def State.dmaOut (s : State) (t : Nat) : Bool := s.flying.any (fun r => r.cont.tagData t)

/-- Free a tag whose completion is written and whose requests have all been answered (R218, R396). -/
def State.tryFree (s : State) (t : Nat) : State :=
  let tg := s.tagOf t
  if tg.inserted && tg.phase = 99 && !s.dmaOut t && !s.holds (.tag t) then
    let s := s.each (List.range 32) fun s n =>
      if (s.chanOf n).staging.any (fun g => g.tag == some t) then
        s.modChan n fun ch => { ch with staging := ch.staging.filter (fun g => g.tag != some t) } else s
    { s with tags := tabDrop t s.tags }
  else s

end Sys2Proof.Machine
end

