-- ==== Sys2Proof/Machine/Geo.lean ====
section
/-! DEFINITION. What software tells the controller (spec/05_geometry_and_tables.md): the values in force, die kinds, the
LUN map, retry sets, addresses, temperatures, tenant windows and the check of VALIDATE. -/

namespace Sys2Proof.Machine

/-! ### Values in force -/

/-- Registers whose in-force copy a passing VALIDATE makes (R165). -/
def geoStored (a : Nat) : Bool :=
  (0xA000 ≤ a && a < 0xA200) || (0xA208 ≤ a && a < 0xA220) || (0xA800 ≤ a && a < 0xB000) || (0xC0000 ≤ a && a < 0xC4000)

/-- A field of a table of geometry words. -/
def geoGet (t : Tab Word32) (f : Fld) : Nat := fld (tabGet regReset t f.adr) f.hi f.lo

/-- A field in force. -/
def State.geo (s : State) (f : Fld) : Nat := geoGet s.force f

/-- The stored geometry words. -/
def State.geoNow (s : State) : Tab Word32 := s.regs.filter (fun e => geoStored e.1)

/-! ### The LUN map (R178) -/

/-- The 16-bit entry of global LUN g in a table. -/
def mapEntry (t : Tab Word32) (g : Nat) : Nat :=
  fld (tabGet regReset t (GEO_LUNMAP.adr (g / 2))) (16 * (g % 2) + 15) (16 * (g % 2))
def mapDecl (e : Nat) : Bool := e % 2 == 1
def mapSpare (e : Nat) : Bool := e / 2 % 2 == 1
def mapKind (e : Nat) : Nat := e / 4 % 4
def mapGroup (e : Nat) : Nat := e / 16 % 16
def mapExcl (e : Nat) : Nat := e / 256

def State.lunEntry (s : State) (g : Nat) : Nat := mapEntry s.force g
def State.declared (s : State) (g : Nat) : Bool := s.on GEO_STAT.VALID && mapDecl (s.lunEntry g)
def State.isSpare (s : State) (g : Nat) : Bool := mapSpare (s.lunEntry g)
def State.kind (s : State) (g : Nat) : Nat := mapKind (s.lunEntry g)
def State.group (s : State) (g : Nat) : Nat := mapGroup (s.lunEntry g)
def allLuns : List Nat := List.range 1024

/-! ### Die kinds -/

def dkNpl (t : Tab Word32) (k : Nat) : Nat := geoGet t (GEO_DK_GEOM.NPL_M1 k) + 1
def dkNcw (t : Tab Word32) (k : Nat) : Nat := geoGet t (GEO_DK_GEOM.NCW_M1 k) + 1
/-- CW_BYTES (R172). -/
def dkCw (t : Tab Word32) (k : Nat) : Nat := 4512 + 32 * geoGet t (GEO_DK_GEOM.PSZ k)
def dkEbs (t : Tab Word32) (k : Nat) : Nat := geoGet t (GEO_DK_GEOM.EBS_M1 k) + 1
def dkPages (t : Tab Word32) (k : Nat) : Nat := geoGet t (GEO_DK_GEOM.PAGES_M1 k) + 1
def dkPpwl (t : Tab Word32) (k : Nat) : Nat := geoGet t (GEO_DK_WL.PPWL_M1 k) + 1
def dkWlg (t : Tab Word32) (k : Nat) : Nat := geoGet t (GEO_DK_WL.WLG_M1 k) + 1
def dkRsCount (t : Tab Word32) (k : Nat) : Nat := geoGet t (GEO_DK_RETRY.RS_COUNT_M1 k) + 1
def dkPoolN (t : Tab Word32) (k : Nat) : Nat := geoGet t (GEO_DK_MISC.TPOOL_N k)
/-- Tally pool entry TPj (Table 5.5). -/
def dkTp (t : Tab Word32) (k j : Nat) : Nat :=
  if j % 2 = 0 then geoGet t (GEO_DK_TPOOL.TPEVEN k (j / 2)) else geoGet t (GEO_DK_TPOOL.TPODD k (j / 2))

def State.npl (s : State) (g : Nat) : Nat := dkNpl s.force (s.kind g)
def State.ncw (s : State) (g : Nat) : Nat := dkNcw s.force (s.kind g)
def State.cwBytes (s : State) (g : Nat) : Nat := dkCw s.force (s.kind g)
def State.ebs (s : State) (g : Nat) : Nat := dkEbs s.force (s.kind g)
def State.pages (s : State) (g : Nat) : Nat := dkPages s.force (s.kind g)
def State.ppwl (s : State) (g : Nat) : Nat := dkPpwl s.force (s.kind g)
/-- Word lines of an erase block. -/
def State.nwl (s : State) (g : Nat) : Nat := s.pages g / s.ppwl g
def State.twoPass (s : State) (g : Nat) : Bool := s.geo (GEO_DK_CTRL.SCHEME (s.kind g)) == 1
/-- Parity blocks m of the LUN's code words (spec/08, "The LDPC code"). -/
def State.ldpcM (s : State) (g : Nat) : Nat := blocksOf' (s.cwBytes g)
where blocksOf' (b : Nat) : Nat := (b - 4128) / 16

/-- Word w of retry set x of kind k in a table (R176). -/
def setWord (t : Tab Word32) (k x w : Nat) : Word32 := tabGet regReset t (RETRY_SET.adr k x w)
/-- Offset i of a retry set as the byte held. -/
def setOff (t : Tab Word32) (k x i : Nat) : Nat := fld (setWord t k x (i / 4)) (8 * (i % 4) + 7) (8 * (i % 4))

/-- A signed byte field sign-extended to 32 bits (R170). -/
def sext8 (v : Nat) : Nat := if v < 128 then v else v + 0xFFFFFF00

/-- LDK field f of kind k (R170); fields not listed return 0. -/
def ldkField (t : Tab Word32) (k f : Nat) : Nat :=
  match f with
  | 0x01 => geoGet t (GEO_DK_CTRL.IFMODE k)
  | 0x02 => geoGet t (GEO_DK_CTRL.SCHEME k)
  | 0x03 => geoGet t (GEO_DK_CTRL.SUSP k)
  | 0x04 => geoGet t (GEO_DK_CTRL.NOP k)
  | 0x05 => dkNpl t k
  | 0x06 => dkNcw t k
  | 0x07 => dkCw t k
  | 0x08 => dkEbs t k
  | 0x09 => dkPages t k
  | 0x0A => geoGet t (GEO_DK_ADDR.PAGE_BYTES k)
  | 0x0B => geoGet t (GEO_DK_ADDR.ROWCYC k)
  | 0x0C => dkPpwl t k
  | 0x0D => dkWlg t k
  | 0x10 => geoGet t (GEO_DK_RETRY.RS_FADDR k)
  | 0x11 => geoGet t (GEO_DK_RETRY.RS_NOFF k)
  | 0x12 => dkRsCount t k
  | 0x13 => geoGet t (GEO_DK_RETRY.LADDER_MAX k)
  | 0x18 => geoGet t (GEO_DK_TREAD.T_RFIRST k)
  | 0x19 => geoGet t (GEO_DK_TREAD.T_RLIM k)
  | 0x1A => geoGet t (GEO_DK_TPROG.T_PFIRST k)
  | 0x1B => geoGet t (GEO_DK_TPROG.T_PLIM k)
  | 0x1C => geoGet t (GEO_DK_TERASE.T_EFIRST k)
  | 0x1D => geoGet t (GEO_DK_TERASE.T_ELIM k)
  | 0x1E => geoGet t (GEO_DK_TPOLL.T_POLL k)
  | 0x1F => geoGet t (GEO_DK_TPOLL.T_RST k)
  | 0x20 => geoGet t (GEO_DK_SUSP.SUSP_PROG k)
  | 0x21 => geoGet t (GEO_DK_SUSP.SUSP_ERASE k)
  | 0x22 => geoGet t (GEO_DK_SUSP.RESUME_MIN k)
  | 0x23 => geoGet t (GEO_DK_SUSPCMD.T_SUSP k)
  | 0x24 => geoGet t (GEO_DK_SUSPCMD.SUSP_CMD k)
  | 0x25 => geoGet t (GEO_DK_SUSPCMD.RESUME_CMD k)
  | 0x26 => geoGet t (GEO_DK_MISC.SLC_PFX k)
  | 0x28 => geoGet t (GEO_DK_ECHK.ERASED_MAX k)
  | 0x29 => geoGet t (GEO_DK_ECHK.PROG_MIN k)
  | 0x2A => geoGet t (GEO_DK_MISC.SAMPLE_WLS k)
  | _ => 0

/-- LDX: offsets 4g to 4g + 3 of a set, those at and beyond the set's count as 0 (R141, R176). -/
def ldxWord (t : Tab Word32) (k x g : Nat) : Nat :=
  ((List.range 4).map fun i =>
    if 4 * g + i < geoGet t (GEO_DK_RETRY.RS_NOFF k) then setOff t k x (4 * g + i) * 256 ^ i else 0).sum

/-- Row address (R173). -/
def State.rowAddr (s : State) (g e p q : Nat) : Nat :=
  let k := s.kind g
  let a := lunInTarget g * 2 ^ s.geo (GEO_DK_ADDR.EB_BITS k) ||| e
  let b := a * 2 ^ s.geo (GEO_DK_ADDR.PLANE_BITS k) ||| p
  b * 2 ^ s.geo (GEO_DK_ADDR.PAGE_BITS k) ||| q

/-- Word-line group (R175). -/
def State.wlGroup (s : State) (g q : Nat) : Nat := q / s.ppwl g * dkWlg s.force (s.kind g) / s.nwl g

/-- RLH table index (R181). -/
def State.rlhIndex (s : State) (g e q : Nat) : Nat :=
  (g * (s.geo GEO_RLH_CFG.EBS_M1 + 1) + e) * (s.geo GEO_RLH_CFG.WLG_M1 + 1) + s.wlGroup g q

/-- Tally pool of a LUN as (pool index, erase block), without blocks TEXCL removes (R171). -/
def poolOf (t : Tab Word32) (e : Nat) : List (Nat × Nat) :=
  ((List.range (dkPoolN t (mapKind e))).filter (fun j => !(mapExcl e).testBit j)).map (fun j => (j, dkTp t (mapKind e) j))
def State.tallyPool (s : State) (g : Nat) : List (Nat × Nat) := poolOf s.force (s.lunEntry g)
def State.inPool (s : State) (g e : Nat) : Bool := (s.tallyPool g).any (fun x => x.2 == e)

/-! ### Temperatures (R177, R182) -/

/-- Temperature band of a LUN: 0 cold, 1 normal, 2 hot. -/
def State.band (s : State) (g : Nat) : Nat :=
  let t := s.group g
  if !s.on (GEO_TEMP.VALID t) then 1
  else if sbyte (s.get (GEO_TEMP.TEMP t)) < sbyte (s.geo (GEO_DK_TEMP.T_COLD (s.kind g))) then 0
  else if sbyte (s.get (GEO_TEMP.TEMP t)) > sbyte (s.geo (GEO_DK_TEMP.T_HOT (s.kind g))) then 2 else 1

/-- The band's default set. -/
def State.defaultSet (s : State) (g : Nat) : Nat :=
  match s.band g with
  | 0 => s.geo (GEO_DK_DEFSET.SET_COLD (s.kind g))
  | 1 => s.geo (GEO_DK_DEFSET.SET_NORM (s.kind g))
  | _ => s.geo (GEO_DK_DEFSET.SET_HOT (s.kind g))

/-- Whether group t is held. -/
def State.holdNow (s : State) (t : Nat) : Bool :=
  s.on (GEO_TEMP.VALID t) && allLuns.any fun g =>
    s.declared g && s.group g == t &&
      decide (sbyte (s.get (GEO_TEMP.TEMP t)) > sbyte (s.geo (GEO_DK_TEMP.T_PROG_MAX (s.kind g))))

/-- HOLD follows, with EV_THERMAL at each change. -/
def State.updateHold (s : State) (t : Nat) : State :=
  let h := s.holdNow t
  if h == s.on (GEO_TEMP.HOLD t) then s
  else (s.put (GEO_TEMP.HOLD t) h.toNat).raise 275 0 (t + h.toNat * 16 + s.get (GEO_TEMP.TEMP t) * 256)

/-! ### Tenant windows (R183 to R185) -/

def winEn (t : Nat) : Fld := ⟨0x6000 + 0x80 * t, 31, 31⟩
def winOwner (t : Nat) : Fld := ⟨0x6000 + 0x80 * t, 30, 30⟩

/-- Range r of tenant t gives permission p (0 R, 1 W) on (g, e). -/
def State.rangeGives (s : State) (t r : Nat) (w : Bool) (g e : Nat) : Bool :=
  s.on (GEO_WIN_A.EN t r) && s.on (if w then GEO_WIN_A.W t r else GEO_WIN_A.R t r)
    && decide (s.get (GEO_WIN_A.LUN_FIRST t r) ≤ g) && decide (g ≤ s.get (GEO_WIN_A.LUN_LAST t r))
    && decide (s.get (GEO_WIN_B.EB_FIRST t r) ≤ e) && decide (e ≤ s.get (GEO_WIN_B.EB_LAST t r))

/-- (g, e) with permission lies in tenant t's window. -/
def State.inWindow (s : State) (t : Nat) (w : Bool) (g e : Nat) : Bool :=
  s.on (winEn t) && (s.on (winOwner t) || (List.range 14).any (fun r => s.rangeGives t r w g e))

/-- BADRANGE follows the ranges (R183). -/
def State.badRanges (s : State) (t : Nat) : State :=
  let v := ((List.range 14).map fun r =>
    if s.on (GEO_WIN_A.EN t r) && (decide (s.get (GEO_WIN_A.LUN_FIRST t r) > s.get (GEO_WIN_A.LUN_LAST t r))
      || decide (s.get (GEO_WIN_B.EB_FIRST t r) > s.get (GEO_WIN_B.EB_LAST t r))) then 2 ^ r else 0).sum
  s.put ⟨0x6000 + 0x80 * t, 13, 0⟩ v

/-! ### VALIDATE (R166, Table 5.4) -/

/-- The in-force mode word of a channel: ENABLE, CE_EN, IFMODE. -/
def modeEnable (m : Word32) : Bool := bit m 0
def modeCe (m : Word32) (t : Nat) : Bool := bit m (8 + t)
def modeIf (m : Word32) : Nat := fld m 31 30

/-- A reserved rate code (R97). -/
def rateReserved (r : Nat) : Bool := (5 ≤ r && r ≤ 7) || 12 ≤ r

/-- Conditions of one code over items: the first condition that some item fails gives its lowest item. -/
def firstBad (items : List Nat) : List (Nat → Bool) → Option Nat
  | [] => none
  | c :: l => match items.find? c with
    | some i => some i
    | none => firstBad items l

/-- The highest declared LUN. -/
def gMax (t : Tab Word32) : Nat := (allLuns.filter (fun g => mapDecl (mapEntry t g))).getLastD 0

def twoEqual : List Nat → Bool
  | [] => false
  | x :: l => l.contains x || twoEqual l

/-- Retry set conditions of code 0x06 for one kind; the answer is s. -/
def setBadOffset (t : Tab Word32) (k x : Nat) : Bool :=
  (List.range 16).any fun i => (i == 15 || decide (geoGet t (GEO_DK_RETRY.RS_NOFF k) ≤ i)) && setOff t k x i != 0

/-- The members an entry uses: index, SUBST, LUN, EB. Data members 0 to NDATA - 1, P = 32, Q = 33 (R186). -/
def memberIds (st : Stripe) : List Nat := List.range st.ndata ++ (if st.npar ≥ 1 then [32] else []) ++ (if st.npar = 2 then [33] else [])
def memberAt (st : Stripe) (m : Nat) : Bool × Nat × Nat := st.members.getD m (false, 0, 0)
def memberLun (st : Stripe) (m : Nat) : Nat := (memberAt st m).2.1
def memberEb (st : Stripe) (m : Nat) : Nat := (memberAt st m).2.2

/-- The checks of Table 5.4 over the captured table t, as (code, failing item). DESIGN CHOICE (log entry 79): what counts as one
condition of a code where the table joins several: the three default sets of 0x06(d) are three conditions, each tried over every
kind; the three first-poll comparisons of 0x07 are three; an undeclared member, a spare one and a changed kind of 0x12 are one
condition of a stripe. The table does not say, and it decides INDEX alone. -/
def State.geoChecks (s : State) (t : Tab Word32) : List (Nat × Option Nat) :=
  let kinds := (List.range 4).filter (fun k => geoGet t (GEO_DK_CTRL.VALID k) = 1)
  let luns := allLuns.filter (fun g => mapDecl (mapEntry t g))
  let kd := fun g => mapKind (mapEntry t g)
  let pair := fun (p : Nat → Option Nat) => kinds.findSome? fun k => (p k).map (fun x => k * 256 + x)
  [ (0x02, firstBad kinds [fun k => geoGet t (GEO_DK_CTRL.IFMODE k) = 3 || rateReserved (geoGet t (GEO_DK_CTRL.RATE k))
      || decide (geoGet t (GEO_DK_CTRL.SCHEME k) ≥ 2) || geoGet t (GEO_DK_ADDR.LUN_BITS k) = 3
      || decide (geoGet t (GEO_DK_ADDR.PAGE_BITS k) > 16) || decide (geoGet t (GEO_DK_ADDR.PLANE_BITS k) > 3)
      || decide (geoGet t (GEO_DK_ADDR.EB_BITS k) > 12)]),
    (0x03, firstBad kinds [fun k => decide (dkNcw t k * dkCw t k > geoGet t (GEO_DK_ADDR.PAGE_BYTES k)),
      fun k => decide (geoGet t (GEO_DK_ADDR.PAGE_BYTES k) > 18432)]),
    (0x04, firstBad kinds [fun k => decide (2 ^ geoGet t (GEO_DK_ADDR.PAGE_BITS k) < dkPages t k),
      fun k => decide (2 ^ geoGet t (GEO_DK_ADDR.PLANE_BITS k) < dkNpl t k),
      fun k => decide (2 ^ geoGet t (GEO_DK_ADDR.EB_BITS k) < dkEbs t k),
      fun k => decide (geoGet t (GEO_DK_ADDR.PAGE_BITS k) + geoGet t (GEO_DK_ADDR.PLANE_BITS k)
        + geoGet t (GEO_DK_ADDR.EB_BITS k) + geoGet t (GEO_DK_ADDR.LUN_BITS k) > 8 * (3 + geoGet t (GEO_DK_ADDR.ROWCYC k)))]),
    (0x05, firstBad kinds [fun k => dkPages t k % dkPpwl t k != 0, fun k => decide (dkWlg t k > dkPages t k / dkPpwl t k)]),
    (0x06, (pair fun k => if (List.range 4).any (fun w => setWord t k 0 w != 0) then some 0 else none)
      <|> (pair fun k => (List.range (dkRsCount t k)).find? (setBadOffset t k))
      <|> (pair fun k => if geoGet t (GEO_DK_RETRY.LADDER_MAX k) ≥ dkRsCount t k then some (geoGet t (GEO_DK_RETRY.LADDER_MAX k)) else none)
      <|> (pair fun k => if geoGet t (GEO_DK_DEFSET.SET_COLD k) ≥ dkRsCount t k then some (geoGet t (GEO_DK_DEFSET.SET_COLD k)) else none)
      <|> (pair fun k => if geoGet t (GEO_DK_DEFSET.SET_NORM k) ≥ dkRsCount t k then some (geoGet t (GEO_DK_DEFSET.SET_NORM k)) else none)
      <|> (pair fun k => if geoGet t (GEO_DK_DEFSET.SET_HOT k) ≥ dkRsCount t k then some (geoGet t (GEO_DK_DEFSET.SET_HOT k)) else none)),
    (0x07, firstBad kinds [fun k => geoGet t (GEO_DK_TPOLL.T_POLL k) = 0,
      fun k => geoGet t (GEO_DK_TPOLL.T_RST k) = 0 || decide (geoGet t (GEO_DK_TPOLL.T_RST k) > 2000),
      fun k => decide (geoGet t (GEO_DK_TREAD.T_RFIRST k) > geoGet t (GEO_DK_TREAD.T_RLIM k)),
      fun k => decide (geoGet t (GEO_DK_TPROG.T_PFIRST k) > geoGet t (GEO_DK_TPROG.T_PLIM k)),
      fun k => decide (geoGet t (GEO_DK_TERASE.T_EFIRST k) > geoGet t (GEO_DK_TERASE.T_ELIM k)),
      fun k => geoGet t (GEO_DK_CTRL.SUSP k) = 1 &&
        (geoGet t (GEO_DK_SUSPCMD.T_SUSP k) = 0 || geoGet t (GEO_DK_SUSP.RESUME_MIN k) = 0)]),
    (0x08, firstBad kinds [fun k => decide (sbyte (geoGet t (GEO_DK_TEMP.T_COLD k)) ≥ sbyte (geoGet t (GEO_DK_TEMP.T_HOT k)))]),
    (0x09, firstBad kinds [fun k => decide (dkPoolN t k < 3) || decide (dkPoolN t k > 8),
      fun k => (List.range (dkPoolN t k)).any (fun j => decide (dkTp t k j ≥ dkEbs t k)),
      fun k => twoEqual ((List.range (dkPoolN t k)).map (dkTp t k)),
      fun k => geoGet t (GEO_DK_CTRL.NOP k) = 0]),
    (0x0A, firstBad kinds [fun k => decide (geoGet t (GEO_DK_ECHK.ERASED_MAX k) ≥ geoGet t (GEO_DK_ECHK.PROG_MIN k)),
      fun k => geoGet t (GEO_DK_MISC.SAMPLE_WLS k) = 0 || decide (geoGet t (GEO_DK_MISC.SAMPLE_WLS k) > dkPages t k / dkPpwl t k)]),
    (0x0B, firstBad luns [fun g => geoGet t (GEO_DK_CTRL.VALID (kd g)) = 0]),
    (0x0C, firstBad luns [fun g => !modeEnable (s.chanOf (lunChan g)).mode, fun g => !modeCe (s.chanOf (lunChan g)).mode (lunTarget g)]),
    (0x0D, firstBad luns [fun g => modeIf (s.chanOf (lunChan g)).mode != geoGet t (GEO_DK_CTRL.IFMODE (kd g)),
      fun g => modeIf (s.chanOf (lunChan g)).mode != 0
        && decide (s.get (PHY_STAT.RATE_NOW (lunQuad g)) > geoGet t (GEO_DK_CTRL.RATE (kd g)))]),
    (0x0E, firstBad luns [fun g => decide (lunInTarget g ≥ 2 ^ geoGet t (GEO_DK_ADDR.LUN_BITS (kd g))),
      fun g => (targetLuns (lunChan g) (lunTarget g)).any (fun h => mapDecl (mapEntry t h) && kd h != kd g)]),
    (0x0F, firstBad luns [fun g => decide ((poolOf t (mapEntry t g)).length < 3)]),
    (0x10, if geoGet t GEO_RLH_CFG.EN = 0 then none
      else if geoGet t GEO_RLH_BASE_LO.ADDR % 4096 != 0 then some 0
      else match luns.find? (fun g => decide (dkEbs t (kd g) > geoGet t GEO_RLH_CFG.EBS_M1 + 1)
          || decide (dkWlg t (kd g) > geoGet t GEO_RLH_CFG.WLG_M1 + 1)) with
        | some g => some g
        | none => if (gMax t + 1) * (geoGet t GEO_RLH_CFG.EBS_M1 + 1) * (geoGet t GEO_RLH_CFG.WLG_M1 + 1) > 2 ^ 26 then some (gMax t) else none),
    (0x11, if geoGet t GEO_BST_CFG.EN = 1 && geoGet t GEO_BST_BASE_LO.ADDR % 4096 != 0 then some 0 else none),
    (0x12, (s.stripes.find? (fun (_, st) => st.state = 1 && ((memberIds st).map (memberLun st)).any (fun g =>
        !mapDecl (mapEntry t g) || mapSpare (mapEntry t g) || kd g != s.kind g
          || (List.range 32).any (fun w => tabGet regReset t (0xA000 + 0x80 * kd g + 4 * w)
              != tabGet regReset s.force (0xA000 + 0x80 * kd g + 4 * w)))) ).map (·.1)) ]

/-- The first failing code and item, none when every check passes. -/
def State.geoVerdict (s : State) (t : Tab Word32) : Option (Nat × Nat) :=
  (s.geoChecks t).findSome? (fun (c, i) => i.map (fun x => (c, x)))

end Sys2Proof.Machine
end

