-- ==== Sys2Proof/Machine/Ballast.lean ====
section
/-! DEFINITION. Ballast (spec/13_faults_and_spares.md): SRAM rows, injection, decoder slices and the recovery windows. -/

namespace Sys2Proof.Machine

/-! ### SRAM banks (Table 13.8) -/

def bankRows (b : Nat) : Nat :=
  if b < 32 then 4096 else if b = 32 then 32768 else if b = 33 then 131072 else if b = 34 then 8192 else if b = 35 then 1024
  else if b = 36 then 2560 else 0

def bankDomain (b : Nat) : Option Nat :=
  if b < 32 then some (pdQ (b / 4)) else if b = 33 then some pdPar else if b = 34 then none else some pdTop

/-- Top unit of banks 32 to 36. -/
def bankTop (b : Nat) : Fin 6 := if b = 32 then 3 else if b = 33 || b = 34 then 2 else 0

/-- The unit whose status block names a bank. -/
def bankUnit (b : Nat) : FltUnit := if h : b < 32 then .chan ⟨b, h⟩ else .top (bankTop b)

/-- RECOVERING of a channel (Table 13.5): a row copy, a poisoned tag that has not completed, the repeat of a transfer. -/
def State.updChanRec (s : State) (n : Nat) : State :=
  s.put (fltRecovering (CH_FLT_FIRST.adr n))
    (s.ballast.copying.any (fun c => c.1 == n) || s.ballast.waits.any (fun w => w.1 == n) || (s.chanOf n).repeated).toNat

/-- RECOVERING of a top unit: T0 a COS entry, T2 a Stripe Table entry, T3 a decoder buffer, T4 a row copy. -/
def State.updTopRec (s : State) (k : Nat) : State :=
  s.put (fltRecovering (BAL_FLT_FIRST.adr k))
    ((k == 0 && s.ballast.waits.any (fun w => w.1 == 35)) || (k == 2 && s.ballast.waits.any (fun w => w.1 == 34))
      || (k == 3 && s.ballast.waits.any (fun w => w.1 == 32)) || (k == 4 && s.ballast.copying.any (fun c => 32 ≤ c.1))).toNat

/-- A wait of a recovery window begins or all waits on a tag (or stripe) end. -/
def State.recWait (s : State) (unit x : Nat) : State :=
  let s := { s with ballast := { s.ballast with waits := s.ballast.waits ++ [(unit, x)] } }
  if unit < 32 then s.updChanRec unit else s.updTopRec (bankTop unit).val

def State.recDone (s : State) (p : Nat × Nat → Bool) : State :=
  let gone := s.ballast.waits.filter p
  let s := { s with ballast := { s.ballast with waits := s.ballast.waits.filter (fun w => !p w) } }
  gone.foldl (fun s w => if w.1 < 32 then s.updChanRec w.1 else s.updTopRec (bankTop w.1).val) s

/-- EV_SRAM_UE and EV_TOP_SRAM_UE (Table 13.11). -/
def State.evSramUe (s : State) (q bank row tag : Nat) (test inj : Bool) : State :=
  s.evQuad q 3 2 (bank + row * 2 ^ 6 + tag * 2 ^ 26 + test.toNat * 2 ^ 38 + inj.toNat * 2 ^ 39)
def State.evTopSramUe (s : State) (bank row tag detail : Nat) (inj : Bool) : State :=
  s.raise 285 2 (bank + row * 2 ^ 6 + tag * 2 ^ 26 + detail * 2 ^ 38 + inj.toNat * 2 ^ 42)

/-- A row is spared (R442). `same`: the same occurrence already faulted the channel, which does not escalate (R433). -/
def State.spareRow (s : State) (bank row : Nat) (bad : Bool) : State :=
  if s.ballast.copying.any (fun c => c.1 == bank && c.2.1 == row) then s
  else
    let used := s.get (BAL_BANK.USED bank)
    let s := { s with ballast := { s.ballast with tracker := s.ballast.tracker.filter (fun t => !(t.bank == bank && t.row == row)) } }
    if used ≥ 16 then (s.evSpareExhausted 1 bank).fault (.top 4) 2 2 bank
    else
      let s := s.put (BAL_BANK.USED bank) (used + 1)
      let s := s.raise 284 2 (bank + row * 2 ^ 6 + used * 2 ^ 26 + bad.toNat * 2 ^ 30)
      let s := if bank < 32 then
          (if bad then s.capture (bankUnit bank) 7 2 (row + used * 2 ^ 12) false else s.fault (bankUnit bank) 7 2 (row + used * 2 ^ 12))
        else s.fault (.top 4) 1 2 (bank + row * 2 ^ 6)
      let s := { s with ballast := { s.ballast with copying := s.ballast.copying ++ [(bank, row, used)] } }
      if bank < 32 then s.updChanRec bank else s.updTopRec 4

/-- The copy of a bank's oldest row being spared ends and the bank switches (R442). -/
def State.rowCopied (s : State) (bank : Nat) : State :=
  match s.ballast.copying.find? (fun c => c.1 == bank) with
  | none => s
  | some c =>
    let map := s.ballast.rowMap.filter (fun x => !(x.1 == c.1 && x.2.1 == c.2.1)) ++ [c]
    let s := { s with ballast := { s.ballast with copying := s.ballast.copying.erase c, rowMap := map } }
    if bank < 32 then s.updChanRec bank else s.updTopRec 4

/-- Ticks of Tether time in one hour. -/
def hourTicks : Nat := 5625000000

/-- A tracked row is older than WINDOW hours of Tether time. -/
def State.trackOld (s : State) (t : Track) : Bool := decide (s.get BAL_ROW_CTRL.WINDOW * hourTicks < s.now - t.first)

/-- A corrected read of a row enters the tracker (R442). -/
def State.track (s : State) (bank row : Nat) : State :=
  let s := s.bump (BAL_BANK.CORR bank) 1
  let s := { s with ballast := { s.ballast with tracker := s.ballast.tracker.filter (fun t => !s.trackOld t) } }
  let hit := fun (t : Track) => t.bank == bank && t.row == row
  let setT := fun (s : State) (l : List Track) => { s with ballast := { s.ballast with tracker := l } }
  match s.ballast.tracker.find? hit with
  | some t =>
    if t.count + 1 > s.get BAL_ROW_CTRL.LIMIT then s.later (.spareRow bank row false)
    else setT s (s.ballast.tracker.map (fun x => if hit x then { x with count := x.count + 1 } else x))
  | none =>
    let s := if s.ballast.tracker.length < 64 then s
      else
        let old := (s.ballast.tracker.map (·.first)).foldl min s.now
        (setT s (s.ballast.tracker.eraseP (fun t => t.first == old))).bump BAL_ROW_STAT.DROPPED 1
    setT s (s.ballast.tracker ++ [{ bank := bank, row := row, first := s.now, count := 1 }])

/-- An injection meets a read of its row (R446): the outcome it makes, 0 for none. -/
def State.injected (s : State) (bank row : Nat) : Nat :=
  if s.get BAL_INJECT.BANK = bank && s.get BAL_INJECT.ROW = row then s.get BAL_INJECT.MODE else 0

/-- Rows of bank 36 that hold the tag table and Bridle queues; the 2,048 lines of the RLH cache follow (R305, Table 13.8). -/
def queueRows : Nat := 512

/-- A row of bank 36 is uncorrectable: fatal where it holds the tag table or a queue (TOP_STORE_UE). -/
def State.queueBad (s : State) (row : Nat) : State :=
  if row < queueRows then ((s.capture (.top 0) 2 3 row false).evTopSramUe 36 row 0xFFF 0 false).fatal fatalStore
  else s.evTopSramUe 36 row 0xFFF 0 false

/-- The recovery lasts until the tag that was poisoned has completed (Table 13.5). -/
def State.recOwner (s : State) (bank : Nat) (owner : Option Nat) : State := match owner with
  | some t => s.recWait bank t
  | none => s

/-- The word of a read is poisoned or no longer so (R440). -/
def State.setPoison (s : State) (r : SramRead) (bad : Bool) : State :=
  let at' := (r.bank.val, r.row, r.word.val)
  let rest := s.ballast.poison.filter (· != at')
  { s with ballast := { s.ballast with poison := if bad then rest ++ [at'] else rest } }

/-- A functional read that the checker reports (R439, R440, R442, R446): an injected error counts, and a poisoned word that has not been
written since is uncorrectable again. Answers whether it is uncorrectable. -/
def State.sramRead (s : State) (r : SramRead) (owner : Option Nat) : Bool × State :=
  let b := r.bank.val
  let tag := owner.getD 0xFFF
  let inj := s.injected b r.row
  let bad := r.bad || inj == 3 || (!r.written && s.ballast.poison.contains (b, r.row, r.word.val))
  let s := s.setPoison r bad
  let s := if inj = 0 then s else ((s.put BAL_INJECT.MODE 0).put BAL_INJECT_STAT.DONE 1).put BAL_INJECT_STAT.RESULT (if bad then 3 else inj)
  if !bad then (false, s.track b r.row)
  else
    let s := if b < 32 then
        let s := s.fault (bankUnit b) 6 2 (r.row + tag * 2 ^ 12)
        (s.evSramUe (b / 4) b r.row tag false false).recOwner b owner
      else if b = 32 then ((s.evTopSramUe b r.row tag 2 false).fault (.top 3) 1 2 tag).recOwner b owner
      else if b = 35 then ((s.evTopSramUe b r.row tag 4 false).fault (.top 0) 1 2 tag).recOwner b owner
      else if b = 36 then s.queueBad r.row
      else s.evTopSramUe b r.row 0xFFF 4 false
    (true, s.later (.spareRow b r.row true))

/-! ### Decoder slices (R29, R448, R467) -/

def sliceUnused : Nat := 0
def sliceActive : Nat := 1
def sliceSpare : Nat := 2
def sliceRetired : Nat := 3
def sliceTesting : Nat := 4

def State.sliceIds (s : State) (st : Nat) : List Nat := (List.range 18).filter (fun i => (s.sliceOf i).st == st)

/-- A pair holds an active slice or one being brought in. -/
def State.pairNeeded (s : State) (b : Nat) : Bool :=
  [2 * b, 2 * b + 1].any fun i => (s.sliceOf i).st == sliceActive || (s.sliceOf i).st == sliceTesting

/-- A pair holds an active slice, one being brought in. -/
def State.pairActive (s : State) (b : Nat) : Bool := [2 * b, 2 * b + 1].any fun i => (s.sliceOf i).st == sliceActive
def State.pairTested (s : State) (b : Nat) : Bool := [2 * b, 2 * b + 1].any fun i => (s.sliceOf i).st == sliceTesting

/-- The pairs with an active slice that are kept powered: all, or with B_GATE the B_MIN lowest-numbered (R467). -/
def State.pairsKept (s : State) : List Nat :=
  let l := (List.range 9).filter s.pairActive
  if s.on TET_PWR_CTRL.B_GATE then l.take (s.get TET_PWR_CTRL.B_MIN) else l

/-- Power the pairs that R467 keeps powered and one under test, and release those without an active slice; requests stay as they are after
a fatal fault (Table 2.13), and none rises after a wake under the latch (R474). -/
def State.updPairs (s : State) : State :=
  if !s.powered pdTop || s.halted || s.tet.topOnly || s.block = blockDeep || s.inStartup || decide (s.tet.sleepStep ≥ 5) then s
  else
    let keep := s.pairsKept
    s.each (List.range 9) fun s b =>
      if keep.contains b || s.pairTested b then s.powerUp (pdB b) else if s.pairNeeded b then s else s.setReq (pdB b) false

/-- The last active slice has left service with no spare to replace it (R448). -/
def State.checkSlices' (s : State) : State :=
  if (s.sliceIds sliceActive).isEmpty && (s.sliceIds sliceTesting).isEmpty then
    (s.capture (.top 3) 2 3 0 false).fatal fatalNoDecoder else s

/-- The lowest-numbered spare is powered and tested for a slice that left service, or none is left (R448). -/
def State.takeSpare (s : State) (for' : Nat) : State :=
  match s.sliceIds sliceSpare with
  | r :: _ => ((s.modSlice r fun x => { x with st := sliceTesting, forFault := for' }).powerUp (pdB (r / 2))).updPairs
  | [] => (s.evSpareExhausted 2 0).updPairs.checkSlices'

/-- A slice leaves service at its first recoverable fault; its job has been taken from it (R448). -/
def State.sliceLost (s : State) (sl : Fin 18) (code tag ctx : Nat) : State :=
  let s := s.fault (.slice sl) code 2 ctx
  let s := s.modSlice sl.val fun x => { x with st := sliceRetired, job := none }
  let s := s.evSlice sl.val 0 (code + tag * 2 ^ 8 + ((s.sliceIds sliceSpare).headD 31) * 2 ^ 20)
  s.takeSpare sl.val

/-- The spare being tested passes and becomes active, or leaves service and the next is taken (R445, R448). -/
def State.spareTested (s : State) (sl : Fin 18) (fail : Option (BitVec 2 × Nat)) : State :=
  let x := s.sliceOf sl.val
  if x.st != sliceTesting || !s.powered (pdB (sl.val / 2)) then s
  else match fail with
    | none => ((s.modSlice sl.val fun x => { x with st := sliceActive }).evSpareTaken 2 x.forFault sl.val).updPairs
    | some (v, n) =>
      let s := (s.fault (.slice sl) 0x10 2 v.toNat).evSlice sl.val 1 (v.toNat + n % 256 * 2 ^ 8)
      (s.modSlice sl.val fun x => { x with st := sliceRetired }).takeSpare x.forFault

/-- A tracker entry is freed (R442). -/
def State.trackFree (s : State) (bank row : Nat) : State :=
  { s with ballast := { s.ballast with tracker := s.ballast.tracker.filter (fun t => !(t.bank == bank && t.row == row && s.trackOld t)) } }

/-- A job has waited for a slice: a further pair is powered (R467). -/
def State.pairUp (s : State) (b : Nat) : State :=
  if s.on TET_PWR_CTRL.B_GATE && !s.halted && s.pairNeeded b && decide (s.tet.sleepStep < 5) && s.jobs.any (fun j => !j.dead) then s.powerUp (pdB b) else s

/-- A pair that has run no job is released (R467). -/
def State.pairDown (s : State) (b : Nat) : State :=
  let busy := [2 * b, 2 * b + 1].any fun i => (s.sliceOf i).job.isSome || (s.sliceOf i).st == sliceTesting
  if s.on TET_PWR_CTRL.B_GATE && !s.halted && !s.pairsKept.contains b && !busy && s.pins.pwrReq.getLsbD (pdB b) then s.setReq (pdB b) false else s

end Sys2Proof.Machine
end

