-- ==== Sys2Proof/Machine/Codec.lean ====
section
/-! DEFINITION. The code word, bit-exact (R270 to R281) and the stripe parity (R316 to R318): CRC-32C, scrambler, the
LDPC code and its encoder, the field GF(2^8) and the solutions for missing code words. -/

namespace Sys2Proof.Machine

/-- Bytes of the information, protected part and user data of a code word (Table 8.1). -/
def infoBytes : Nat := 4128
def protBytes : Nat := 4124
def userBytes : Nat := 4096
def metaBytes : Nat := 28

/-! ### CRC-32C (R272) -/

/-- k steps of the reflected register, polynomial 0x1EDC6F41 reflected. -/
def crcSteps : Nat → Word32 → Word32
  | 0, r => r
  | k + 1, r => crcSteps k (if r.getLsbD 0 then (r >>> 1) ^^^ 0x82F63B78#32 else r >>> 1)

def crcByte (r : Word32) (b : Byte) : Word32 := crcSteps 8 (r ^^^ b.setWidth 32)

/-- CRC-32C of a byte string. -/
def crc32c (l : List Byte) : Word32 := ~~~ (l.foldl crcByte 0xFFFFFFFF#32)

/-! ### Scrambler (R274 to R276) -/

/-- One step: the keystream bit and the next state. -/
def lfsrStep (st : Word32) : Bool × Word32 :=
  (st.getLsbD 0, if st.getLsbD 0 then (st >>> 1) ^^^ 0xE0000200#32 else st >>> 1)

/-- Bits i to 7 of a keystream byte, added to the bits already drawn. -/
def lfsrBits : Nat → Nat → Word32 → Nat × Word32
  | 0, _, st => (0, st)
  | k + 1, i, st =>
    let (b, st') := lfsrStep st
    let (v, st'') := lfsrBits k (i + 1) st'
    (b.toNat * 2 ^ i + v, st'')

/-- n keystream bytes from a state. -/
def keystream : Nat → Word32 → List Byte
  | 0, _ => []
  | n + 1, st => let (v, st') := lfsrBits 8 0 st; BitVec.ofNat 8 v :: keystream n st'

/-- Seed of a code word's location (R275). -/
def seedOf (g e q p c : Nat) : Word32 :=
  let s1 := q * 32 + (4 * p + c)
  let w := (BitVec.ofNat 32 (s1 * 2 ^ 15)) ^^^ (BitVec.ofNat 32 (g * 4096 + e)) ^^^ 0x6D3A95C1#32
  if w = 0 then 1 else w

/-- Byte-wise XOR; the tail of a longer first string is kept. -/
def xorBytes : List Byte → List Byte → List Byte
  | a :: l, b :: r => (a ^^^ b) :: xorBytes l r
  | l, [] => l
  | [], _ => []

/-! ### The LDPC code (R277 to R280) -/

/-- A block of 128 bits. -/
abbrev Blk := BitVec 128

/-- Bytes to blocks of 16 bytes, bit n of the block being bit n of the string (R271). -/
def toBlocks : Nat → List Byte → List Blk
  | 0, _ => []
  | n + 1, l => BitVec.ofNat 128 (leNat (l.take 16)) :: toBlocks n (l.drop 16)

def ofBlocks (l : List Blk) : List Byte := l.flatMap (fun b => natLe 16 b.toNat)

/-- Block row r_k and shift h_k of information block column j (R278). -/
def ldpcRow (m j k : Nat) : Nat := (j % m + k * (1 + j / m % ((m - 1) / 3))) % m
def ldpcShift (m j k : Nat) : Nat := (j * (2 * k + 1) + 19 * k * (j / m + 1)) % 128

/-- XOR b into position i. -/
def xorAt (l : List Blk) (i : Nat) (b : Blk) : List Blk := l.modify i (fun x => x ^^^ b)

/-- The information part of every block row's check, s[r] of R280. -/
def ldpcSums (m : Nat) (x : List Blk) : List Blk :=
  (x.zipIdx).foldl (fun s (b, j) =>
    [0, 1, 2, 3].foldl (fun s k => xorAt s (ldpcRow m j k) (b.rotateRight (ldpcShift m j k))) s) (List.replicate m 0)

/-- Running XOR of R280. -/
def runXor : Blk → List Blk → List Blk
  | _, [] => []
  | p, s :: l => (s ^^^ p) :: runXor (s ^^^ p) l

/-- LDPC parity of scrambled information, m × 16 bytes (R280). -/
def ldpcParity (m : Nat) (info : List Byte) : List Byte := ofBlocks (runXor 0 (ldpcSums m (toBlocks 258 info)))

/-- The checks H × c, one block per block row (R279). -/
def ldpcSyndrome (m : Nat) (cw : List Byte) : List Blk :=
  let p := toBlocks m (cw.drop infoBytes)
  let s := ldpcSums m (toBlocks 258 cw)
  (s.zip (p.zip (0 :: p))).map (fun (a, b, c) => a ^^^ b ^^^ c)

/-- The number of unsatisfied checks (R285). -/
def ldpcWeight (m : Nat) (cw : List Byte) : Nat := ((ldpcSyndrome m cw).map (fun b => popcount 128 b.toNat)).sum

/-! ### Forming and staging code words -/

/-- Blocks of parity for a code word size of CW_BYTES (R270). -/
def blocksOf (cwBytes : Nat) : Nat := (cwBytes - infoBytes) / 16

/-- n bytes of a string, filled up with zeros. -/
def fitBytes (n : Nat) (l : List Byte) : List Byte := (l ++ List.replicate n 0).take n

/-- The protected bytes with their CRC: plain information of a code word (R273 step 1). -/
def plainInfo (user meta' : List Byte) : List Byte :=
  let p := fitBytes userBytes user ++ fitBytes metaBytes meta'
  p ++ natLe 4 (crc32c p).toNat

/-- Stored form of plain information at a location (R273 steps 2 to 4). -/
def storedForm (m : Nat) (seed : Word32) (info : List Byte) : List Byte :=
  let x := xorBytes info (keystream infoBytes seed)
  x ++ ldpcParity m x

/-- R282: a stored code word unscrambled so that H accepts its parity for the plain information. A keystream of zero is
given as none (R318). -/
def unscramble (m : Nat) (seed : Option Word32) (cw : List Byte) : List Byte :=
  match seed with
  | none => cw
  | some sd =>
    let k := keystream infoBytes sd
    xorBytes (cw.take infoBytes) k ++ xorBytes (cw.drop infoBytes) (ldpcParity m k)

/-- The CRC-32C in a code word matches its protected bytes (R285). -/
def crcOk (cw : List Byte) : Bool := natLe 4 (crc32c (cw.take protBytes)).toNat == (cw.drop protBytes).take 4

/-- Zero bits of a byte string (R282). -/
def zeroBits (l : List Byte) : Nat := (l.map (fun b => 8 - popcount 8 b.toNat)).sum

/-- Bits in which two byte strings differ (R287). -/
def diffBits (a b : List Byte) : Nat := ((a.zip b).map (fun (x, y) => popcount 8 (x ^^^ y).toNat)).sum

/-- Pad code word's plain information (R334). -/
def padInfo : List Byte :=
  plainInfo [] ([0x4B, 0x4E, 0x33, 0x32, 0x30, 0x30, 0x50, 0x44] ++ List.replicate 20 0)

/-! ### Parity over GF(2^8), polynomial 0x11D (R316, R318) -/

/-- Multiply by 2. -/
def gfDouble (a : Byte) : Byte := if a.getLsbD 7 then (a <<< 1) ^^^ 0x1D#8 else a <<< 1

/-- 2^k. -/
def gfPow2 : Nat → Byte
  | 0 => 1
  | k + 1 => gfDouble (gfPow2 k)

/-- Multiply by 2^k. -/
def gfShift : Nat → Byte → Byte
  | 0, a => a
  | k + 1, a => gfDouble (gfShift k a)

/-- Product over the n low bits of b. -/
def gfMulN : Nat → Byte → Byte → Byte
  | 0, _, _ => 0
  | n + 1, a, b => (if b.getLsbD 0 then a else 0) ^^^ gfMulN n (gfDouble a) (b >>> 1)

def gfMul (a b : Byte) : Byte := gfMulN 8 a b

/-- a to the k-th power; the inverse of a non-zero element is its 254th power. -/
def gfPow (a : Byte) : Nat → Byte
  | 0 => 1
  | k + 1 => gfMul a (gfPow a k)

def gfDiv (a b : Byte) : Byte := gfMul a (gfPow b 254)

/-- Fold a data code word of member m into P and Q (R316); an empty accumulator is all zeros. -/
def foldP (p d : List Byte) : List Byte := if p.isEmpty then d.take infoBytes else xorBytes p (d.take infoBytes)
def foldQ (m : Nat) (q d : List Byte) : List Byte :=
  let e := (d.take infoBytes).map (gfShift m)
  if q.isEmpty then e else xorBytes q e

/-- R318: members x and y missing, from P' and Q'. Answers D_x. -/
def solveTwo (x y : Nat) (p q : List Byte) : List Byte :=
  (p.zip q).map (fun (a, b) => gfDiv (b ^^^ gfShift y a) (gfPow2 x ^^^ gfPow2 y))

/-- R318: P and member x missing: D_x = Q' / 2^x. -/
def solveQ (x : Nat) (q : List Byte) : List Byte := q.map (fun b => gfDiv b (gfPow2 x))

end Sys2Proof.Machine
end

