-- ==== Sys2Proof/Machine/Desc.lean ====
section
/-! DEFINITION. The descriptor (Tables 7.1 to 7.4), the data shape (R387, R389) and the intake checks in the order of
Table 7.5. -/

namespace Sys2Proof.Machine

/-! ### Fields -/

def dOp (d : Desc) : Nat := fld d 7 0
def dOpt (d : Desc) : Nat := fld d 15 8
def dFlag (d : Desc) (b : Nat) : Bool := bit d b
def dDurable (d : Desc) : Bool := bit d 16
def dBarrier (d : Desc) : Bool := bit d 17
def dNoRlh (d : Desc) : Bool := bit d 18
def dRaw (d : Desc) : Bool := bit d 19
def dRacOk (d : Desc) : Bool := bit d 20
def dOrdered (d : Desc) : Bool := bit d 21
def dEventOnDone (d : Desc) : Bool := bit d 22
def dClass (d : Desc) : Nat := fld d 28 27
def dPhase (d : Desc) : Bool := bit d 31
def dHostTag (d : Desc) : Nat := fld d 47 32
def dDeadline (d : Desc) : Nat := fld d 87 64
def dAux (d : Desc) : Nat := fld d 127 96
def dLun (d : Desc) : Nat := fld d 137 128
def dStripe (d : Desc) : Nat := fld d 139 128
def dEb (d : Desc) : Nat := fld d 151 140
def dPage (d : Desc) : Nat := fld d 163 152
def dFirstCw (d : Desc) : Nat := fld d 165 164
def dCwCount (d : Desc) : Nat := fld d 170 168
def dPlanes (d : Desc) : Nat := fld d 183 176
def dTargetLo (d : Desc) : Nat := fld d 159 128
def dBase (d : Desc) : Nat := fld d 255 192
def dElem (d : Desc) : Nat := fld d 287 256
def dStep (d : Desc) (k : Nat) : Int := (BitVec.ofNat 32 (fld d (288 + 32 * k + 31) (288 + 32 * k))).toInt
def dCount (d : Desc) (k : Nat) : Nat := fld d (384 + 16 * k + 15) (384 + 16 * k)
def dMeta (d : Desc) : Nat := fld d 511 448
/-- Byte i of bytes 56 to 63. -/
def dMetaByte (d : Desc) (i : Nat) : Nat := fld d (448 + 8 * i + 7) (448 + 8 * i)

/-- Opcodes (Table 7.3). -/
def opNop : Nat := 0x00
def opRead : Nat := 0x01
def opReadRaw : Nat := 0x02
def opCopy : Nat := 0x03
def opAppend : Nat := 0x08
def opProgAt : Nat := 0x09
def opErase : Nat := 0x0A
def opEraseCheck : Nat := 0x0B
def opStripeOpen : Nat := 0x10
def opStripeClose : Nat := 0x11
def opSubstitute : Nat := 0x12
def opRebuild : Nat := 0x13
def opTallyWrite : Nat := 0x18
def opTallyScan : Nat := 0x19
def opFlush : Nat := 0x20
def opAbort : Nat := 0x21
def opRlhSync : Nat := 0x22
def opDieCmd : Nat := 0x30
def opRoutine : Nat := 0x31
def opcodes : List Nat := [opNop, opRead, opReadRaw, opCopy, opAppend, opProgAt, opErase, opEraseCheck, opStripeOpen, opStripeClose,
  opSubstitute, opRebuild, opTallyWrite, opTallyScan, opFlush, opAbort, opRlhSync, opDieCmd, opRoutine]

/-- DIE_CMD fields of `desc.aux` (Table 7.6); ROUTINE's DATA and number (R261). -/
def dDir (d : Desc) : Nat := dAux d / 2 ^ 20 % 4
def dAddrN (d : Desc) : Nat := dAux d / 2 ^ 16 % 8
def dData (d : Desc) : Nat := dAux d / 2 ^ 8 % 4
def dRoutine (d : Desc) : Nat := dAux d % 64
def dSpareOpt (d : Desc) : Bool := bit d 8
def dScope (d : Desc) : Nat := fld d 9 8

/-! ### The data shape -/

/-- Shape length (R237). -/
def shapeLen (d : Desc) : Nat := dElem d * dCount d 0 * dCount d 1 * dCount d 2

/-- Start address of element (i2, i1, i0) (R387). -/
def elemAddr (d : Desc) (i2 i1 i0 : Nat) : Int := (dBase d : Int) + i2 * dStep d 2 + i1 * dStep d 1 + i0 * dStep d 0

/-- Start address of element number e (R387). -/
def elemAt (d : Desc) (e : Nat) : Int :=
  elemAddr d (e / (dCount d 0 * dCount d 1)) (e / dCount d 0 % dCount d 1) (e % dCount d 0)

/-- The eight corner elements lie in the address space (R389). -/
def cornersOk (d : Desc) : Bool :=
  [0, dCount d 2 - 1].all fun i2 => [0, dCount d 1 - 1].all fun i1 => [0, dCount d 0 - 1].all fun i0 =>
    decide (0 ≤ elemAddr d i2 i1 i0) && decide (elemAddr d i2 i1 i0 + dElem d ≤ 2 ^ 64)

/-- Bytes [off, off + len) of the stream as runs (address, length) of consecutive bytes (R391). -/
def runsOf (d : Desc) (off len : Nat) : List (Nat × Nat) :=
  let e0 := off / dElem d
  let e1 := (off + len - 1) / dElem d
  let parts := (List.range (e1 + 1 - e0)).map fun i =>
    let e := e0 + i
    let a := max off (e * dElem d)
    let b := min (off + len) ((e + 1) * dElem d)
    ((elemAt d e + (a - e * dElem d : Nat)).toNat, b - a)
  parts.foldl (fun l x => match l.getLast? with
    | some y => if y.1 + y.2 = x.1 then l.dropLast ++ [(y.1, y.2 + x.2)] else l ++ [x]
    | none => [x]) []

/-- A run cut at every 4 KiB boundary (R62, R391). -/
def cutRun : Nat → Nat × Nat → List (Nat × Nat)
  | 0, r => [r]
  | k + 1, (a, n) =>
    let room := 4096 - a % 4096
    if n ≤ room then [(a, n)] else (a, room) :: cutRun k (a + room, n - room)

/-- The requests of a piece of the stream, in stream order: address, length, offset within the piece. -/
def piecesOf (d : Desc) (off len : Nat) : List (Nat × Nat × Nat) :=
  let l := (runsOf d off len).flatMap (fun r => cutRun (r.2 / 4096 + 2) r)
  (l.foldl (fun (acc : List (Nat × Nat × Nat) × Nat) r => (acc.1 ++ [(r.1, r.2, acc.2)], acc.2 + r.2)) ([], 0)).1

/-! ### Stripes' sizes -/

/-- Die kind's LUN for a stripe: member 0's. -/
def stripeLun (st : Stripe) : Nat := memberLun st 0
/-- Code words of one append slot S (R239). -/
def State.slotCws (s : State) (st : Stripe) : Nat := popcount 8 st.planes * s.ncw (stripeLun st)

/-- The selected planes of a mask, ascending. -/
def planeList (m : Nat) : List Nat := onesOf 8 m

/-! ### Intake checks -/

/-- Fields of the location form used by an opcode: (lun, eb, page, planes, first_cw, cw_count). -/
def locUse (op : Nat) : Bool × Bool × Bool × Bool × Bool × Bool :=
  if op = opRead || op = opReadRaw || op = opCopy || op = opProgAt then (true, true, true, true, true, true)
  else if op = opErase || op = opEraseCheck then (true, true, false, true, false, false)
  else if op = opSubstitute then (true, true, false, false, false, false)
  else if op = opRebuild || op = opTallyWrite || op = opTallyScan || op = opDieCmd then (true, false, false, false, false, false)
  else if op = opRoutine then (true, true, true, true, true, false)
  else (false, false, false, false, false, false)

def usesLun (op : Nat) : Bool := (locUse op).1

/-- Whether the opcode moves data through the shape. -/
def usesShape (d : Desc) : Bool :=
  let op := dOp d
  op == opRead || op == opReadRaw || op == opAppend || op == opProgAt || op == opTallyScan
    || (op == opDieCmd && dDir d != 0) || (op == opRoutine && dData d != 0)

/-- Whether bytes 56 to 63 are a metadata pointer. -/
def usesMeta (d : Desc) : Bool := dOp d == opRead || dOp d == opAppend || (dOp d == opProgAt && !dRaw d)

/-- Ones in bits [hi:lo] of a descriptor when b. -/
def dmask (b : Bool) (hi lo : Nat) : Nat := if b then (2 ^ (hi + 1 - lo) - 1) * 2 ^ lo else 0

/-- The bits a descriptor may have set (R230, Table 7.3); option and argument bits by opcode. -/
def usedBits (d : Desc) : Nat :=
  let op := dOp d
  let (l, e, p, m, f, c) := locUse op
  let stripeT := op == opAppend || op == opStripeOpen || op == opStripeClose || (op == opFlush && dScope d == 1)
  let opt := if op = opErase || op = opTallyWrite || op = opTallyScan || op = opAbort || op = opRlhSync || op = opDieCmd then 1
    else if op = opStripeClose then 3 else if op = opFlush then 15 else 0
  let aux := if op = opReadRaw then 0xFF else if op = opCopy || op = opSubstitute then 0xFFF else if op = opRebuild then 0x3FF
    else if op = opTallyWrite then (if bit d 8 then 0xFFFF else 0) else if op = opAbort then 0x7FFFFF
    else if op = opDieCmd then 0x3FFFFF else if op = opRoutine then 0x33F else 0
  let high := if usesMeta d || op = opStripeOpen || op = opTallyWrite || op = opRoutine then 8
    else if op = opDieCmd then (if dAddrN d ≤ 5 then dAddrN d else 5) else 0
  dmask true 7 0 + opt * 2 ^ 8 + dmask true 22 16 + dmask true 28 27 + dmask true 31 31 + dmask true 47 32 + dmask true 87 64
    + aux * 2 ^ 96 + dmask l 137 128 + dmask (stripeT && !l) 139 128 + dmask e 151 140 + dmask p 163 152 + dmask f 165 164
    + dmask c 170 168 + dmask m 183 176 + dmask (usesShape d) 431 192 + (2 ^ (8 * high) - 1) * 2 ^ 448

/-- Flags an opcode permits (R233): bits 16 to 22. -/
def flagsAllowed (op : Nat) : Nat :=
  0x42 + (if op = opAbort then 0 else 0x20)
    + (if op = opRead then 0x14 else if op = opReadRaw then 0x08 else if op = opCopy then 0x15 else if op = opAppend then 0x01
       else if op = opProgAt then 0x09 else 0)

/-- Data length through the shape (Table 7.3); none where it is free within bounds or not checked yet (R237). -/
def State.dataLen (s : State) (d : Desc) : Option Nat :=
  let op := dOp d
  let g := dLun d
  let p := popcount 8 (dPlanes d)
  if op = opRead then some (p * dCwCount d * 4096)
  else if op = opReadRaw then some (p * dCwCount d * s.cwBytes g)
  else if op = opProgAt then some (p * s.ncw g * (if dRaw d then s.cwBytes g else 4096))
  else if op = opAppend then
    (if (s.stripeOf (dStripe d)).state = 1 then some (s.slotCws (s.stripeOf (dStripe d)) * 4096) else none)
  else none

/-- Order 7's shape part. DESIGN CHOICE (log entry 95): a DIE_CMD or ROUTINE whose direction is the reserved 0b11 has no shape to be checked;
it gets 0x1E. -/
def State.shapeBad (s : State) (d : Desc) : Bool :=
  let op := dOp d
  let n := shapeLen d
  (usesShape d && !(op == opDieCmd && dDir d == 3) && !(op == opRoutine && dData d == 3) &&
    (n == 0 || (match s.dataLen d with | some x => n != x | none => false)
      || (op == opTallyScan && n % 16 != 0) || (op == opDieCmd && decide (n > 32768)) || (op == opRoutine && decide (n > 65536))
      || !cornersOk d))
  || (usesMeta d && dMeta d % 4 != 0) || (op == opStripeOpen && dMeta d % 128 != 0)

/-- Code word fields out of range (0x19). -/
def State.cwBad (s : State) (d : Desc) : Bool :=
  let op := dOp d
  let n := s.ncw (dLun d)
  if op = opProgAt then dFirstCw d != 0 || dCwCount d != n
  else if op = opRoutine then decide (dFirstCw d ≥ n)
  else dCwCount d == 0 || decide (dCwCount d > 4) || decide (dFirstCw d + dCwCount d > n)

/-- Order 7's argument part: 0x1E, 0x20, 0x21, 0x22. -/
def State.argBad (s : State) (d : Desc) : Option Nat :=
  let op := dOp d
  let g := dLun d
  if op = opReadRaw && decide (dAux d ≥ dkRsCount s.force (s.kind g)) then some 0x1E
  else if op = opDieCmd && (dDir d == 3 || decide (dAddrN d > 5)) then some 0x1E
  else if op = opRoutine && dData d == 3 then some 0x1E
  else if op = opSubstitute then
    let st := s.stripeOf (dAux d)
    if st.state != 0 && (memberIds st).any (fun m => memberLun st m == g && memberEb st m == dEb d) then none else some 0x20
  else if op = opRebuild then
    let h := dAux d
    if s.declared h && s.isSpare h && s.kind h == s.kind g then none else some 0x21
  else if op = opCopy then
    let st := s.stripeOf (dAux d)
    if st.state = 1 && popcount 8 (dPlanes d) * dCwCount d != s.slotCws st then some 0x22 else none
  else none

/-- Order 8: stripe state. -/
def State.stripeBad (s : State) (d : Desc) : Option Nat :=
  let op := dOp d
  if op = opCopy then
    let st := s.stripeOf (dAux d)
    if st.state != 1 || st.closing then some 0x1B else none
  else if op = opAppend then
    let st := s.stripeOf (dStripe d)
    if st.state != 1 || st.closing then some 0x1B
    else if st.nextRow ≥ s.pages (stripeLun st) then some 0x1C else none
  else if op = opStripeClose then
    let st := s.stripeOf (dStripe d)
    if st.state = 0 || (st.state = 2 && !bit d 9) then some 0x1B else none
  else none

/-- Order 9: tenant and window (R185, Table 5.11). -/
def State.windowBad (s : State) (ten : Nat) (d : Desc) : Option Nat :=
  let op := dOp d
  let owner := s.on (winOwner ten)
  let loc := fun w => !s.inWindow ten w (dLun d) (dEb d)
  let sameTenant := fun id => owner || (s.stripeOf id).tenant == ten
  if !s.on (winEn ten) then some 0x01
  else if op = opRead || op = opReadRaw || op = opEraseCheck then (if loc false then some 0x02 else none)
  else if op = opProgAt || op = opErase then (if loc true then some 0x02 else none)
  else if op = opCopy then (if loc false then some 0x02 else if sameTenant (dAux d) then none else some 0x03)
  else if op = opAppend || op = opStripeClose then (if sameTenant (dStripe d) then none else some 0x03)
  else if op = opDieCmd || op = opRoutine || op = opTallyWrite || op = opTallyScan || op = opSubstitute || op = opRebuild
    || op = opRlhSync then (if owner then none else some 0x04)
  else none

/-- The first failing check of Table 7.5 as (status, detail). -/
def State.intakeBad (s : State) (ten : Nat) (d : Desc) : Option (Nat × Nat) :=
  let op := dOp d
  let g := dLun d
  let (_, e, p, m, _, _) := locUse op
  if !opcodes.contains op then some (0x10, 0x10)
  else if !s.on GEO_STAT.VALID && !(op == opDieCmd || op == opNop || op == opAbort || op == opFlush) then some (0x10, 0x13)
  else if d &&& ~~~ BitVec.ofNat 512 (usedBits d) != 0 then some (0x10, 0x11)
  else if fld d 22 16 &&& (127 - flagsAllowed op) != 0 then some (0x10, 0x12)
  else if (op == opFlush && (dScope d == 3 || (bit d 10 && dScope d == 0)))
    || (op == opErase && dSpareOpt d && s.declared g && s.inPool g (dEb d)) then some (0x10, 0x1D)
  else if op == opDieCmd && !(modeEnable (s.chanOf (lunChan g)).mode && modeCe (s.chanOf (lunChan g)).mode (lunTarget g)) then some (0x10, 0x1F)
  else if usesLun op && op != opDieCmd && !s.declared g then some (0x10, 0x14)
  else if usesLun op && op != opDieCmd && op != opErase && op != opEraseCheck && s.isSpare g then some (0x10, 0x15)
  else if e && (decide (dEb d ≥ s.ebs g) || (op != opErase && op != opEraseCheck && s.inPool g (dEb d))) then some (0x10, 0x16)
  else if p && decide (dPage d ≥ s.pages g) then some (0x10, 0x17)
  else if m && (dPlanes d == 0 || decide (dPlanes d ≥ 2 ^ s.npl g)) then some (0x10, 0x18)
  else if p && s.cwBad d then some (0x10, 0x19)
  else if s.shapeBad d then some (0x10, 0x1A)
  else match s.argBad d with
    | some x => some (0x10, x)
    | none => match s.stripeBad d with
      | some x => some (0x10, x)
      | none => (s.windowBad ten d).map (fun x => (0x11, x))

/-- Units of the data stream (Table 11.1): unit length, and how many. -/
def State.unitLen (s : State) (d : Desc) : Nat :=
  let op := dOp d
  if op = opReadRaw || (op = opProgAt && dRaw d) then s.cwBytes (dLun d)
  else if op = opTallyScan then 16 else if op = opDieCmd || op = opRoutine then 1 else 4096

/-- Residue and first unit not completed (R266, R401), from the units' moved bytes. -/
def State.residue (s : State) (t : Nat) : Nat × Nat :=
  let tg := s.tagOf t
  let d := tg.desc
  if !usesShape d then (0, 0)
  else
    let n := shapeLen d
    let u := s.unitLen d
    let units := n / u
    let full := fun k => decide ((tg.cws.getD k {}).moved ≥ u) && (!usesMeta d || dMeta d == 0 || (tg.cws.getD k {}).metaDone)
    let first := ((List.range units).find? (fun k => !full k)).getD units
    (first, n - min n tg.moved)

end Sys2Proof.Machine
end

