-- ==== Sys2Proof/Machine/Spool.lean ====
section
/-! DEFINITION. Spool requests (R62, R63, R391 to R397), Pool needs (R402 to R406) and the RLH cache (R300 to R308). -/

namespace Sys2Proof.Machine

/-! ### Spool requests -/

/-- The beats a run touches. -/
def beatsOf (addr len : Nat) : Nat := (addr % 64 + len + 63) / 64

/-- Strobes of beat i of a run: the run's bytes alone. -/
def strbOf (addr len i : Nat) : BitVec 64 :=
  let lo := max (addr % 64) (64 * i) - 64 * i
  let hi := min (addr % 64 + len) (64 * i + 64) - 64 * i
  BitVec.ofNat 64 ((2 ^ (hi - lo) - 1) * 2 ^ lo)

/-- A write of bytes at an address that crosses no 4 KiB boundary. -/
def spoolWrite (port sid addr : Nat) (data : List Byte) (c : Cont) : Spool :=
  let n := beatsOf addr data.length
  { port := port, sid := sid, write := true, addr := addr / 64 * 64, beats := n,
    data := fitBytes (64 * n) (List.replicate (addr % 64) 0 ++ data), strb := (List.range n).map (strbOf addr data.length), cont := c }

/-- A read of the beats that a run touches. -/
def spoolRead (port sid addr len : Nat) (c : Cont) : Spool :=
  { port := port, sid := sid, addr := addr / 64 * 64, beats := beatsOf addr len, cont := c }

/-- A request becomes ready. -/
def State.ask (s : State) (r : Spool) : State := { s with ready := s.ready ++ [{ r with fresh := true }] }

/-- A tag's data request; nothing more is issued for a tag whose transfer has ended (R398, R401). -/
def State.askTag (s : State) (t : Nat) (r : Spool) : State :=
  if (s.tagOf t).dmaErr.isSome || (s.tagOf t).ended then s
  else (s.modTag t fun x => { x with unissued := x.unissued + 1 }).ask r

/-- User bytes of unit k of a tag go to host memory (R391, R393). -/
def State.sendUser (s : State) (t k : Nat) (data : List Byte) : State :=
  let tg := s.tagOf t
  let off := k * data.length
  (piecesOf tg.desc off data.length).foldl
    (fun s p => s.askTag t (spoolWrite (tg.cq % 2) tg.cq p.1 ((data.drop p.2.2).take p.2.1) (.user t k p.2.1))) s

/-- The 28 B of metadata of unit k follow (R394). -/
def State.sendMeta (s : State) (t k : Nat) (data : List Byte) : State :=
  let tg := s.tagOf t
  if dMeta tg.desc = 0 then s
  else
    ((cutRun 1 (dMeta tg.desc + 28 * k, 28)).foldl
      (fun (p : State × Nat) r =>
        (p.1.askTag t (spoolWrite (tg.cq % 2) tg.cq r.1 ((data.drop p.2).take r.2) (.metaOut t k)), p.2 + r.2)) (s, 0)).1

/-- Bytes [off, off + len) of a stream are read from host memory; `mk` names each piece by its offset, length and the bytes
to skip in its first beat. -/
def readPieces (tg : Tag) (off len : Nat) (mk : Nat → Nat → Nat → Cont) : List Spool :=
  (piecesOf tg.desc off len).map fun p => spoolRead (tg.cq % 2) tg.cq p.1 p.2.1 (mk (off + p.2.2) p.2.1 (p.1 % 64))

/-- The reads of n units of u bytes of a stream, none across two units (R391, R393). -/
def unitReads (tg : Tag) (n u : Nat) (mk : Nat → Nat → Nat → Cont) : List Spool :=
  (List.range n).flatMap fun k => readPieces tg (k * u) u mk

/-- The reads of the metadata of n units (R394); `mk` takes the offset within the metadata, the bytes to skip and the length. -/
def metaReads (tg : Tag) (n : Nat) (mk : Nat → Nat → Nat → Cont) : List Spool :=
  if dMeta tg.desc = 0 then []
  else (List.range n).flatMap fun u =>
    (cutRun 1 (dMeta tg.desc + 28 * u, 28)).map fun p =>
      spoolRead (tg.cq % 2) tg.cq p.1 p.2 (mk (p.1 - dMeta tg.desc) (p.1 % 64) p.2)

/-- EV_DMA_ERROR with its counts (Table 11.5, R400, T1 code 0x01). -/
def State.dmaErrorEvent (s : State) (r : Spool) (err : Nat) (late : Bool) (tag : Nat) (h : Option Holder) : State :=
  let s := s.bump (if r.port = 0 then DMA_ERR_CNT.PORT0 else DMA_ERR_CNT.PORT1) 1
  let s := if late then s.bump DMA_LATE_CNT.COUNT 1 else s
  let s := s.fault (.top 1) 1 1 (r.port + r.sid * 2 + tag * 2 ^ 7)
  s.raise 266 1 (r.port + (if r.write then 0 else 1) * 2 + err * 4 + late.toNat * 16 + r.sid * 32 + tag * 2 ^ 11 + r.addr / 64 % 2 ^ 41 * 2 ^ 23) h

/-! ### Pool needs -/

/-- Smallest class that holds n bytes. -/
def classFor (n : Nat) : Nat := if n ≤ 4096 then 0 else if n ≤ 16384 then 1 else if n ≤ 65536 then 2 else 3

/-- A need: its ALLOC waits to be sent; a need has at most one (R403). -/
def State.need (s : State) (cls owner : Nat) (use : PoolUse) : State :=
  if (s.pool.send ++ s.pool.out ++ s.pool.empty).any (fun r => r.op == poolAlloc && r.use == use) then s
  else { s with pool := { s.pool with send := s.pool.send ++ [{ op := poolAlloc, cls := cls, owner := owner, use := use }] } }

/-- SHARE of a spill buffer by a tag. -/
def State.share (s : State) (t addr : Nat) (use : PoolUse) : State :=
  { s with pool := { s.pool with send := s.pool.send ++ [{ op := poolShare, owner := t, addr := addr, use := use }] } }

/-- Needs that have been answered EMPTY and not granted since (R404). -/
def State.needsWaiting (s : State) : Nat :=
  s.pool.empty.length + s.pool.send.countP (fun r => r.first.isSome) + s.pool.out.countP (fun r => r.first.isSome)

/-- The episode of EV_POOL_EMPTY ends when no need waits (R404). -/
def State.emptyOver (s : State) : State :=
  if s.needsWaiting = 0 then { s with pool := { s.pool with emptyTold := false } } else s

/-- The needs that satisfy p are withdrawn; one whose ALLOC is outstanding waits no longer. -/
def State.dropNeeds (s : State) (p : PoolReq → Bool) : State :=
  let mine := fun (r : PoolReq) => r.op == poolAlloc && p r
  { s with pool := { s.pool with send := s.pool.send.filter (fun r => !mine r), empty := s.pool.empty.filter (fun r => !p r),
                                 out := s.pool.out.map (fun r => if mine r then { r with first := none } else r) } }.emptyOver

/-- Free the buffer of a use. -/
def State.freeUse (s : State) (use : PoolUse) : State :=
  match s.pool.bufs.find? (fun b => b.use == use) with
  | some b => match b.owners with
    | o :: _ => s.releaseBuf o b.addr
    | [] => s
  | none => s

/-- Address of the buffer of a use. -/
def State.bufAddr (s : State) (use : PoolUse) : Nat := ((s.pool.bufs.find? (fun b => b.use == use)).map (·.addr)).getD 0

/-! ### RLH cache -/

def rlhSet (line : Nat) : Nat := (line ^^^ (line / 256) ^^^ (line / 65536)) % 256
def epochNow (s : State) : Nat := s.now / 2 ^ s.get GEO_RLHC_CTRL.EPOCH_SHIFT % 4096
def eSet (e : Word32) : Nat := fld e 7 0
def eConf (e : Word32) : Nat := fld e 11 8
def eEpoch (e : Word32) : Nat := fld e 23 12
def eValid (e : Word32) : Bool := bit e 24
def ePinned (e : Word32) : Bool := bit e 27

/-- Tree pseudo-LRU over eight ways: node 1 is the root, bit 0 of the store unused beyond 7 nodes. -/
def plruVictim (b : BitVec 7) : Nat :=
  let n0 := (bit b 0).toNat
  let n1 := (bit b (1 + n0)).toNat
  let n2 := (bit b (3 + 2 * n0 + n1)).toNat
  4 * n0 + 2 * n1 + n2
def plruTouch (b : BitVec 7) (w : Nat) : BitVec 7 :=
  putBit (putBit (putBit b 0 (w / 4 == 0)) (1 + w / 4) (w / 2 % 2 == 0)) (3 + w / 2) (w % 2 == 0)

def State.rlhTouch (s : State) (l : RlhLine) : State :=
  { s with rlh := { s.rlh with plru := tabMod (fun _ => 0) s.rlh.plru (rlhSet l.line) (fun b => plruTouch b l.way) } }

def State.rlhLine (s : State) (line : Nat) : Option RlhLine := s.rlh.lines.find? (fun l => l.line == line)
def State.modLine (s : State) (line : Nat) (f : RlhLine → RlhLine) : State :=
  { s with rlh := { s.rlh with lines := s.rlh.lines.map (fun l => if l.line = line then f l else l) } }

def State.rlhBase (s : State) : Nat := s.geo GEO_RLH_BASE_HI.ADDR * 2 ^ 32 + s.geo GEO_RLH_BASE_LO.ADDR

/-- Whether a fill of the line is ready to issue or outstanding. -/
def State.filling (s : State) (line : Nat) : Bool :=
  let p := fun (r : Spool) => match r.cont with | .rlhFill l _ => l == line | _ => false
  s.ready.any p || s.flying.any p || s.holds (.work (.rlhFill line 0))
def State.fillsOut (s : State) : Nat :=
  let p := fun (r : Spool) => match r.cont with | .rlhFill _ _ => true | _ => false
  s.ready.countP p + s.flying.countP p

/-- Issue the fill of a line while fewer than 64 are outstanding (R305). -/
def State.askFill (s : State) (line : Nat) : State :=
  if s.filling line || s.fillsOut ≥ 64 then s
  else s.ask (spoolRead 1 35 (s.rlhBase + 64 * line) 64 (.rlhFill line 0))

/-- A write-back of the dirty entries of a line: one beat (R306). -/
def wbRequest (base : Nat) (l : RlhLine) : Spool :=
  { port := 1, sid := 35, write := true, addr := base + 64 * l.line, beats := 1, data := l.entries.flatMap (fun (e : Word32) => natLe 4 e.toNat),
    strb := [BitVec.ofNat 64 (((onesOf 16 l.dirty.toNat).map (fun i => 15 * 16 ^ i)).sum)], cont := .rlhWb l.line l.dirty.toNat }

/-- Write back a cached line; its entries become clean when the response returns. -/
def State.writeBack (s : State) (line : Nat) : State :=
  match s.rlhLine line with
  | some l => if l.dirty = 0 then s
      else ((s.modLine line fun l => { l with again := 0 }).bump GEO_RLHC_WB.COUNT 1).ask (wbRequest s.rlhBase l)
  | none => s

def State.dirtyLines (s : State) : List Nat := (s.rlh.lines.filter (fun l => l.dirty != 0)).map (·.line)
def State.wbOut (s : State) (line : Nat) : Bool :=
  let p := fun (r : Spool) => match r.cont with | .rlhWb l _ => l == line | _ => false
  s.ready.any p || s.flying.any p

/-- A free slot of a tag's eviction buffer (R307). -/
def State.poolSlot (s : State) (tag : Nat) : Option Nat :=
  (List.range 64).find? (fun k => !s.rlh.pooled.any (fun p => p.tag == tag && p.slot == k))

/-- Take a way for a line: a free one, or evict the pseudo-LRU one. None while a dirty victim has no place to go: the write-back queue, or a
Pool buffer of the open tag whose READ caused the fill (R307). -/
def State.rlhWay (s : State) (line : Nat) (tag : Option Nat) : Option Nat × State :=
  let st := rlhSet line
  let here := s.rlh.lines.filter (fun l => rlhSet l.line == st)
  match (List.range 8).find? (fun w => !here.any (fun l => l.way == w)) with
  | some w => (some w, s)
  | none =>
    let w := plruVictim (tabGet (fun _ => 0) s.rlh.plru st)
    match here.find? (fun l => l.way == w) with
    | none => (some w, s)
    | some v =>
      let gone := { s with rlh := { s.rlh with lines := s.rlh.lines.filter (fun l => l.line != v.line) } }
      if v.dirty = 0 then (some w, gone)
      else if s.rlh.wbq.length < 32 then
        (some w, ({ gone with rlh := { gone.rlh with wbq := gone.rlh.wbq ++ [v] } }.bump GEO_RLHC_WB.COUNT 1).ask (wbRequest s.rlhBase v))
      else match tag with
      | none => (none, s)
      | some tag =>
      if s.pool.bufs.any (fun b => b.use == .rlhEvict tag) && (s.poolSlot tag).isSome then
        let k := (s.poolSlot tag).getD 0
        (some w, { gone with rlh := { gone.rlh with pooled := gone.rlh.pooled ++ [({ tag := tag, slot := k, line := v } : PoolLine)] } }.ask
          (spoolWrite 1 36 (s.bufAddr (.rlhEvict tag) + 64 * k) (v.entries.flatMap (fun (e : Word32) => natLe 4 e.toNat)) (.rlhPool tag v.line)))
      else if s.pool.send.any (fun r => r.use == .rlhEvict tag) || s.pool.out.any (fun r => r.use == .rlhEvict tag)
          || s.pool.empty.any (fun r => r.use == .rlhEvict tag) || s.pool.bufs.any (fun b => b.use == .rlhEvict tag) then (none, s)
      else (none, s.need 0 tag (.rlhEvict tag))

/-- Install a line's 64 bytes; false while its way is not free. -/
def State.rlhInstall (s : State) (line : Nat) (tag : Option Nat) (data : List Byte) : Bool × State :=
  if (s.rlhLine line).isSome then (true, s)
  else
    let (w, s) := s.rlhWay line tag
    match w with
    | none => (false, s)
    | some w =>
      let l : RlhLine := { line := line, way := w, entries := (List.range 16).map fun i => BitVec.ofNat 32 (leNat ((data.drop (4 * i)).take 4)) }
      (true, ({ s with rlh := { s.rlh with lines := s.rlh.lines ++ [l] } }).rlhTouch l)

/-- The entry of a table index, when its line is cached. -/
def State.rlhEntry (s : State) (x : Nat) : Option Word32 := (s.rlhLine (x / 16)).map (fun l => l.entries.getD (x % 16) 0)

/-- Write an entry of a cached line: it becomes dirty. -/
def State.rlhPut (s : State) (x : Nat) (e : Word32) : State :=
  s.modLine (x / 16) fun l => { l with entries := l.entries.set (x % 16) e, dirty := putBit l.dirty (x % 16) true, again := putBit l.again (x % 16) true, stamp := s.intakeSeq }

/-- Apply an update to a cached entry (Table 8.8); its first row writes nothing where CONF is 15 and the epoch is the entry's. A line that
becomes dirty while a DEEP entry writes lines back goes out with them (R306). -/
def State.rlhApply (s : State) (u : RlhUpd) : State :=
  match s.rlhEntry u.index with
  | none => s
  | some e =>
    if ePinned e then s
    else
      let put := fun (set conf valid soft recon : Nat) =>
        BitVec.ofNat 32 (set % 256 + conf % 16 * 2 ^ 8 + u.epoch * 2 ^ 12 + valid * 2 ^ 24 + soft * 2 ^ 25 + recon * 2 ^ 26)
      let new := if u.step = 0 && u.predicted then put (eSet e) (min (eConf e + 1) 15) (eValid e).toNat 0 0
        else if u.step ≤ 1 then put u.set 1 1 0 0
        else if u.step ≤ 3 then put u.centre 0 1 1 0
        else put (eSet e) 0 (eValid e).toNat (fld e 25 25) 1
      if u.step = 0 && u.predicted && eConf e == 15 && eEpoch e == u.epoch then s
      else if s.tet.sleepStep == 3 && !s.wbOut (u.index / 16) then (s.rlhPut u.index new).writeBack (u.index / 16) else s.rlhPut u.index new

/-- The updates that waited for a line; without the line they are dropped (R303, R304). -/
def State.rlhUpdates (s : State) (line : Nat) : State :=
  let mine := s.rlh.updates.filter (fun u => u.index / 16 == line)
  mine.foldl State.rlhApply { s with rlh := { s.rlh with updates := s.rlh.updates.filter (fun u => u.index / 16 != line) } }

/-- What a usable entry gives: a prediction, or a stale entry's set (R301, R302). -/
def State.predict (s : State) (g : Nat) (e : Word32) : Option Nat × Option Nat :=
  let n := dkRsCount s.force (s.kind g)
  if !eValid e || eSet e ≥ n then (none, none)
  else
    let age := (epochNow s + 4096 - eEpoch e) % 4096
    let stale := s.get GEO_RLHC_CTRL.AGE_MAX != 0 && decide (age > s.get GEO_RLHC_CTRL.AGE_MAX)
    if stale && !ePinned e then (none, some (eSet e)) else (some (eSet e), none)

end Sys2Proof.Machine
end

