-- ==== Sys2Proof/Machine/Bridle.lean ====
section
/-! DEFINITION. Bridle's queue of die operations (R354 to R359) and the requests that running and parked routines receive
(R148). -/

namespace Sys2Proof.Machine

/-! ### Routine numbers and results (Tables 4.11, 4.12) -/

def rtStatusPoll : Nat := 0x00
def rtResetLun : Nat := 0x01
def rtReadSense : Nat := 0x03
def rtReadXfer : Nat := 0x04
def rtReadSoft : Nat := 0x05
def rtProgOneshot : Nat := 0x06
def rtProgPass : Nat := 0x07
def rtErase : Nat := 0x08
def rtResume : Nat := 0x09
def rtFinish : Nat := 0x0A
def rtTallyProg : Nat := 0x0B
def rtRawCmd : Nat := 0x0C
def rtTrainDcc : Nat := 0x0F
def rtTrainRgate : Nat := 0x10
def rtTrainRdeskew : Nat := 0x11
def rtTrainWdeskew : Nat := 0x12
def rtTrackBurst : Nat := 0x13
def rtEraseSample : Nat := 0x14
def rtReadSenseSlc : Nat := 0x15

def resDone : Nat := 0x00
def resDoneFail : Nat := 0x01
def resSuspended : Nat := 0x02
def resAborted : Nat := 0x03
def resAbortedDie : Nat := 0x04
def resCancelled : Nat := 0x05
def resTimeout : Nat := 0x06
def resXferFault : Nat := 0x07
def resBadArg : Nat := 0x08
def resFaulted : Nat := 0x09
def resTrainFail : Nat := 0x0A
/-- The model's own results: the operation's unit is fenced (R44); no offer was made because R310, R25 or R326 refused it. -/
def resFenced : Nat := 0x40
def resRefused : Nat := 0x41
/-- The model's own too: the staging data of the routine was poisoned before its COMMIT (R440). -/
def resPoison : Nat := 0x42

/-- Die results that leave a committed operation failed. -/
def resBad (r : Nat) : Bool := r == resDoneFail || r == resTimeout || r == resAbortedDie

/-- Operation kinds of per-LUN state word 0 (Table 5.7). -/
def kindSense : Nat := 1
def kindProg : Nat := 2
def kindErase : Nat := 3
def kindTally : Nat := 4
def kindReset : Nat := 5
def kindOther : Nat := 6

def Op.isSense (o : Op) : Bool := match o.role with | .sense _ => true | .soft _ _ => true | _ => o.routine == rtReadSense || o.routine == rtReadSenseSlc
/-- Program passes and erases that hold-up, suspension and thermal holds mean. -/
def Op.isPass (o : Op) : Bool := match o.role with
  | .first => true | .later => true | .pad => true | .parity _ _ _ => true | .subst _ => true | _ => false
def Op.isErase (o : Op) : Bool := match o.role with
  | .erase => true | .substErase _ => true | .tally 4 => true | _ => o.routine == rtErase
def Op.isTallyProg (o : Op) : Bool := match o.role with
  | .tally k => k == 3 || k == 5 | _ => false
/-- A program pass of any origin, ROUTINE's included (R261). -/
def Op.isProg (o : Op) : Bool := o.isPass || o.routine == rtProgOneshot || o.routine == rtProgPass
def Op.isWrite (o : Op) : Bool := o.isProg || o.isErase || o.isTallyProg || o.routine == rtTallyProg
/-- A first pass of a page. -/
def Op.isFirst (o : Op) : Bool := o.isPass && o.role != .later && o.v4 != 2
/-- A program pass that ROUTINE starts (R261). -/
def Op.isRawProg (o : Op) : Bool := o.role == .routine && o.isProg
/-- A first pass of a page, of any origin. -/
def Op.opens (o : Op) : Bool := o.isFirst || (o.isRawProg && (o.routine == rtProgOneshot || o.v4 != 2))
/-- The tag whose command an operation carries out. -/
def Op.owner (o : Op) : Option Nat := o.boss <|> o.tag
/-- A page programmed on a spare. -/
def Op.isSubst (o : Op) : Bool := match o.role with | .subst _ => true | _ => false
/-- Routines that the channel engine offers for itself (R114, R121, R128, R146, R152, R362). -/
def Op.isEngine (o : Op) : Bool := match o.role with
  | .resetLun => true | .poll => true | .resume => true | .finish => true | .train => true | _ => false
def Op.readId (o : Op) : Option Nat := match o.role with
  | .sense i => some i | .xfer i _ => some i | .soft i _ => some i | _ => none
/-- A routine that a staging handle is given to (Table 4.12). -/
def Op.usesStage (o : Op) : Bool := !o.isEngine && !(o.routine == rtReadSense || o.routine == rtReadSenseSlc || o.routine == rtErase)
/-- A soft read: each of its data outputs moves one more code word into staging. -/
def Op.isSoft (o : Op) : Bool := match o.role with
  | .soft _ _ => true | _ => false
/-- Bytes of the page that an operation moves into the die from staging (v7 of Table 4.12, Table 1.6 step 3). -/
def Op.pageBytes (o : Op) : Nat := (o.data.map List.length).sum

/-! ### Bands and shares -/

def State.weight (s : State) (t : Nat) : Nat := fld (s.reg (0x8400 + 4 * t)) 7 0
def State.d0Pct (s : State) (t : Nat) : Nat := fld (s.reg (0x8400 + 4 * t)) 15 8

/-- A tenant has used up its D0 allowance on a channel (R359). -/
def State.d0Over (s : State) (n t : Nat) : Bool :=
  s.d0Pct t != 100 && decide (tabGet (fun _ => 0) (s.chanOf n).d0 t ≥ s.d0Pct t * 10000)

def State.opPast (s : State) (o : Op) : Bool := match o.tag with
  | some t => (s.tagOf t).past
  | none => o.past || decide (o.due < s.us)

/-- The tenant whose D0 allowance counts for an operation: that of the held tag that waits on it (R354, R356). -/
def State.bandTenant (s : State) (o : Op) : Nat := match o.tag with
  | some t => (s.tagOf t).tenant
  | none => o.tenant

/-- Table 10.1, for writes too (R375); a reconstruct-around's member reads are always in band 0 (R367). -/
def State.bandOf (s : State) (o : Op) : Nat :=
  if o.racMember then 0
  else if o.cls = 0 then
    (if !s.d0Over (lunChan o.loc.lun) (s.bandTenant o) then 0 else if s.opPast o then 1 else 2)
  else if s.opPast o then 1 else o.cls + 1

/-- Order of choice on a channel (R355, R358): the channel engine's own routines first. -/
def State.rank (s : State) (o : Op) : List Nat :=
  if o.isEngine then [0, o.seq]
  else
    let b := s.bandOf o
    if b ≤ 1 then [b + 1, o.due, o.seq]
    else [b + 1, if s.weight o.tenant = 0 then 1 else 0, tabGet (fun _ => 0) (s.chanOf (lunChan o.loc.lun)).vt o.tenant, o.tenant, o.due, o.seq]

/-- Lexicographic order of two ranks. -/
def rankLt : List Nat → List Nat → Bool
  | [], [] => false
  | [], _ => true
  | _, [] => false
  | a :: l, b :: r => decide (a < b) || (a == b && rankLt l r)

/-- The first operation in rank among those given. -/
def State.firstOp (s : State) : List Op → Option Op
  | [] => none
  | o :: l => match s.firstOp l with
    | none => some o
    | some p => if rankLt (s.rank p) (s.rank o) then some p else some o

/-! ### The queue -/

def State.chanOps (s : State) (n : Nat) : List Op := s.ops.filter (fun o => lunChan o.loc.lun == n)

/-- An operation waits in Bridle, unless a function reset runs (R383); one on a fenced unit ends at once (R44). A tenant new to the channel takes the lowest virtual
time waiting there (R357); the channel engine's own routines are no tenant's waiting operation. -/
def State.addOp (s : State) (o : Op) : State :=
  if s.freset.busy && !o.isEngine then s
  else if s.isFenced o.loc.lun && o.role != .raw && !o.isEngine then s.later (.opEnd o resFenced 0 0)
  else
    let n := lunChan o.loc.lun
    let here := (s.chanOps n).filter (fun p => !p.isEngine)
    let vt := fun t => tabGet (fun _ => 0) (s.chanOf n).vt t
    let s := if o.isEngine || here.isEmpty || here.any (fun p => p.tenant == o.tenant) then s
      else
        let low := (here.map (fun p => vt p.tenant)).foldl min (vt (here.headD {}).tenant)
        if vt o.tenant < low then s.modChan n fun c => { c with vt := tabPut (fun _ => 0) c.vt o.tenant low } else s
    { s with ops := s.ops ++ [o] }

def State.dropOps (s : State) (p : Op → Bool) : State := { s with ops := s.ops.filter (fun o => !p o) }

/-- An order number for work that no descriptor's intake orders. -/
def State.newSeq (s : State) : Nat × State := (s.intakeSeq, { s with intakeSeq := s.intakeSeq + 1 })

def State.newId (s : State) : Nat × State := (s.nextId, { s with nextId := s.nextId + 1 })

/-- Operation o is its LUN's operation past COMMIT: no sense or transfer made while that is suspended. -/
def State.pastCommit (s : State) (o : Op) : Bool := (s.lunOf o.loc.lun).committed && !((s.lunOf o.loc.lun).suspended && o.readId.isSome)

/-! ### Requests to routines -/

/-- The routine parked on a LUN wakes (R144). -/
def State.wakePark (s : State) (g : Nat) : State :=
  if (s.lunOf g).park.isSome && (s.lunOf g).woken.isNone then
    { s.modLun g (fun l => { l with woken := some s.wakeSeq }) with wakeSeq := s.wakeSeq + 1 }
  else s

/-- The parked routine of LUN g ends: its lane entries are discarded, and CE_N of a target that it selected goes high (R146). -/
def State.dropPark (s : State) (g : Nat) : State :=
  let n := lunChan g
  if (s.lunOf g).park.isNone then s
  else
    let s := s.modLun g fun l => { l with park := none, woken := none }
    let s := s.modChan n fun x => { x with lane := x.lane.filter (fun e => e.lun != g) }
    if (s.chanOf n).tgt.isSome && (s.chanOf n).tgtBy == g then
      s.modChan n fun x => { x with tgt := none, pads := { x.pads with ceN := 0xFF } } else s

/-- Set a request latch: 0 abort, 1 suspend, 2 cancel. -/
def Ctx.request (c : Ctx) (k : Nat) : Ctx :=
  if k = 0 then { c with abortReq := true } else if k = 1 then { c with suspReq := true } else { c with cancelReq := true }
def Ctx.pending (c : Ctx) : Bool := c.abortReq || c.suspReq || c.cancelReq
/-- The latches that are set. -/
def Ctx.reqs (c : Ctx) : List Nat := (if c.abortReq then [0] else []) ++ (if c.suspReq then [1] else []) ++ (if c.cancelReq then [2] else [])

/-- Request k reaches the routine parked on LUN g; a SAFE YIELD wakes. -/
def State.requestPark (s : State) (g k : Nat) : State :=
  match (s.lunOf g).park with
  | some c =>
    let s := s.modLun g fun l => { l with park := some (c.request k) }
    if c.safeYield then s.wakePark g else s
  | none => s

/-- Every running or parked routine whose operation satisfies p receives request k, and a FINISH that still waits keeps it. -/
def State.request (s : State) (k : Nat) (p : Op → Bool) : State :=
  let s := { s with ops := s.ops.map (fun (o : Op) => if o.role == Role.finish && p o then { o with reqs := o.reqs ++ [k] } else o) }
  let s := s.each (s.ctxs.map (·.1)) fun s n =>
    if (s.ctxOf n).state != 0 && p (s.ctxOf n).op then s.modCtx n (fun c => c.request k) else s
  s.each (s.luns.map (·.1)) fun s g =>
    match (s.lunOf g).park with
    | some c => if p c.op then s.requestPark g k else s
    | none => s

/-- A running or parked routine satisfies p. -/
def State.routineOn (s : State) (p : Op → Bool) : Bool :=
  s.ctxs.any (fun e => e.2.state != 0 && p e.2.op) || s.luns.any (fun e => match e.2.park with | some c => p c.op | none => false)

/-- Work waiting or running for p. -/
def State.opsOn (s : State) (p : Op → Bool) : Bool := s.ops.any p || s.routineOn p

/-- Withdraw what waits and cancel what runs (R370). -/
def State.cancelOps (s : State) (p : Op → Bool) : State := (s.dropOps p).request 2 p
/-- Withdraw what waits and abort what runs (R376). -/
def State.abortOps (s : State) (p : Op → Bool) : State := (s.dropOps p).request 0 p

end Sys2Proof.Machine
end

