-- ==== Sys2Proof/Machine/Read.lean ====
section
/-! DEFINITION. The read path of one plane page (spec/08_read_path.md): the RLH lookup, the senses of the retry ladder, the
decode jobs, and what each recovered code word does. -/

namespace Sys2Proof.Machine

/-! ### Reads and their operations -/

def State.readOf (s : State) (id : Nat) : Option PRead := s.reads.find? (fun r => r.id == id)
def State.modRead (s : State) (id : Nat) (f : PRead → PRead) : State :=
  { s with reads := s.reads.map (fun r => if r.id = id then f r else r) }

def CwRes.open' (r : CwRes) : Bool := match r with | .waiting => true | _ => false

/-- Status and detail that the outcomes of code words give, in R298's order. -/
def resStatus (l : List CwRes) : Nat × Nat :=
  match l.findSome? (fun c => match c with | .poison d => some d | _ => none) with
  | some d => (0x35, d)
  | none =>
    if l.any (fun c => c == .fenced) then (0x34, 0)
    else if l.any (fun c => !c.good) then (0x30, 0)
    else if l.any (fun c => c == .ok 4) then (0x02, 0)
    else if l.any (fun c => c != .ok 0) then (0x01, 0) else (0, 0)

/-- Code words of a read that have no outcome yet. -/
def PRead.left (r : PRead) : List Nat := (r.cws.filter (fun c => c.res.open')).map (·.cw)
def PRead.modCw (r : PRead) (cw : Nat) (f : PCw → PCw) : PRead :=
  { r with cws := r.cws.map (fun c => if c.cw = cw then f c else c) }

/-- An operation of a read (R354, R367). -/
def PRead.op (r : PRead) (routine : Nat) (role : Role) (cw v3 v4 v6 : Nat) : Op :=
  { routine := routine, loc := { lun := r.lun, eb := r.eb, page := r.page, planes := 2 ^ r.plane }, cw := cw, v3 := BitVec.ofNat 32 v3, v4 := BitVec.ofNat 32 v4, v6 := BitVec.ofNat 32 v6, role := role, tag := r.tag, tenant := r.tenant, cls := r.cls, due := r.due, seq := r.order, member := r.member, racMember := r.racMember }

/-- Transfer index of a code word of a tag (R236). -/
def unitOf (tg : Tag) (plane cw : Nat) : Nat := tg.cws.findIdx (fun c => c.plane == plane && c.cw == cw)

def State.setUnit (s : State) (t plane cw : Nat) (f : Cw → Cw) : State :=
  s.modTag t fun x => { x with cws := x.cws.map (fun c => if c.plane == plane && c.cw == cw then f c else c) }

/-- The tag of a direct read, whose senses its completion counts. -/
def PRead.direct (r : PRead) : Option Nat := match r.owner with | .tag t => some t | _ => none

/-- n senses are issued for a read. -/
def State.countSenses (s : State) (r : PRead) (n : Nat) : State :=
  match r.direct with
  | some t => s.modTag t fun x => { x with senses := x.senses + n }
  | none => s

/-- The ladder of a tag's plane page has reached a step (R299). -/
def State.reached (s : State) (r : PRead) (k : Nat) : State :=
  match r.direct with
  | some t => s.modTag t fun x => { x with topStep := max x.topStep k }
  | none => s

/-! ### Staging -/

def State.stageOf (s : State) (n h : Nat) : Option Stage := (s.chanOf n).staging.find? (fun g => g.handle == h)
def State.dropStage (s : State) (n : Nat) (p : Stage → Bool) : State :=
  if (s.chanOf n).staging.any p then s.modChan n fun c => { c with staging := c.staging.filter (fun g => !p g) } else s

/-- Staging copies of a read's code word are freed, but for the one whose data is on its way to host memory (R24). -/
def State.freeStages (s : State) (r : PRead) (cw : Nat) (keep : Option Nat) : State :=
  let n := lunChan r.lun
  let s := s.dropStage n fun g => g.read == some r.id && g.cw == cw && keep != some g.handle
  match keep with
  | some h => s.modChan n fun c => { c with staging := c.staging.map (fun g => if g.handle = h then { g with done := true } else g) }
  | none => s

/-! ### Jobs -/

/-- A job enters Bellows' queue; a new one takes its staging order now (R38, R289). -/
def State.addJob (s : State) (j : Job) (order : Option Nat := none) : State :=
  { s with jobs := s.jobs ++ [{ j with order := order.getD s.jobSeq }], jobSeq := s.jobSeq + 1 }

/-- Jobs that satisfy p are removed; running ones finish with their results discarded (R370). -/
def State.dropJobs (s : State) (p : Job → Bool) : State :=
  let s := { s with jobs := s.jobs.filter (fun j => !p j) }
  s.each (s.slices.map (·.1)) fun s i =>
    match (s.sliceOf i).job with
    | some j => if p j then s.modSlice i (fun x => { x with job := some { j with dead := true } }) else s
    | none => s

def Job.ofRead (id : Nat) (j : Job) : Bool := match j.who with | .cw i _ => i == id | _ => false
/-- A read's jobs that wait or run with a result still wanted. -/
def State.recountJobs (s : State) (id : Nat) : State :=
  let n := (s.jobs.filter (Job.ofRead id)).length + (s.slices.filter (fun (e : Nat × Slice) => match e.2.job with | some j => !j.dead && Job.ofRead id j | none => false)).length
  s.modRead id fun r => { r with jobs := n }
def Job.ofCw (id cw : Nat) (j : Job) : Bool := j.who == .cw id cw

/-! ### The ladder -/

def State.stepMax (s : State) (g : Nat) : Nat := s.get (GEO_LAD.STEP_MAX (s.kind g))
def State.softD (s : State) (g : Nat) : Nat := s.get (GEO_LAD.SOFT_STEP (s.kind g))
def State.ladderMax (s : State) (g : Nat) : Nat := s.geo (GEO_DK_RETRY.LADDER_MAX (s.kind g))

/-- A sense of a whole plane page with a retry set. -/
def State.startSense (s : State) (id step set : Nat) : State :=
  match s.readOf id with
  | none => s
  | some r =>
    let s := s.modRead id fun r => { r with step := step, set := set, set0 := if step = 0 then set else r.set0, tried := r.tried ++ [set], counted := if step = 1 then r.counted + 1 else r.counted, sensing := true, failed := false, xfers := [], unissued := 1 }
    (s.reached r step).addOp (r.op rtReadSense (.sense id) 0 0 set 0)

/-- The set that step 1 tries next (R292); none when LADDER_MAX sets have been counted. -/
def State.nextSet (s : State) (r : PRead) : Option Nat :=
  if s.stepMax r.lun = 0 || decide (r.counted ≥ s.ladderMax r.lun) then none
  else
    let n := dkRsCount s.force (s.kind r.lun)
    let first := if r.predicted then [s.defaultSet r.lun] else match r.stale with | some x => [x] | none => []
    (first ++ (List.range n).map (fun i => (r.set0 + 1 + i) % n)).find? (fun x => !r.tried.contains x)

/-- The centre set of steps 2 and 3 (R293). -/
def PRead.centreSet (r : PRead) : Nat :=
  ((r.weights.foldl (fun (b : Option (Nat × Nat)) w => match b with
    | some x => if w.2 < x.2 then some w else b
    | none => some w) none).map (·.1)).getD r.set0

/-- The last failed job's weight of a set, kept in the order tried. -/
def setWeight (l : List (Nat × Nat)) (x w : Nat) : List (Nat × Nat) :=
  if l.any (fun e => e.1 == x) then l.map (fun e => if e.1 = x then (x, w) else e) else l ++ [(x, w)]

/-- Every code word without an outcome ends unrecovered. -/
def State.giveUp (s : State) (id : Nat) : State :=
  s.modRead id fun r => { r with sensing := false, xfers := [], waitsRlh := false, waitsPool := false, rebuilding := false, cws := r.cws.map (fun c => if c.res.open' then { c with res := if r.fenced then .fenced else .bad } else c) }

/-- Owner of a read's Pool buffers: the held tag, or its stripe + 0x1000 (R293). -/
def State.bufOwner (s : State) (r : PRead) : Nat :=
  match r.tag with
  | some t => t
  | none => 0x1000 + (match r.owner with
    | .sub j => ((s.subs.find? (fun x => x.id == j)).map (·.stripe)).getD 0
    | .rac k _ => ((s.racs.find? (fun x => x.id == k)).map (·.stripe)).getD 0
    | .tag _ => 0)

/-- SOFT_STEP as a signed number. -/
def State.softDelta (s : State) (g : Nat) : Int := (BitVec.ofNat 8 (s.softD g)).toInt
/-- Multiples of d that the senses of step 2, of step 3, of step 3 after a failed step 2, shift the centre set by (R291, R293). -/
def softShifts (step : Nat) (kept : Bool) : List Int := if step = 2 then [-1, 0, 1] else if kept then [-2, 2] else [-2, -1, 0, 1, 2]
/-- The offsets of a set, each shifted and clamped to −128 to 127 (R291). -/
def State.softOffs (s : State) (g x : Nat) (m : Int) : List Int :=
  let k := s.kind g
  (List.range (s.geo (GEO_DK_RETRY.RS_NOFF k))).map fun i => max (-128) (min 127 ((BitVec.ofNat 8 (setOff s.force k x i)).toInt + m * s.softDelta g))

/-- A soft read of one code word (R293). -/
def State.softOp (s : State) (r : PRead) (cw : Nat) : State :=
  s.addOp { r.op rtReadSoft (.soft r.id cw) cw (cw * s.cwBytes r.lun) (r.centre + (if r.step = 2 then 3 else 5) * 256) (sext8 (s.softD r.lun)) with
    offs := (softShifts r.step r.softKept).map (s.softOffs r.lun r.centre) }

/-- The buffer of a code word's soft data has been granted. -/
def State.softHeld (s : State) (id cw : Nat) : Bool := s.pool.bufs.any (fun b => b.use == .soft id cw)

/-- The senses of step 2 or 3 are issued once every code word of the plane page has its buffer (Table 11.3). -/
def State.softGo (s : State) (id : Nat) : State :=
  match s.readOf id with
  | none => s
  | some r =>
    if !r.waitsPool || !r.xfers.all (s.softHeld id) then s
    else r.xfers.foldl (fun s cw => s.softOp r cw) (s.modRead id fun r => { r with waitsPool := false })

/-- Step 2 or 3 begins, or the ladder goes beyond it: step 4, or the end (R291, R296). -/
def State.softStep (s : State) (id k : Nat) : State :=
  match s.readOf id with
  | none => s
  | some r =>
    if s.stepMax r.lun < k || 4 ≤ k then
      if r.member then s.giveUp id
      else (s.modRead id fun r => { r with rebuilding := true }).later (.step4 id)
    else
      let r' := { r with step := k, centre := if k = 2 then r.centreSet else if r.step = 2 then r.centre else r.centreSet, failed := false, xfers := r.left, waitsPool := true, unissued := if k = 2 then 3 else if r.softKept then 2 else 5 }
      let s := (s.modRead id fun _ => r').reached r k
      let s := r.left.foldl (fun s cw => if s.softHeld id cw then s else s.need 1 (s.bufOwner r) (.soft id cw)) s
      s.softGo id

def Rac.modSrc (k : Rac) (i : Nat) (f : Src → Src) : Rac := { k with srcs := k.srcs.modify i f }

/-- A member read that ends before its first command cycle: its cost goes back when its rebuild ends (R368). -/
def State.unspent (s : State) (r : PRead) : State :=
  match r.owner with
  | .rac k i => if r.issued then s else { s with racs := s.racs.map (fun x => if x.id = k then x.modSrc i (fun y => { y with unspent := true }) else x) }
  | _ => s

/-- The read has ended: its other work is withdrawn, its buffers are given back. -/
def State.endRead (s : State) (id : Nat) : State :=
  match s.readOf id with
  | none => s
  | some r =>
    if r.ended then s
    else
      let s := (s.unspent r).modRead id fun r => { r with ended := true }
      let s := s.cancelOps (fun o => o.readId == some id)
      let s := s.dropJobs (Job.ofRead id)
      let mine := fun (u : PoolUse) => match u with | .soft i _ => i == id | _ => false
      let s := s.dropNeeds (fun q => mine q.use)
      let s := (r.cws.map (·.cw)).foldl (fun s cw => s.freeUse (.soft id cw)) s
      s.later (.readDone id)

/-- What a read does next, once something about it has changed (R291, R294). -/
def State.readPush (s : State) (id : Nat) : State :=
  match s.readOf id with
  | none => s
  | some r =>
    if r.ended then s
    else if r.left.isEmpty then s.endRead id
    else if r.waitsRlh || r.sensing || r.rebuilding then s
    else if !r.xfers.isEmpty then s.softGo id
    else if r.step ≤ 1 then
      if !r.failed then s
      else if r.raw then (s.giveUp id).endRead id
      else match s.nextSet r with
        | some x => s.startSense id 1 x
        | none => if r.jobs = 0 then s.softStep id 2 else s
    else if r.jobs = 0 then s.softStep id (r.step + 1)
    else s

/-- After a step that gives up, the read may be over. -/
def State.readGo (s : State) (id : Nat) : State :=
  let s := s.readPush id
  match s.readOf id with
  | some r => if r.left.isEmpty then s.endRead id else s
  | none => s

/-! ### Outcomes of code words -/

/-- What a rebuild still does for a code word is cancelled (R370): its job, its staging, and its members' transfers and jobs. -/
def State.dropRebuild (s : State) (i cw : Nat) : State :=
  let s := s.dropJobs (fun j => j.who == JobFor.rebuilt i cw)
  let s := { s with ready := s.ready.filter (fun q => q.cont != Cont.stageRac i cw) }
  let mine := s.reads.filter (fun (r : PRead) => !r.ended && match r.owner with | .rac k _ => k == i | _ => false)
  mine.foldl (fun s r =>
    let s := s.cancelOps (fun (o : Op) => o.role == Role.xfer r.id cw || o.role == Role.soft r.id cw)
    let s := s.dropJobs (Job.ofCw r.id cw)
    let s := s.modRead r.id fun r => { r.modCw cw (fun c => if c.res.open' then { c with res := .bad } else c) with xfers := r.xfers.erase cw }
    ((s.recountJobs r.id).freeStages r cw none).readGo r.id) s

/-- The other side's work on a code word is cancelled (R370): a rebuild of it no longer wants it. -/
def State.dropRival (s : State) (o : Owner) (plane cw : Nat) : State :=
  let hit := fun (k : Rac) => k.owner == o && k.plane == plane && k.cws.contains cw && !k.done.any (fun d => d.1 == cw)
  let all := (s.racs.filter hit).map (·.id)
  let ids := (s.racs.filter (fun k => hit k && k.done.length + 1 == k.cws.length)).map (·.id)
  let s := { s with racs := s.racs.map (fun k => if hit k then { k with done := k.done ++ [(cw, false)] } else k) }
  let s := all.foldl (fun s i => s.dropRebuild i cw) s
  ids.foldl (fun s i => s.later (.racEnd i)) s

/-- The first good result for a code word of a tag's read: status, and for a READ its way to host memory (R37, R240). -/
def State.tagGood (s : State) (t plane cw step corr : Nat) (word : List Byte) : State :=
  let tg := s.tagOf t
  let k := unitOf tg plane cw
  let s := s.setUnit t plane cw fun c => { c with res := .ok step, corr := corr }
  let s := s.modTag t fun x => { x with okStep := max x.okStep step }
  if dOp tg.desc = opRead then (s.sendUser t k (word.take userBytes)).sendMeta t k ((word.drop userBytes).take metaBytes)
  else { s with tags := tabMod (fun _ => {}) s.tags t (fun x => { x with data := tabIns k word (tabDrop k x.data) }) }

/-- A code word recovered by its own read at a step, with a set (R294, R298, R304). -/
def State.cwGood (s : State) (id cw corr set step : Nat) (word : List Byte) (handle : Nat) : State :=
  match s.readOf id with
  | none => s
  | some r =>
    let s := s.modRead id fun r => { r.modCw cw (fun c => { c with res := .ok step, corr := corr, word := word }) with
      lastGood := if r.cws.any (fun c => match c.res with | .ok k => decide (step < k) && k != 4 | _ => false) then r.lastGood else set }
    let s := s.dropJobs (Job.ofCw id cw)
    let s := s.dropOps (fun o => o.role == .xfer id cw || o.role == .soft id cw)
    let s := (s.modRead id fun r => { r with xfers := r.xfers.erase cw }).recountJobs id
    match r.direct with
    | some t =>
      let keep := dOp (s.tagOf t).desc = opRead
      let s := s.freeStages r cw (if keep then some handle else none)
      let s := s.dropRival r.owner r.plane cw
      let s := s.modTag t fun x => { x with lastSet := set }
      (s.tagGood t r.plane cw step corr word).readGo id
    | none => (s.freeStages r cw none).readGo id

/-- A code word that ends without recovery here: erased or poisoned (R283, R298). -/
def State.cwEnd (s : State) (id cw : Nat) (res : CwRes) : State :=
  (((s.modRead id fun r => r.modCw cw (fun c => { c with res := res })).dropJobs (Job.ofCw id cw)).dropOps
    (fun o => o.role == .xfer id cw || o.role == .soft id cw)).readGo id

/-- Bit planes of HM's fixed magnitude 2 over n bytes (Table 8.3). -/
def flatMag (n : Nat) : List (List Byte) := [List.replicate n 0, List.replicate n 0xFF, List.replicate n 0]

/-- A failed decode job (R285, R289, R294). -/
def State.jobFailed (s : State) (j : Job) (weight : Nat) : State :=
  match j.who with
  | .cw id cw =>
    let s := s.modRead id fun r => { r with jobs := r.jobs - 1, weights := if j.step ≤ 1 then setWeight r.weights j.set weight else r.weights, failed := r.failed || (j.mode == .bf && j.step == r.step && j.set == r.set) }
    let s := if j.mode == .bf && s.on BLW_CTRL.HM_EN && ((s.readOf id).map (fun r => r.cws.any (fun c => c.cw == cw && c.res.open'))).getD false then
        (s.addJob { j with mode := .hm, sign := j.input, mag := flatMag j.input.length } (some j.order)).modRead id fun r => { r with jobs := r.jobs + 1 }
      else s
    s.readGo id
  | .rebuilt _ _ => s

/-! ### Ends of the read's operations -/

/-- A sense or transfer that ended without its data (R295). -/
def State.senseFailed (s : State) (id : Nat) : State :=
  match s.readOf id with
  | none => s
  | some r =>
    let s := s.dropOps (fun o => o.readId == some id)
    let s := s.modRead id fun r => { r with sensing := false, xfers := [], failed := true, softKept := false, counted := if r.step = 0 then r.counted + 1 else r.counted, waitsPool := false }
    if r.step = 2 || r.step = 3 then (s.dropNeeds (fun q => match q.use with | .soft i _ => i == id | _ => false)).readGo id
    else s.readGo id

/-- A sense has ended with its data in the page register: its code words are to be transferred (R291). -/
def State.senseDone (s : State) (id : Nat) : State :=
  match s.readOf id with
  | none => s
  | some r =>
    let s := s.modRead id fun r => { r with sensing := false, xfers := r.left }
    r.left.foldl (fun s cw => s.addOp (r.op rtReadXfer (.xfer id cw) cw (cw * s.cwBytes r.lun) 0 0)) s

/-- A code word has been transferred into staging. -/
def State.xferDone (s : State) (id cw : Nat) (o : Op) : State :=
  let n := lunChan o.loc.lun
  let h := o.v7.toNat
  match s.readOf id, s.stageOf n h with
  | some r, some g =>
    let s := s.modRead id fun r => { r with xfers := r.xfers.erase cw }
    if !r.left.contains cw then (s.dropStage n (fun g => g.handle == h)).readGo id
    else if r.raw then
      match r.direct with
      | some t =>
        let k := unitOf (s.tagOf t) r.plane cw
        let s := s.setUnit t r.plane cw fun c => { c with res := .ok 0 }
        let s := s.modRead id fun r => r.modCw cw fun c => { c with res := .ok 0 }
        ((s.freeStages r cw (some h)).sendUser t k g.bytes).readGo id
      | none => (s.cwEnd id cw (.ok 0))
    else if g.zeros ≤ s.geo (GEO_DK_ECHK.ERASED_MAX (s.kind r.lun)) then
      let s := s.bump BLW_CNT_ERASED.COUNT 1
      (if r.direct.isSome then s else s.freeStages r cw none).cwEnd id cw .erased
    else
      let s := s.addJob { who := .cw id cw, mode := .bf, tag := r.tag, loc := o.loc, input := g.bytes, ch := n, handle := h, set := r.set, step := r.step, sign := g.bytes, due := r.due } (some g.order)
      (s.modRead id fun r => { r with jobs := r.jobs + 1 }).readGo id
  | some r, none => if r.left.contains cw then s.senseFailed id else s.readGo id
  | none, _ => s.dropStage n (fun g => g.handle == h)

/-- A bit per bit position of n bytes: f of the number of senses that read it as 1 (R286). -/
def countPlane (senses : List (List Byte)) (n : Nat) (f : Nat → Bool) : List Byte :=
  (List.range n).map fun i =>
    let col := senses.map (fun l => l.getD i 0)
    BitVec.ofNat 8 (((List.range 8).map fun b => if f (col.countP (fun x => x.getLsbD b)) then 2 ^ b else 0).sum)

/-- Sign and magnitude of R286's table for n of 3 or of 5 senses. -/
def softSign (senses n : Nat) : Bool := decide (senses < 2 * n)
def softMag (senses n : Nat) : Nat := (if senses = 3 then [3, 1, 1, 3] else [6, 3, 1, 1, 3, 6]).getD n 0

/-- What lies in a Pool buffer is read back (R63). DESIGN CHOICE (log 39): the buffer is the block's alone, so what comes back is what was
written; an error response alone has an effect. -/
def State.fetchBack (s : State) (addr len : Nat) (c : Cont) : State :=
  (cutRun (len / 4096 + 2) (addr, len)).foldl (fun s p => s.ask (spoolRead 1 36 p.1 p.2 c)) s

/-- The senses of a soft read are staged: an erased word ends here (R283), else their counts go to the Pool buffer of the code word
(R293). Log entry 80: the senses of step 3 after a kept step 2 are the two that READ_SOFT brings; any sense at or below ERASED_MAX
makes the word erased. -/
def State.softDone (s : State) (id cw : Nat) (o : Op) : State :=
  let n := lunChan o.loc.lun
  let h := o.v7.toNat
  match s.readOf id, s.stageOf n h with
  | some r, some g =>
    if g.zeros ≤ s.geo (GEO_DK_ECHK.ERASED_MAX (s.kind r.lun)) then
      (((s.dropStage n (fun g => g.handle == h)).bump BLW_CNT_ERASED.COUNT 1).modRead id fun r => { r with xfers := r.xfers.erase cw }).cwEnd id cw .erased
    else
    let len := s.cwBytes r.lun
    let old := (r.cws.find? (fun c => c.cw == cw)).getD {}
    let kept := r.step == 3 && r.softKept && decide (g.soft.length ≤ 2)
    let senses := if kept then old.senses ++ g.soft else g.soft
    let data := (List.range (if r.step = 2 then 2 else 3)).flatMap fun k => countPlane senses len (·.testBit k)
    let a := s.bufAddr (.soft id cw)
    let centre := if kept then old.word else g.soft.getD (g.soft.length / 2) []
    let s := s.modRead id fun r => r.modCw cw fun c => { c with word := centre, senses := senses, order := g.order }
    let s := s.dropStage n (fun g => g.handle == h)
    (cutRun (data.length / 4096 + 2) (a, data.length)).foldl (fun s p =>
      s.ask (spoolWrite 1 36 p.1 ((data.drop (p.1 - a)).take p.2) (.stageSoft id cw))) s
  | some _, none => s.senseFailed id
  | none, _ => s.dropStage n (fun g => g.handle == h)

/-- Soft data of a code word is on its way to its buffer or back, or a failure of it waits. -/
def State.softOut (s : State) (id cw : Nat) : Bool :=
  let same := fun (q : Spool) => q.cont == .stageSoft id cw
  s.ready.any same || s.flying.any same || s.holds (.work (.stageSoft id cw))

/-- A transfer of a code word's soft data has met an error: the step fails for the word once its other pieces are back (R295, R400). -/
def State.softFail (s : State) (id cw : Nat) : State :=
  (s.modRead id fun r => { r.modCw cw (fun c => { c with lost := false }) with xfers := r.xfers.erase cw, softKept := false }).readGo id

def PRead.cwLost (r : PRead) (cw : Nat) : Bool := r.cws.any (fun c => c.cw == cw && c.lost)

/-- The soft data of a code word has reached its buffer: it is read back for its job (R63, R289). -/
def State.softStaged (s : State) (id cw : Nat) : State :=
  if s.softOut id cw then s
  else match s.readOf id with
    | none => s
    | some r =>
      if r.ended || !r.xfers.contains cw then s
      else if r.cwLost cw then s.softFail id cw
      else s.fetchBack (s.bufAddr (.soft id cw)) ((if r.step = 2 then 2 else 3) * s.cwBytes r.lun) (.stageSoft id cw)

/-- The soft data of a code word is back: its min-sum job enters the queue. -/
def State.softRead (s : State) (id cw : Nat) : State :=
  if s.softOut id cw then s
  else match s.readOf id with
    | none => s
    | some r =>
      if r.ended || !r.xfers.contains cw then s
      else if r.cwLost cw then s.softFail id cw
      else
        let c := (r.cws.find? (fun c => c.cw == cw)).getD {}
        let word := c.word
        let n := if r.step = 2 then 3 else 5
        let s := s.addJob { who := .cw id cw, mode := if r.step = 2 then .s2 else .s3, step := r.step, sign := countPlane c.senses word.length (softSign n), mag := (List.range 3).map (fun k => countPlane c.senses word.length (fun m => (softMag n m).testBit k)), tag := r.tag, loc := { lun := r.lun, eb := r.eb, page := r.page, planes := 2 ^ r.plane }, input := word, ch := lunChan r.lun, handle := 0, set := r.centre, due := r.due } (some c.order)
        (s.modRead id fun r => { r with xfers := r.xfers.erase cw, jobs := r.jobs + 1, softKept := true }).readGo id

/-- The unit of a read is fenced (R295, R311): step 4 where it may run, else the end. -/
def State.readFenced (s : State) (id : Nat) : State :=
  match s.readOf id with
  | none => s
  | some r =>
    if r.ended || r.fenced then s
    else
      let s := s.dropOps (fun o => o.readId == some id)
      let s := s.modRead id fun r => { r with fenced := true, sensing := false, xfers := [], waitsRlh := false }
      if r.member || r.raw || r.rebuilding then (if r.rebuilding then s else (s.giveUp id).readGo id)
      else (s.modRead id fun r => { r with rebuilding := true }).later (.step4 id)

/-! ### The start of a read -/

/-- A read of a plane page begins: the RLH lookup, then step 0 (R302, R303). -/
def State.startRead (s : State) (r : PRead) : State :=
  let (id, s) := s.newId
  let r := { r with id := id }
  let s := { s with reads := s.reads ++ [r] }
  if r.raw then s.startSense id 0 r.set0
  else if r.noRlh || s.geo GEO_RLH_CFG.EN = 0 then s.startSense id 0 (s.defaultSet r.lun)
  else
    let x := s.rlhIndex r.lun r.eb r.page
    match s.rlhEntry x, s.rlhLine (x / 16) with
    | some e, some l =>
      let s := (s.bump GEO_RLHC_HIT.COUNT 1).rlhTouch l
      let (p, st) := s.predict r.lun e
      let s := s.modRead id fun r => { r with predicted := p.isSome, stale := st }
      s.startSense id 0 (p.getD (s.defaultSet r.lun))
    | _, _ =>
      let s := (s.bump GEO_RLHC_MISS.COUNT 1).modRead id fun r => { r with waitsRlh := true }
      { s with rlh := { s.rlh with fills := s.rlh.fills ++ [(x / 16, id)] } }.askFill (x / 16)

/-- A read leaves its wait for a fill (R303). -/
def State.fillEnds (s : State) (id : Nat) (late : Bool) : State :=
  match s.readOf id with
  | none => s
  | some r =>
    if !r.waitsRlh then s
    else
      let line := s.rlhIndex r.lun r.eb r.page / 16
      let s := { s with rlh := { s.rlh with fills := s.rlh.fills.filter (fun f => f.2 != id), late := match late, r.tag with | true, some t => s.rlh.late ++ [(line, t)] | _, _ => s.rlh.late } }
      let s := if late then s.bump GEO_RLHC_LATE.COUNT 1 else s
      let s := s.modRead id fun r => { r with waitsRlh := false }
      let x := s.rlhIndex r.lun r.eb r.page
      match s.rlhEntry x with
      | some e =>
        let (p, st) := if late then (none, none) else s.predict r.lun e
        (s.modRead id fun r => { r with predicted := p.isSome, stale := st }).startSense id 0 (p.getD (s.defaultSet r.lun))
      | none => s.startSense id 0 (s.defaultSet r.lun)

/-- The RLH entry that a read leaves (R304, Table 8.8), at once or when its line has been filled; `step4` says that step 4 of the ladder
recovered a code word. -/
def State.rlhUpdate (s : State) (r : PRead) (step4 : Bool) : State :=
  let top := r.cws.foldl (fun (m : Option Nat) c => match c.res with
    | .ok k => if k = 4 then m else some (max k (m.getD 0))
    | _ => m) none
  match (if step4 then some 4 else top) with
  | none => s
  | some k =>
    if r.raw || r.noRlh || s.geo GEO_RLH_CFG.EN = 0 then s
    else
      let u : RlhUpd := { index := s.rlhIndex r.lun r.eb r.page, step := k, predicted := r.predicted, set := r.lastGood, centre := r.centre, epoch := epochNow s }
      if (s.rlhLine (u.index / 16)).isSome then s.rlhApply u
      else { s with rlh := { s.rlh with updates := s.rlh.updates ++ [u] } }.askFill (u.index / 16)

end Sys2Proof.Machine
end

