-- ==== Sys2Proof/Machine/Parity.lean ====
section
/-! DEFINITION. Stripe rows and parity accumulators (R312 to R322), and what each stripe row offers to a rebuild (R366). -/

namespace Sys2Proof.Machine

/-! ### Members and rows -/

/-- Stripe and member at a location: data members, then P (32) and Q (33). -/
def State.memberOf (s : State) (g e : Nat) : Option (Nat × Nat) :=
  s.stripes.findSome? fun (id, st) =>
    if st.state = 0 then none
    else ((memberIds st).find? (fun m => memberLun st m == g && memberEb st m == e)).map (fun m => (id, m))

def State.rowOf (s : State) (sid r : Nat) : Option Row := s.rows.find? (fun x => x.stripe == sid && x.row == r)
/-- A row closed without parity. -/
def State.rowBare (s : State) (sid r : Nat) : Bool := ((s.rowOf sid r).map (·.noParity)).getD false
/-- A member's page of a row is parity, and no pad of a row closed without it (R317, R335). -/
def State.parityPage (s : State) (sid r m : Nat) : Bool := decide (m ≥ 32) && !s.rowBare sid r
/-- Change the record of a row; a row without one (complete, its parity on the medium) stays without. -/
def State.modRow (s : State) (sid r : Nat) (f : Row → Row) : State :=
  { s with rows := s.rows.map (fun x => if x.stripe == sid && x.row == r then f x else x) }
/-- The record of a row is made as its first slot is taken. -/
def State.openRow (s : State) (sid r : Nat) : State :=
  if (s.rowOf sid r).isSome then s else { s with rows := s.rows ++ [{ stripe := sid, row := r }] }

/-- All data slots of a row, as a mask. -/
def dataMask (st : Stripe) : Nat := 2 ^ st.ndata - 1
def parMask (st : Stripe) : Nat := 2 ^ st.npar - 1

/-- Code words of a member page of the stripe, as (plane, index), in transfer order. -/
def State.slotUnits (s : State) (st : Stripe) : List (Nat × Nat) :=
  (planeList st.planes).flatMap fun p => (List.range (s.ncw (stripeLun st))).map fun c => (p, c)

/-- A data slot's code words have been folded (R320); its first pass has verified. A row without a record is complete when its
slots have all been taken. -/
def State.slotFolded (s : State) (sid r m : Nat) : Bool := match s.rowOf sid r with
  | some x => x.folded.testBit m
  | none => decide (r < (s.stripeOf sid).nextRow)
def State.slotVerified (s : State) (sid r m : Nat) : Bool := match s.rowOf sid r with
  | some x => if m < 32 then x.verified.testBit m else x.parFirst.testBit (m - 32)
  | none => decide (r < (s.stripeOf sid).nextRow)
/-- A parity member's last pass has verified. -/
def State.parReadable (s : State) (sid r m : Nat) : Bool := match s.rowOf sid r with
  | some x => x.parLast.testBit (m - 32) && !x.noParity
  | none => decide (r < (s.stripeOf sid).nextRow)

/-- No pass record and no horizon keeps a page from being read (R324, R328). -/
def State.pageReadable (s : State) (g e q : Nat) : Bool :=
  !(s.lunOf g).recs.any (fun x => x.eb == e && x.page == q)
    && (match (s.lunOf g).horizon with | some (e', h) => e' != e || decide (q < h) | none => true)

/-! ### Accumulators -/

def State.accOf (s : State) (sid r : Nat) : Option Acc := s.accs.find? (fun a => a.stripe == sid && a.row == r)
def State.modAcc (s : State) (sid r : Nat) (f : Acc → Acc) : State :=
  { s with accs := s.accs.map (fun a => if a.stripe == sid && a.row == r then f a else a) }
/-- The accumulator can be folded into. -/
def State.accReady (s : State) (sid r : Nat) : Bool := match s.accOf sid r with
  | some a => a.chip || !a.asked
  | none => false
def State.accBytes (s : State) (st : Stripe) : Nat := st.npar * s.slotCws st * infoBytes
def stripeOwner (sid : Nat) : Nat := 0x1000 + sid

/-- An on-chip accumulator is free. -/
def State.accFree (s : State) : Bool := s.usable pdPar && decide (s.accs.countP (·.chip) < 32)

/-- A row that needs an accumulator takes one, or has one spilled, or asks for a buffer of its own (R319, R321). -/
def State.needAcc (s : State) (sid r : Nat) : State :=
  if (s.accOf sid r).isSome then s
  else
    let st := s.stripeOf sid
    let n := s.slotCws st
    let fresh : Acc := { stripe := sid, row := r, p := List.replicate n [], q := if st.npar = 2 then List.replicate n [] else [] }
    if s.accFree then { s with accs := s.accs ++ [fresh] }
    else
      let done := s.accs.filter (fun a => a.chip && a.complete != 0)
      if done.any (·.asked) then s
      else match done.find? (fun a => done.all (fun b => decide (a.complete ≤ b.complete))) with
        | some a => (s.modAcc a.stripe a.row fun a => { a with asked := true }).need
            (classFor (s.accBytes (s.stripeOf a.stripe))) (stripeOwner a.stripe) (.spill a.stripe a.row)
        | none => { s with accs := s.accs ++ [{ fresh with chip := false, asked := true }] }.need
            (classFor (s.accBytes st)) (stripeOwner sid) (.spill sid r)

/-- Requests of the parity engine to a spill buffer, 4 KiB at a time (R321). -/
def State.spillMove (s : State) (sid r : Nat) (tag : Option Nat) (addr : Nat) (w : Bool) (data : List Byte) : State :=
  (cutRun (data.length / 4096 + 2) (addr, data.length)).foldl (fun s p =>
    s.ask (if w then spoolWrite 1 36 p.1 ((data.drop (p.1 - addr)).take p.2) (.spill sid r tag)
      else spoolRead 1 36 p.1 p.2 (.spill sid r tag))) s

/-- A spill buffer is granted: an on-chip accumulator moves into it, or a row that waited has its place. -/
def State.spillGranted (s : State) (sid r : Nat) : State :=
  let a := s.bufAddr (.spill sid r)
  match s.accOf sid r with
  | some x =>
    let s' := s.modAcc sid r fun y => { y with chip := false, asked := false, addr := a }
    if x.chip then s'.spillMove sid r none a true ((x.p ++ x.q).flatMap (fitBytes infoBytes)) else s'
  | none => s.freeUse (.spill sid r)

/-- Fold the stored form of a data code word into its row (R316, R320); a second fold of the same bytes removes it (R377). -/
def State.fold (s : State) (sid r m : Nat) (tag : Option Nat) (i : Nat) (d : List Byte) : State :=
  match s.accOf sid r with
  | none => s
  | some a =>
    let p := foldP (a.p.getD i []) d
    let q := foldQ m (a.q.getD i []) d
    let s := s.modAcc sid r fun a => { a with p := a.p.set i p, q := a.q.set i q }
    if a.chip || a.lost then s
    else
      let n := a.p.length
      let s := (s.spillMove sid r tag (a.addr + i * infoBytes) false p).spillMove sid r tag (a.addr + i * infoBytes) true p
      if a.q.isEmpty then s
      else (s.spillMove sid r tag (a.addr + (n + i) * infoBytes) false q).spillMove sid r tag (a.addr + (n + i) * infoBytes) true q

/-- Fold every code word of a slot. -/
def State.foldSlot (s : State) (sid r m : Nat) (tag : Option Nat) (data : List (List Byte)) : State :=
  data.zipIdx.foldl (fun s (d, i) => s.fold sid r m tag i d) s

/-- A row's accumulator is released, its spill buffer given back (R319, R405). DESIGN CHOICE (log 88): a rebuild that has taken P and Q
from it, on chip or shared, keeps their words. -/
def State.releaseAcc (s : State) (sid r : Nat) : State :=
  match s.accOf sid r with
  | none => s
  | some a =>
    let s := { s with accs := s.accs.filter (fun a => !(a.stripe == sid && a.row == r)),
                      racs := s.racs.map (fun (k : Rac) => if k.stripe = sid && k.page = r && k.kept.isNone && k.srcs.any (fun x => x.st == 4) then { k with kept := some a } else k) }
    let s := s.dropNeeds (fun q => q.use == .spill sid r)
    if a.chip || a.asked || a.lost then s else s.releaseBuf (stripeOwner sid) a.addr

/-- A parity code word in stored form, from the accumulator (R317). -/
def State.parityWord (s : State) (sid r m i : Nat) : List Byte :=
  let k := s.ldpcM (memberLun (s.stripeOf sid) m)
  match s.accOf sid r with
  | some a => let x := fitBytes infoBytes ((if m = 32 then a.p else a.q).getD i []); x ++ ldpcParity k x
  | none => let x := List.replicate infoBytes 0; x ++ ldpcParity k x

/-- Parity member m's bytes of a spilled row are read through Spool port 1 (R321). -/
def State.readAcc (s : State) (sid r m : Nat) : State :=
  match s.accOf sid r with
  | some a =>
    if a.chip || a.asked || a.lost then s
    else
      let n := a.p.length
      s.spillMove sid r none (a.addr + (if m = 32 then 0 else n) * infoBytes) false (List.replicate (n * infoBytes) 0)
  | none => s

/-! ### Sources of a rebuild (R366) -/

def State.lunUp (s : State) (g : Nat) : Bool := s.declared g && !s.isFenced g

/-- The sources for slot `me` of a row, none when the row is not eligible. A parity page (REBUILD, R454) comes from every data
slot. -/
def State.racSources (s : State) (sid r me : Nat) (useAcc : Bool) : Option (List Src) :=
  let st := s.stripeOf sid
  let acc := useAcc && (s.accOf sid r).isSome
  let data := ((List.range st.ndata).filter (fun m => m != me && s.slotFolded sid r m)).map fun m =>
    let g := memberLun st m
    let e := memberEb st m
    ({ member := m, lun := g, eb := e, st := if s.slotVerified sid r m && s.pageReadable g e r && s.lunUp g then 1 else 0 } : Src)
  let par := ((List.range st.npar).map (fun k => 32 + k)).map fun m =>
    let g := memberLun st m
    let e := memberEb st m
    ({ member := m, lun := g, eb := e,
       st := if acc then 4 else if s.parReadable sid r m && s.pageReadable g e r && s.lunUp g then 1 else 0 } : Src)
  let l := if me < 32 then data ++ par else data
  let gone := l.countP (fun x => x.st == 0)
  if st.state = 0 || st.degraded || st.parityLost || (me < 32 && !s.slotFolded sid r me) || decide (gone > (if me < 32 then st.npar - 1 else 0)) then none else some l

end Sys2Proof.Machine
end

