-- ==== Sys2Proof/Machine/Phy.lean ====
section
/-! DEFINITION. The PHY side (spec/03_flash_channel_interface.md): the APPLY step, impedance calibration, training, drift
tracking, PLLs and ready/busy inputs. -/

namespace Sys2Proof.Machine

/-! ### Values in force -/

/-- Interface mode in force: 0 SDR, 1 NV-DDR3, 2 NV-LPDDR4. -/
def State.ifNow (s : State) (n : Nat) : Nat := modeIf (s.chanOf n).mode
def State.ddr (s : State) (n : Nat) : Bool := s.ifNow n != 0
/-- An untrained channel (R101); outcomes 0x08 and 0x09 leave every channel so. -/
def State.untrained (s : State) (n : Nat) : Bool :=
  (s.ddr n && !s.on (CH_MODE_STAT.TRAINED n)) || (s.chanOf n).applyBad
/-- Rates of Table 3.5 in MT/s. -/
def rateMT (r : Nat) : Nat :=
  match r with
  | 0 => 800 | 1 => 1000 | 2 => 1200 | 3 => 1400 | 4 => 1600 | 8 => 2400 | 9 => 2800 | 10 => 3200 | 11 => 3600
  | _ => 0
/-- A time field of v ns in generator ticks (R105). -/
def ticksOf (rate v : Nat) : Nat := max 1 ((v * rate + 1999) / 2000)

/-- Whether routines run, are parked, or operations are in flight or suspended on a channel. -/
def State.chanQuiet (s : State) (n : Nat) : Bool :=
  (s.ctxOf n).state == 0 && (s.chanOf n).lane.isEmpty &&
  (chanLuns n).all fun g => !(s.lunOf g).inFlight && !(s.lunOf g).suspended && (s.lunOf g).park.isNone
/-- The pads take no cycle from the op lane: in the safe state (R130), while a long calibration runs (R107), and from step 3 of
an APPLY to its training (R99). -/
def State.padsHeld (s : State) (n : Nat) : Bool :=
  s.on (CH_MODE_STAT.SAFE n) || (s.quadOf (chanQuad n)).zqRuns || (decide (3 ≤ (s.quadOf (chanQuad n)).apply) && decide ((s.quadOf (chanQuad n)).apply ≤ 5))
/-- An untrained channel outside an APPLY step and a training run: it issues no die operation (R101). -/
def State.deadChan (s : State) (n : Nat) : Bool :=
  s.untrained n && (s.quadOf (chanQuad n)).apply == 0 && (s.chanOf n).training == 0
def State.quadQuiet (s : State) (q : Nat) : Bool := (quadChans q).all s.chanQuiet

/-- Targets that training may use (R116). -/
def State.trainTargets (s : State) (n : Nat) : List Nat :=
  (List.range 8).filter fun t => (s.get (CH_TRAIN_CTRL.TGT_MASK n)).testBit t && modeCe (s.chanOf n).mode t

/-! ### The APPLY step (R99 to R101) -/

def modeIfW (w : Word32) : Nat := fld w 31 30

/-- The checks of Table 3.6, reasons 0x01 to 0x07: the first that fails, and its channel within the quad. -/
def State.applyCheck (s : State) (q : Nat) : Option (Nat × Nat) :=
  let rate := s.get (PHY_CTRL.RATE q)
  let chans := [0, 1, 2, 3]
  let m := fun c => s.reg (CH_MODE.adr (4 * q + c))
  let t4 := fun c => s.reg (CH_TIM4.adr (4 * q + c))
  let find := fun (code : Nat) (p : Nat → Bool) => (chans.find? p).map (fun c => (code, c))
  (if rateReserved rate then some (1, 0) else none)
  <|> find 2 (fun c => bit (m c) 0 && ((modeIfW (m c) == 1 && decide (rate ≥ 8)) || (modeIfW (m c) == 2 && decide (rate < 8))))
  <|> find 3 (fun c => modeIfW (m c) == 3 || decide (fld (m c) 29 27 ≥ 6))
  <|> find 4 (fun c => decide (fld (m c) 26 24 ≥ 3) || decide (fld (m c) 23 21 ≥ 5))
  <|> find 5 (fun c => fld (t4 c) 31 28 == 0 || fld (t4 c) 27 24 == 0 || fld (t4 c) 23 20 == 0 || fld (t4 c) 19 16 == 0
      || decide (fld (t4 c) 7 4 ≥ 4) || decide (fld (t4 c) 3 0 ≥ 4))
  <|> find 6 (fun c => (chanLuns (4 * q + c)).any fun g => s.declared g && !(bit (m c) 0 && bit (m c) (8 + lunTarget g)))
  <|> (if s.on TET_PWRFAIL.LATCH then some (7, 0) else none)

/-- The step ends: outcome, and Bridle resumes. DESIGN CHOICE (log entry 93): CHAN reads 0 after an outcome that concerns no channel. -/
def State.applyEnd (s : State) (q reason chan : Nat) : State :=
  let s := ((s.put (PHY_STAT.REASON q) reason).put (PHY_STAT.CHAN q) chan).put (PHY_STAT.APPLY_BUSY q) 0
  s.modQuad q fun x => { x with apply := 0, applyHeld := false, applyFail := 0 }

/-- Channel code 0x05 with EV_PHY_FAULT (R101, Table 13.4). -/
def State.leftUntrained (s : State) (n reason : Nat) (tell : Bool) : State :=
  let ctx := s.get (CH_TRAIN_STAT.FAIL_BITS n) + s.get (CH_TRAIN_STAT.FAIL_STEP n) * 2 ^ 8 + reason * 2 ^ 12
  let s := if h : n < 32 then s.fault (.chan ⟨n, h⟩) 5 2 ctx else s
  if tell then s.evPhyFault n 0x3FF 0xFFF 1 reason else s

/-- Outcomes 0x08 and 0x09: values stay in force, the pads take the safe state, every channel is untrained. -/
def State.applyDead (s : State) (q reason : Nat) : State :=
  let s := s.applyEnd q reason 0
  s.each (quadChans q) fun s n =>
    let s := s.modChan n fun c => { c with applyBad := true }
    let s := if s.ddr n then s.put (CH_MODE_STAT.TRAINED n) 0 else s
    (s.enterSafe n).leftUntrained n reason true

/-- EV_PLL_SWITCH of a switch-over whose lost PLL has not relocked so far: an APPLY step, the loss of the other PLL or the quad's power-down
comes first (R452). DEDUCED (log 91): it then reports no standby. -/
def State.switchTold (s : State) (q : Nat) : State :=
  let x := s.quadOf q
  if x.relocking && s.on (PHY_STAT.LOCK q) then
    (s.modQuad q fun x => { x with relocking := false }).evQuad q 2 2 (x.pll + x.losses.getD x.lostPll 0 % 256 * 4)
  else s

/-- Step 3: the stored values come into force and both PLLs relock. -/
def State.applyForce (s : State) (q : Nat) : State :=
  let s := s.switchTold q
  let s := s.put (PHY_STAT.RATE_NOW q) (s.get (PHY_CTRL.RATE q))
  let s := s.each (quadChans q) fun s n =>
    let m := s.reg (CH_MODE.adr n)
    let s := s.modChan n fun c => { c with mode := m, tim := [CH_TIM0.adr n, CH_TIM1.adr n, CH_TIM2.adr n, CH_TIM3.adr n, CH_TIM4.adr n].map s.reg }
    let s := ((s.put (CH_MODE_STAT.IF_NOW n) (modeIfW m)).put (CH_MODE_STAT.TM_NOW n) (fld m 29 27)).put (CH_MODE_STAT.TRAINED n) (modeIfW m == 0).toNat
    if bit m 0 then s else s.enterSafe n
  let s := (s.put (PHY_STAT.LOCK q) 0).put (PHY_STAT.STBY_LOCK q) 0
  s.modQuad q fun x => { x with apply := 3, applyHeld := true, relocking := true, locked := 0, calDone := false, zqRuns := false }

/-- A channel's drift period starts again from zero (R468). -/
def State.driftRestart (s : State) (n : Nat) : State := (s.put (CH_DRIFT_STAT.PHYF n) 0).modChan n fun c => { c with burst := false }
/-- A quad returns to ACTIVE (R463, R468). -/
def State.quadBack (s : State) (q : Nat) : State := (s.setQstate q 0).each (quadChans q) State.driftRestart

/-- The APPLY write (R99, R100). -/
def State.applyStart (s : State) (q : Nat) : State :=
  if s.on (PHY_STAT.APPLY_BUSY q) then s
  else
    let s := if s.qstate q = 1 then s.quadBack q else s
    (s.put (PHY_STAT.APPLY_BUSY q) 1).modQuad q fun x => { x with apply := 1, applyFail := 0 }

/-- Step 1 has ended. -/
def State.applyDrained (s : State) (q : Nat) : State :=
  if (s.quadOf q).apply = 1 && s.quadQuiet q then
    match s.applyCheck q with
    | some (r, c) => s.applyEnd q r c
    | none => s.applyForce q
  else s

/-- Step 7, once no training of the step runs. -/
def State.applyFinish (s : State) (q : Nat) : State :=
  if (s.quadOf q).apply = 6 && (quadChans q).all (fun n => (s.chanOf n).training == 0) then
    let bad := (s.quadOf q).applyFail
    let failed := (List.range 4).filter (fun c => bad.testBit c)
    match failed with
    | [] => s.applyEnd q 0 0
    | c :: _ =>
      let s := s.applyEnd q 0x0A c
      s.each failed fun s c => s.leftUntrained (4 * q + c) 0x0A true
  else s

/-- Step 6: the selected steps run on every enabled DDR channel; one without a target fails at once (R116). DESIGN CHOICE (log
77): a START or refresh run still under way on a channel goes on as the APPLY step's run. -/
def State.applyTrain (s : State) (q : Nat) : State :=
  if (s.quadOf q).apply = 5 && !(s.quadOf q).applyHeld then
    let s := s.modQuad q fun x => { x with apply := 6 }
    let s := s.each [0, 1, 2, 3] fun s c =>
      let n := 4 * q + c
      if bit (s.chanOf n).mode 0 && s.ddr n then
        if (s.trainTargets n).isEmpty then
          let s := s.setReg (CH_TRAIN_STAT.adr n) (putFld (putFld (s.reg (CH_TRAIN_STAT.adr n)) 31 29 1) 27 16 0)
          s.modQuad q fun x => { x with applyFail := x.applyFail ||| 2 ^ c }
        else (s.put (CH_TRAIN_STAT.BUSY n) 1).modChan n fun x => { x with training := 3 }
      else s
    s.applyFinish q
  else s

/-- The PLLs have locked (step 3, or the wake of the quad). -/
def State.pllLock (s : State) (q : Nat) : State :=
  let r := (s.quadOf q).retired
  let ok : BitVec 2 := ~~~ r
  let run := if bit ok (s.quadOf q).pll then (s.quadOf q).pll else 1 - (s.quadOf q).pll
  let s := s.modQuad q fun x => { x with relocking := false, locked := ok, pll := run }
  (s.put (PHY_STAT.LOCK q) 1).put (PHY_STAT.STBY_LOCK q) (bit ok (1 - run)).toNat

/-! ### Impedance calibration (R107 to R109) -/

/-- The codes that ZQ_STAT shows reach a channel's pads (R108). -/
def State.zqTake (s : State) (n : Nat) : State :=
  let q := chanQuad n
  s.modChan n fun c => { c with zq := [s.get (ZQ_STAT.PU_CODE q), s.get (ZQ_STAT.PD_CODE q), s.get (ZQ_STAT.ODT_CODE q)], zqDue := none }
/-- New codes wait for a moment with CE_N high on every target of the channel (R108). -/
def State.zqLook (s : State) (n : Nat) : State :=
  if (s.chanOf n).zqDue.isSome && (s.chanOf n).pads.ceN == 0xFF then s.zqTake n else s
/-- A transfer boundary: codes that have found no such moment within 1 ms are taken (R108). -/
def State.zqBoundary (s : State) (n : Nat) : State :=
  match (s.chanOf n).zqDue with
  | some t => if t + 1000 ≤ s.us then s.zqTake n else s
  | none => s

/-- A calibration that START asked for begins at an idle boundary: no bus cycle is under way on the quad (R107). DESIGN CHOICE
(log 77): BUSY is 1 from START on. -/
def State.zqBegin (s : State) (q : Nat) : State :=
  let x := s.quadOf q
  if x.zqWanted && !x.zqRuns && x.apply == 0 && (quadChans q).all (fun n => (s.chanOf n).lane.isEmpty) then
    s.modQuad q fun x => { x with zqRuns := true } else s

/-- Codes of a long calibration come into force. -/
def State.calCodes (s : State) (q : Nat) (r : CalReport) : State :=
  let s := ((s.put (ZQ_STAT.PU_CODE q) r.pu.toNat).put (ZQ_STAT.PD_CODE q) r.pd.toNat).put (ZQ_STAT.ODT_CODE q) r.odt.toNat
  let s := s.put (ZQ_STAT.FAIL q) (r.puOver || r.pdOver || r.odtOver).toNat
  let s := (s.put (ZQ_STAT.BUSY q) 0).modQuad q fun x => { x with calDone := true, zqWanted := false, zqRuns := false }
  s.each (quadChans q) State.zqTake

/-- One step of a code toward the value sought; none when the step would leave 0 to 63. -/
def calStep (now want : Nat) (past : Bool) : Option Nat :=
  if past && now = want then none else some (if now < want then now + 1 else if want < now then now - 1 else now)

/-- A short calibration (R108, R109). DESIGN CHOICE (log 77): ZQ_STAT shows the new codes from here on, also while a channel's pads still use
the old ones. -/
def State.shortCal (s : State) (q : Nat) (r : CalReport) : State :=
  let pu := calStep (s.get (ZQ_STAT.PU_CODE q)) r.pu.toNat r.puOver
  let pd := calStep (s.get (ZQ_STAT.PD_CODE q)) r.pd.toNat r.pdOver
  let odt := calStep (s.get (ZQ_STAT.ODT_CODE q)) r.odt.toNat r.odtOver
  let setC := fun (s : State) (f : Fld) (v : Option Nat) => match v with | some x => s.put f x | none => s
  let s := setC (setC (setC s (ZQ_STAT.PU_CODE q) pu) (ZQ_STAT.PD_CODE q) pd) (ZQ_STAT.ODT_CODE q) odt
  let s := s.each (quadChans q) fun s n => (s.modChan n fun c => { c with zqDue := c.zqDue <|> some s.us }).zqLook n
  let bad := pu.isNone || pd.isNone || odt.isNone
  let s := s.put (ZQ_STAT.FAIL q) bad.toNat
  if bad then
    s.each (quadChans q) fun s n =>
      let s := if h : n < 32 then s.fault (.chan ⟨n, h⟩) 0x0B 1 (pu.isNone.toNat + pd.isNone.toNat * 2 + odt.isNone.toNat * 4) else s
      s.evPhyFault n 0x3FF 0xFFF 2 0
  else s

/-! ### Training (R113 to R118) -/

/-- Alignment of one byte lane (R117): (centre, per-bit delays, width), or the failing bits. -/
structure Align where
  centre : Nat
  x : List Nat
  width : Int
  bad : Nat
deriving DecidableEq, Repr

def align (w : List Window) : Align :=
  let lo := w.map (·.lo)
  let late := lo.foldl max 0
  let x := lo.map (fun l => late - l)
  let tops := (w.zip x).map (fun p => p.1.hi + p.2)
  let top := tops.tail.foldl min (tops.headD 0)
  let bits := ((x.zip tops).zipIdx.map (fun p =>
    if p.1.1 > 63 || decide ((p.1.2 : Int) - late < 16) then 2 ^ p.2 else 0)).sum
  { centre := (late + top) / 2, x := x, width := (top : Int) - late, bad := bits % 256 }

/-- Windows of several targets intersected bit by bit (R115); a bit with no window measured has none. -/
def meetWin (l : List (List Window)) : List Window :=
  (List.range 8).map fun b =>
    let ws := l.map (fun t => t.getD b { lo := 0, hi := 0 })
    { lo := (ws.map (·.lo)).foldl max 0, hi := (ws.map (·.hi)).tail.foldl min ((ws.map (·.hi)).headD 0) }

/-- The widest alignment, the first on a tie. -/
def widest (l : List (Nat × Align)) : Option (Nat × Align) :=
  l.foldl (fun b a => match b with
    | none => some a
    | some y => if a.2.width > y.2.width then some a else some y) none

/-- The alignment kept among levels (R118): the widest, the lower level on a tie; one that passes before one that fails (DEDUCED,
log 53). -/
def bestAlign (l : List (Nat × Align)) : Option (Nat × Align) :=
  widest (l.filter (fun a => a.2.bad == 0)) <|> widest l

/-- Delay registers of a direction: the eight per-bit delays. -/
def State.putDelays (s : State) (a : Nat) (x : List Nat) : State :=
  let word := fun k => BitVec.ofNat 32 (((List.range 4).map fun i => x.getD (4 * k + i) 0 % 64 * 256 ^ i).sum)
  (s.setReg a (word 0)).setReg (a + 4) (word 1)

/-- Outcome of the steps of a run: the failed step (1 to 4) and bits, none when all pass. DESIGN CHOICE (log 77): R115
intersects windows of bits and says nothing of the gate, one position for the channel; over the targets `ts` it is the latest
preamble edge E of them plus TRPRE × 64 (R117). -/
def State.trainGate (s : State) (n : Nat) (ts : List Nat) (r : TrainReport) : Option (Nat × Nat) × State :=
  let edges := ts.map (fun t => r.gate.getD t none)
  let tim4 := (s.chanOf n).tim.getD 4 0
  let t0 := ticksOf (rateMT (s.get (PHY_STAT.RATE_NOW (chanQuad n)))) (fld tim4 15 8) * 128
  if edges.isEmpty || edges.any (fun g => match g with | none => true | some e => decide (e > 16 * 128)) then (some (2, 0), s)
  else
    let e := (edges.filterMap id).foldl max 0
    let tot := t0 + e + fld tim4 31 28 * 64
    let s := s.put (CH_RGATE.FINE n) (tot % 128)
    if tot / 128 < 16 then (none, s.put (CH_RGATE.COARSE n) (tot / 128))
    else let (v, s) := s.draw; (none, s.put (CH_RGATE.COARSE n) v.toNat)

def State.trainRead (s : State) (n : Nat) (ts : List Nat) (r : TrainReport) (levels : List Nat) : Option (Nat × Nat) × State :=
  let l := levels.zipIdx.map fun (lv, i) => (lv, align (meetWin (ts.map (fun t => (r.read.getD t []).getD i []))))
  match bestAlign l with
  | none => (some (3, 0xFF), s)
  | some (lv, a) =>
    if a.bad != 0 then (some (3, a.bad), s)
    else (none, ((s.put (CH_RXVREF.LEVEL n) lv).put (CH_RDQS.DLY n) (a.centre % 256)).putDelays (CH_RDQ_DLY0.adr n) a.x)

def State.trainWrite (s : State) (n : Nat) (ts : List Nat) (r : TrainReport) : Option (Nat × Nat) × State :=
  let a := align (meetWin (ts.map (fun t => r.write.getD t [])))
  if a.bad != 0 then (some (4, a.bad), s)
  else (none, (s.put (CH_WDQS.DLY n) (a.centre % 256)).putDelays (CH_WDQ_DLY0.adr n) a.x)

/-- Run a step when it is selected and no earlier one failed. -/
def trainStep (go : Bool) (f : State → Option (Nat × Nat) × State) (p : Option (Nat × Nat) × State) : Option (Nat × Nat) × State :=
  if go && p.1.isNone then f p.2 else p

/-- The steps of Table 3.17 in order, over the targets of R116; `refresh` runs the read gate and the read deskew at the level in
force, on the lowest-numbered of them (R115). -/
def State.trainSteps (s : State) (n : Nat) (refresh : Bool) (r : TrainReport) : Option (Nat × Nat) × State :=
  let ts := if refresh then (s.trainTargets n).take 1 else s.trainTargets n
  let st := s.get (CH_TRAIN_CTRL.STEPS n)
  let p := trainStep (!refresh && st.testBit 0 && s.ifNow n == 2) (fun s => (if r.dccOk then none else some (1, 0), s)) (none, s)
  let p := trainStep (refresh || st.testBit 1) (fun s => s.trainGate n ts r) p
  let p := trainStep (refresh || st.testBit 2)
    (fun s => s.trainRead n ts r (if refresh then [s.get (CH_RXVREF.LEVEL n)] else [8, 10, 12, 14, 16, 18, 20, 22])) p
  trainStep (!refresh && st.testBit 3) (fun s => s.trainWrite n ts r) p

/-- RETRAIN with EV_TRAIN_DRIFT (R122). -/
def State.retrain (s : State) (n code : Nat) : State := (s.put (CH_DRIFT_STAT.RETRAIN n) 1).evTrainDrift n code

/-- A PLL switch-over of the quad ends once its refresh trainings have (R452). -/
def State.updQuadRec (s : State) (q : Nat) : State :=
  s.put (fltRecovering (Q_FLT_FIRST.adr q)) ((s.quadOf q).takeover || (s.quadOf q).switching).toNat
def State.switchEnd (s : State) (q : Nat) : State :=
  if (s.quadOf q).switching && (quadChans q).all (fun n => (s.chanOf n).training != 2) then
    (s.modQuad q fun x => { x with switching := false }).updQuadRec q
  else s

/-- Target t of a channel is in TGT_MASK. -/
def State.inMask (s : State) (n t : Nat) : Bool := (s.get (CH_TRAIN_CTRL.TGT_MASK n)).testBit t

/-- A routine of the channel's training run executes. -/
def State.trainRuns (s : State) (n : Nat) : Bool :=
  (s.ctxOf n).state != 0 && (s.ctxOf n).op.role == Role.train && (s.ctxOf n).routine != 0x13

/-- No other routine executes on the channel, and no LUN of a target in TGT_MASK has an operation in flight or suspended (R114). -/
def State.trainClear (s : State) (n : Nat) : Bool :=
  (s.trainRuns n || ((s.ctxOf n).state == 0 && (s.chanOf n).lane.isEmpty)) && (chanLuns n).all fun g =>
    !s.inMask n (lunTarget g) || (!(s.lunOf g).inFlight && !(s.lunOf g).suspended && (s.lunOf g).park.isNone)

/-- Polls, transfers and the other routines of LUN g wait for a training run of its channel (R114). DEDUCED (log 77): until the
run's wait is over, the routines of the targets in TGT_MASK that it waits for go on, since the wait could not end without them. -/
def State.trainHolds (s : State) (g : Nat) : Bool :=
  let n := lunChan g
  (s.chanOf n).training != 0 && (!s.inMask n (lunTarget g) || s.trainClear n)

/-- A training run of a kind ends with what its routines have measured (R115 to R118). -/
def State.trainDone (s : State) (n kind : Nat) (r : TrainReport) : State :=
  let (bad, s) := s.trainSteps n (kind == 2) r
  let s := s.modChan n fun c => { c with training := 0 }
  let s := (s.put (CH_TRAIN_STAT.BUSY n) 0).bump (CH_TRAIN_STAT.COUNT n) 1
  let s := (s.put (CH_TRAIN_STAT.PASS n) bad.isNone.toNat).put (CH_TRAIN_STAT.FAIL n) bad.isSome.toNat
  let s := (s.put (CH_TRAIN_STAT.FAIL_STEP n) (bad.getD (0, 0)).1).put (CH_TRAIN_STAT.FAIL_BITS n) (bad.getD (0, 0)).2
  let s := s.put (CH_MODE_STAT.TRAINED n) bad.isNone.toNat
  let s := if bad.isNone && kind != 2 then
      (s.put (CH_DRIFT_STAT.MOVED n) 0).modChan n fun c => { c with moves := List.replicate 8 0 } else s
  let q := chanQuad n
  if kind = 3 then
    (if bad.isSome then s.modQuad q fun x => { x with applyFail := x.applyFail ||| 2 ^ (n % 4) } else s).applyFinish q
  else
    let s := if bad.isSome then s.leftUntrained n (s.get (PHY_STAT.REASON q)) false else s
    (s.switchEnd q).applyFinish q

/-- The conditions of R113 but for the target. -/
def State.trainOk (s : State) (n : Nat) : Bool :=
  s.ddr n && bit (s.chanOf n).mode 0 && !s.on (PHY_STAT.APPLY_BUSY (chanQuad n)) && !s.on TET_PWRFAIL.LATCH
    && !s.on (CH_FLT_CTRL.FENCED n) && !s.on (Q_FLT_CTRL.FENCED (chanQuad n)) && !(s.trainTargets n).isEmpty

/-- START (R113). DESIGN CHOICE (log 77): one that meets every condition of R113 while a run is under way changes nothing. -/
def State.trainStart (s : State) (n : Nat) : State :=
  if s.trainOk n && (s.chanOf n).training != 0 then s
  else if s.trainOk n then
    let s := if s.qstate (chanQuad n) = 1 then s.quadBack (chanQuad n) else s
    (s.put (CH_TRAIN_STAT.BUSY n) 1).modChan n fun c => { c with training := 1 }
  else (s.put (CH_TRAIN_STAT.FAIL n) 1).put (CH_TRAIN_STAT.FAIL_STEP n) 0

/-- Refresh training of a trained DDR channel, or its skip (R115, R116); none starts in hold-up (R478). -/
def State.refresh (s : State) (n : Nat) : State :=
  if !(s.ddr n && s.on (CH_MODE_STAT.TRAINED n)) || s.on TET_PWRFAIL.LATCH then s
  else if (s.trainTargets n).isEmpty then s.retrain n 0
  else (s.put (CH_TRAIN_STAT.BUSY n) 1).modChan n fun c => { c with training := 2 }

/-! ### Drift tracking (R120 to R122) -/

/-- Field of the per-bit read delay of bit b. -/
def rdqBit (n b : Nat) : Fld := ⟨CH_RDQ_DLY0.adr n + 4 * (b / 4), 8 * (b % 4) + 5, 8 * (b % 4)⟩

/-- One bit at the end of a period: its delay, its movement, and the CODE bits found. A disagreement of the early sampler
takes the delay down, of the late sampler up. DESIGN CHOICE (log 77): MOVED and LIMIT count tracking's own moves alone; refresh training
and a software write of the delays neither add to the sum nor clear it. -/
def State.driftBit (s : State) (n b early late : Nat) : Nat × State :=
  if early > 0 && late > 0 then (4, s)
  else if early < 4 && late < 4 then (0, s)
  else
    let d : Int := if early ≥ 4 then -1 else 1
    let v : Int := s.get (rdqBit n b) + d
    let mv := (s.chanOf n).moves.getD b 0 + d
    if v < 0 || v > 63 then (2, s)
    else if mv.natAbs > s.get (CH_DRIFT_CTRL.LIMIT n) then (1, s)
    else (0, (s.put (rdqBit n b) v.toNat).modChan n fun c => { c with moves := c.moves.set b mv })

/-- A period ends. -/
def State.driftEnd (s : State) (n : Nat) (r : DriftReport) : State :=
  if s.get (CH_DRIFT_CTRL.PERIOD n) = 0 || !s.ddr n || !s.on (CH_MODE_STAT.TRAINED n) || s.qstate (chanQuad n) != 0 then s
  else
    let (code, s) := if (s.chanOf n).burst then
        (List.range 8).foldl (fun (p : Nat × State) b =>
          let (c, s) := p.2.driftBit n b (r.early.getD b 0) (r.late.getD b 0); (p.1 ||| c, s)) (0, s)
      else (0, s.bump (CH_DRIFT_STAT.MISSED n) 1)
    let s := s.put (CH_DRIFT_STAT.MOVED n) (((s.chanOf n).moves.map Int.natAbs).foldl max 0)
    let s := if code.testBit 2 then s.put (CH_DRIFT_STAT.BOTH n) 1 else s
    let s := if code != 0 then s.retrain n code else s
    s.driftRestart n

/-! ### PLLs (R452, R453) -/

/-- The running PLL of a quad loses lock. -/
def State.pllLost (s : State) (q : Fin 8) : State :=
  let x := s.quadOf q.val
  let old := x.pll
  if !s.powered (pdP q.val) || !s.on (PHY_STAT.LOCK q.val) then s
  else
    let n := x.losses.getD old 0 + 1
    let retire := decide (n ≥ 3)
    let spare := s.on (PHY_STAT.STBY_LOCK q.val)
    let s := s.switchTold q.val
    let s := s.modQuad q.val fun x => { x with losses := x.losses.set old n, locked := putBit x.locked old false, retired := if retire then putBit x.retired old true else x.retired, relocking := !retire, lostPll := old }
    if spare then
      let s := s.fault (.quad q) 0x11 2 old
      let s := s.modQuad q.val fun x => { x with pll := 1 - old, switching := true }
      let s := (s.put (PHY_STAT.STBY_LOCK q.val) 0).evSpareTaken 4 q.val (1 - old)
      let s := if retire then (s.evQuad q.val 2 2 ((1 - old) + n % 256 * 4)).evSpareExhausted 4 q.val else s
      let s := s.each (quadChans q.val) State.refresh
      (s.updQuadRec q.val).switchEnd q.val
    else
      let s := (s.put (PHY_STAT.LOCK q.val) 0).fault (.quad q) 0x12 2 old
      let s := s.fenceQuad q.val
      let s := s.each (quadChans q.val) State.enterSafe
      if s.halted then s else s.setReq (pdP q.val) false

/-- A lost PLL relocks as the standby, or fails to and is not relocked again (R453). -/
def State.pllRelock (s : State) (q : Nat) (ok : Bool) : State :=
  let x := s.quadOf q
  if !x.relocking || !s.powered (pdP q) || !s.on (PHY_STAT.LOCK q) then s
  else
    let s := s.modQuad q fun x => { x with relocking := false, locked := putBit x.locked x.lostPll ok, retired := if ok then x.retired else putBit x.retired x.lostPll true }
    let s := s.put (PHY_STAT.STBY_LOCK q) ok.toNat
    let s := s.evQuad q 2 2 (x.pll + ok.toNat * 2 + x.losses.getD x.lostPll 0 % 256 * 4)
    if ok then s else s.evSpareExhausted 4 q

/-! ### Ready/busy inputs (R126, R127) -/

def rbStuck (n t : Nat) : Fld := ⟨CH_RB_STAT.adr n, 24 + t, 24 + t⟩
def rbDeb (n t : Nat) : Fld := ⟨CH_RB_STAT.adr n, t, t⟩
def rbRaw (n t : Nat) : Fld := ⟨CH_RB_STAT.adr n, 8 + t, 8 + t⟩
/-- RB_N[t] is honoured: a target with a declared LUN (R88), neither STUCK nor IGNORE (R127). -/
def State.rbHonoured (s : State) (n t : Nat) : Bool :=
  (targetLuns n t).any s.declared && !s.on (rbStuck n t) && !(s.get (CH_RB_CTRL.IGNORE n)).testBit t

/-- STUCK with its event and capture: code 1 stuck busy, 2 chatter. -/
def State.rbFault (s : State) (n : Fin 32) (t code : Nat) : State :=
  let s := s.put (rbStuck n.val t) 1
  (s.fault (.chan n) 3 1 (t + (code == 2).toNat * 8)).evRbStuck n.val code t

end Sys2Proof.Machine
end

