-- ==== Sys2Proof/Machine/Rebuild.lean ====
section
/-! DEFINITION. Reconstruction: ladder step 4 (R296, R297) and reconstruct-around with its credits (R365 to R372). -/

namespace Sys2Proof.Machine

def State.racOf (s : State) (id : Nat) : Option Rac := s.racs.find? (fun r => r.id == id)
def State.modRac (s : State) (id : Nat) (f : Rac → Rac) : State :=
  { s with racs := s.racs.map (fun r => if r.id = id then f r else r) }
def Rac.left (k : Rac) : List Nat := k.cws.filter (fun c => !k.done.any (fun d => d.1 == c))
def Rac.bufOwner (k : Rac) : Nat := match k.tag with | some t => t | none => stripeOwner k.stripe

/-! ### Credits (R368, R369) -/

/-- Cost of a member read in ns of bus time: its transfer at the quad's rate, and 250 ns. -/
def State.memberCost (s : State) (g n : Nat) : Nat :=
  let mt := rateMT (s.get (PHY_STAT.RATE_NOW (lunQuad g)))
  (n * s.cwBytes g * 1000 + mt - 1) / mt + 250

def credBal (q : Nat) : Fld := BRD_CRED_BAL.BALANCE q
def State.burst (s : State) (q : Nat) : Nat := s.get (BRD_CRED_CTRL.BURST q) * 1000
/-- A period's accrual of a quad in ns: 4 × RATE_PCT % of 1 ms. -/
def State.accrual (s : State) (q : Nat) : Nat := 40000 * s.get (BRD_CRED_CTRL.RATE_PCT q)
def State.giveCredit (s : State) (q n : Nat) : State := s.put (credBal q) (min (s.get (credBal q) + n) (s.burst q))
/-- What quad q's balance has grown by since it was last kept, in 1/25 ns: 4 × RATE_PCT % of the elapsed time (R368). -/
def State.creditGrown (s : State) (q : Nat) : Nat :=
  (s.quadOf q).credRest + (s.now - (s.quadOf q).credAt) * 640 * s.get (BRD_CRED_CTRL.RATE_PCT q)
/-- The balance of quad q at this moment. -/
def State.creditNow (s : State) (q : Nat) : Nat := min (s.get (credBal q) + s.creditGrown q / 25) (s.burst q)
/-- The balance register takes what the time has earned. -/
def State.keepCredit (s : State) (q : Nat) : State :=
  let b := s.creditNow q
  let rest := if b = s.burst q then 0 else s.creditGrown q % 25
  (s.put (credBal q) b).modQuad q fun x => { x with credAt := s.now, credRest := rest }

/-- Quad q lets tenant t draw n ns. -/
def State.creditOk (s : State) (q t n : Nat) : Bool :=
  let b := s.get (credBal q)
  let sum := (((List.range 64).filter (fun t => s.on (winEn t))).map s.weight).sum
  decide (n ≤ b) && (decide (b * 2 ≥ s.burst q)
    || decide (tabGet (fun _ => 0) (s.quadOf q).drawn t * sum < s.accrual q * s.weight t))

/-- Share of quad q in a rebuild's cost. -/
def Rac.costOn (k : Rac) (q : Nat) : Nat := ((k.srcs.filter (fun x => x.st == 1 && lunQuad x.lun == q)).map (·.cost)).sum

/-- Draw the costs of a tenant's reconstruct-around, the rebuilds of its plane pages together, from every quad that carries one of its
member reads, or count the refusals (R368). -/
def State.drawCredit (s : State) (tenant : Nat) (l : List Rac) : Bool × State :=
  let quads := (List.range 8).filter (fun q => l.any (fun k => k.srcs.any (fun x => x.st == 1 && lunQuad x.lun == q)))
  let cost := fun (q : Nat) => (l.map (fun k => k.costOn q)).sum
  let s := s.each quads State.keepCredit
  let short := quads.filter (fun q => !s.creditOk q tenant (cost q))
  if short.isEmpty then
    (true, s.each quads fun s q =>
      let s := (s.put (credBal q) (s.get (credBal q) - cost q)).bump (BRD_CRED_CNT.STARTED q) 1
      s.modQuad q fun x => { x with drawn := tabMod (fun _ => 0) x.drawn tenant (· + cost q) })
  else (false, s.each short fun s q => s.bump (BRD_CRED_CNT.REFUSED q) 1)

/-! ### Start -/

/-- The member read of source i of a rebuild (R297, R367). -/
def Rac.read (k : Rac) (x : Src) (i : Nat) : PRead :=
  { owner := .rac k.id i, lun := x.lun, eb := x.eb, page := k.page, plane := k.plane, cws := k.left.map (fun c => { cw := c }), noRlh := k.noRlh, tag := k.tag, tenant := k.tenant, cls := if k.around then 0 else k.cls, due := k.due, order := k.order, member := true, racMember := k.around }

/-- Member reads of a rebuild are issued (R297, R367). -/
def State.racReads (s : State) (id : Nat) : State :=
  match s.racOf id with
  | none => s
  | some k =>
    let s := s.modRac id fun k => { k with phase := 1 }
    let s := (k.srcs.filter (fun x => x.st == 4)).foldl (fun s x => s.readAcc k.stripe k.page x.member) s
    let s := k.srcs.zipIdx.foldl (fun s (x, i) => if x.st = 1 then s.startRead (k.read x i) else s) s
    if k.srcs.any (fun x => x.st == 1) then s else s.later (.racGo id)

/-- The end of a rebuild without a start, or after its last code word. -/
def State.racOver (s : State) (id : Nat) : State := s.later (.racEnd id)

/-- It waits for a buffer or for its share of the accumulator. -/
def Rac.waits (k : Rac) : Bool := k.bufs != 0 || k.sharing

/-- Once its buffers and its share of the accumulator are held, a rebuild starts; the rebuilds of a reconstruct-around draw their credit
together (R365, R368, R405). -/
def State.racReady (s : State) (id : Nat) : State :=
  match s.racOf id with
  | none => s
  | some k =>
    if k.phase != 0 || k.waits || (k.around && s.on TET_PWRFAIL.LATCH) then s
    else if k.around then
      let l := s.racs.filter (fun x => x.around && x.group == k.group && x.phase == 0)
      if l.any Rac.waits then s
      else
        let (ok, s) := s.drawCredit k.tenant l
        l.foldl (fun s x =>
          if ok then
            { s with reads := s.reads.map (fun (r : PRead) => if r.owner == x.owner && r.plane == x.plane && !r.member then { r with around := true } else r) }.racReads x.id
          else (s.modRac x.id fun k => { k with phase := 3 }).racOver x.id) s
    else s.racReads id

/-- A rebuild of code words of a plane page begins when its row is eligible: one buffer per code word, and a SHARE of a spilled
accumulator for a tag (R297, R405). Step 4 keeps Q back while no other source is missing (R297). Answers whether it began. -/
def State.startRac (s : State) (k : Rac) : Bool × State :=
  match s.memberOf k.lun k.eb with
  | none => (false, s)
  | some (sid, me) =>
    match (if me ≥ 32 && k.around then none else s.racSources sid k.page me true) with
    | none => (false, s)
    | some l =>
      let (id, s) := s.newId
      let spilled := match s.accOf sid k.page, k.tag with
        | some a, some t => if a.chip || a.asked || s.pool.bufs.any (fun b => b.addr == a.addr && b.owners.contains t) then none else some (t, a.addr)
        | _, _ => none
      let asked := fun (x : Nat × Nat) => (s.pool.send ++ s.pool.out).any (fun r => r.op == poolShare && r.owner == x.1 && r.addr == x.2)
      let keep := !k.around && !l.any (fun x => x.st == 0)
      let k := { k with id := id, stripe := sid, member := me, group := if k.group = 0 then id else k.group, srcs := l.map (fun x => { x with cost := s.memberCost x.lun k.cws.length, st := if keep && x.member == 33 && x.st == 1 then 3 else x.st }), bufs := k.cws.length, sharing := spilled.isSome }
      let s := { s with racs := s.racs ++ [k] }
      let s := k.cws.foldl (fun s c => s.need 1 k.bufOwner (.recon id c)) s
      (true, match spilled with | some (t, a) => if asked (t, a) then s else s.share t a (.recon id 0x100) | none => s)

/-- A buffer of a rebuild has been granted. -/
def State.racGranted (s : State) (id : Nat) : State :=
  match s.racOf id with
  | none => s
  | some _ => (s.modRac id fun k => { k with bufs := k.bufs - 1 }).racReady id

/-! ### Solving (R297, R318) -/

/-- The accumulator that a rebuild reads. -/
def State.racAcc (s : State) (k : Rac) : Option Acc := k.kept <|> s.accOf k.stripe k.page

/-- Bytes of a source for a code word: read, or from the accumulator. -/
def State.srcWord (s : State) (k : Rac) (x : Src) (cw : Nat) : Option (List Byte) :=
  if x.st = 4 then
    match s.racAcc k with
    | some a =>
      let i := (s.slotUnits (s.stripeOf k.stripe)).findIdx (fun u => u == (k.plane, cw))
      some (fitBytes infoBytes ((if x.member = 32 then a.p else a.q).getD i []))
    | none => none
  else match tabGet (fun _ => []) x.got cw with
    | [] => none
    | w => some (w.take infoBytes)

/-- XOR of a list of byte strings; sum of 2^m times each. -/
def xorAll (l : List (List Byte)) : List Byte := l.foldl (fun a b => xorBytes b a) (List.replicate infoBytes 0)
def qSum (l : List (Nat × List Byte)) : List Byte := xorAll (l.map (fun x => x.2.map (gfShift x.1)))

/-- The scrambled information of the missing slot, when the sources suffice. -/
def State.racSolve (s : State) (k : Rac) (cw : Nat) : Option (List Byte) :=
  let known := k.srcs.filterMap (fun x => (s.srcWord k x cw).map (fun w => (x.member, w)))
  let missing := k.srcs.filter (fun x => (s.srcWord k x cw).isNone)
  let data := known.filter (fun x => decide (x.1 < 32))
  let p := (known.find? (fun x => x.1 == 32)).map (·.2)
  let q := (known.find? (fun x => x.1 == 33)).map (·.2)
  let pRest := p.map (fun p => xorBytes p (xorAll (data.map (·.2))))
  let qRest := q.map (fun q => xorBytes q (qSum data))
  if k.member ≥ 32 then
    if missing.isEmpty then some (if k.member = 32 then xorAll (data.map (·.2)) else qSum data) else none
  else match missing.map (·.member), pRest, qRest with
  | [], some p, _ => some p
  | [33], some p, _ => some p
  | [32], _, some q => some (solveQ k.member q)
  | [y], some p, some q => if y < 32 then some (solveTwo k.member y p q) else none
  | _, _, _ => none

/-- The keystream's seed of a rebuilt code word; parity is not scrambled (R317). -/
def Rac.seed (k : Rac) (cw : Nat) : Option Word32 := if k.member ≥ 32 then none else some (seedOf k.lun k.eb k.page k.plane cw)

/-- A source may still be recovered. -/
def Rac.open' (k : Rac) : Bool := k.srcs.any (fun x => x.st == 1)
/-- A source other than Q has ended without a code word that the rebuild needs (R297). -/
def Rac.wantsQ (k : Rac) : Bool := k.srcs.any (fun x => x.st == 2 && k.left.any (fun c => (tabGet (fun _ => []) x.got c).isEmpty))

/-- A rebuilt code word goes through R282 into its buffer. -/
def State.rebuilt (s : State) (k : Rac) (cw : Nat) (info : List Byte) : State :=
  let m := s.ldpcM k.lun
  let word := unscramble m (k.seed cw) (info ++ ldpcParity m info)
  let a := s.bufAddr (.recon k.id cw)
  (cutRun (word.length / 4096 + 2) (a, word.length)).foldl (fun s p =>
    s.ask (spoolWrite 1 36 p.1 ((word.drop (p.1 - a)).take p.2) (.stageRac k.id cw))) s

/-- A rebuilt word is on its way to its buffer or back, or a failure of it waits. -/
def State.racOut (s : State) (id cw : Nat) : Bool :=
  let p := fun (q : Spool) => q.cont == .stageRac id cw
  s.ready.any p || s.flying.any p || s.holds (.work (.stageRac id cw))

/-- Code words of a rebuild whose word is on its way to its job. -/
def State.racBusy (s : State) (id cw : Nat) : Bool :=
  s.racOut id cw || s.jobs.any (fun j => j.who == .rebuilt id cw)
    || s.slices.any (fun e => match e.2.job with | some j => j.who == .rebuilt id cw | none => false)

/-- The member reads still under way end (R367). -/
def State.racCancel (s : State) (id : Nat) : State :=
  let mine := s.reads.filter (fun r => !r.ended && match r.owner with | .rac i _ => i == id | _ => false)
  mine.foldl (fun s r => (s.giveUp r.id).endRead r.id) s

/-- Q is read once another source is missing (R297). -/
def State.racQ (s : State) (id : Nat) : State :=
  match s.racOf id with
  | none => s
  | some k =>
    if !k.wantsQ then s
    else match k.srcs.findIdx? (fun x => x.st == 3) with
      | some i => (s.modRac id fun k => k.modSrc i fun x => { x with st := 1 }).startRead (k.read (k.srcs.getD i {}) i)
      | none => s

/-- What a rebuild does next: solve what it can, fail what it cannot, end when nothing is left; the member reads that are no longer needed
are cancelled (R367). -/
def State.racPush (s : State) (id : Nat) : State :=
  match (s.racQ id).racOf id with
  | none => s
  | some k =>
    if k.phase = 0 || k.phase = 3 then s
    else
      let s := k.left.foldl (fun s cw =>
        if s.racBusy id cw then s
        else match s.racSolve k cw with
          | some w => s.rebuilt k cw w
          | none => if k.open' then s else s.modRac id fun k => { k with done := k.done ++ [(cw, false)] }) (s.racQ id)
      match s.racOf id with
      | some k =>
        if k.left.isEmpty then s.racOver id
        else if k.open' && k.left.all (s.racBusy id) then s.racCancel id else s
      | none => s

/-- The rebuilt word is in its buffer: it is read back for its job. -/
def State.racStaged (s : State) (id cw : Nat) : State :=
  if s.racOut id cw then s
  else match s.racOf id with
    | none => s
    | some k => if k.left.contains cw then s.fetchBack (s.bufAddr (.recon id cw)) (s.cwBytes k.lun) (.stageRac id cw) else s.racPush id

/-- The rebuilt word is back: its BF job enters the queue (R297). -/
def State.racRead (s : State) (id cw : Nat) : State :=
  if s.racOut id cw then s
  else match s.racOf id with
    | none => s
    | some k =>
      match (if k.left.contains cw then s.racSolve k cw else none) with
      | none => s.racPush id
      | some info =>
        let m := s.ldpcM k.lun
        s.addJob { who := .rebuilt id cw, mode := .bf, tag := k.tag, loc := { lun := k.lun, eb := k.eb, page := k.page, planes := 2 ^ k.plane }, input := unscramble m (k.seed cw) (info ++ ldpcParity m info), ch := lunChan k.lun, due := k.due }

/-- A member read has ended: its words in stored form (R297). -/
def State.racSource (s : State) (id i : Nat) (r : PRead) : State :=
  match s.racOf id with
  | none => s
  | some k =>
    let parity := ((k.srcs[i]?).map (fun x => decide (x.member ≥ 32))).getD false
    let got : Tab (List Byte) := r.cws.filterMap fun c => match c.res with
      | .ok _ => some (c.cw, if parity then c.word
          else xorBytes (c.word.take infoBytes) (keystream infoBytes (seedOf r.lun r.eb r.page r.plane c.cw)))
      | _ => none
    (s.modRac id fun k => k.modSrc i fun x => { x with st := 2, got := got }).racPush id

/-- The direct read's side of a rebuilt code word. -/
def State.ownerRead (s : State) (k : Rac) : Option PRead :=
  s.reads.find? (fun r => r.owner == k.owner && r.plane == k.plane && r.lun == k.lun && r.page == k.page && !r.member)

/-- A rebuilt code word has been recovered (R370, R372): it wins when the code word has no result yet. -/
def State.racGood (s : State) (id cw corr : Nat) (word : List Byte) : State :=
  match s.racOf id with
  | none => s
  | some k =>
    if !k.left.contains cw then s
    else
      let s := s.modRac id fun k => { k with done := k.done ++ [(cw, true)], won := true }
      let s := match s.ownerRead k with
        | some r =>
          let s := s.modRead r.id fun r => { r.modCw cw (fun c => { c with res := .ok 4, corr := corr, word := word }) with xfers := r.xfers.erase cw }
          let s := s.cancelOps (fun (o : Op) => o.role == Role.xfer r.id cw || o.role == Role.soft r.id cw)
          let s := s.dropJobs (Job.ofCw r.id cw)
          let s := s.recountJobs r.id
          let s := s.freeStages r cw none
          let s := match k.owner with
            | .tag t => s.tagGood t k.plane cw 4 corr word
            | _ => s
          s.readGo r.id
        | none => match k.owner with
          | .sub j => { s with subs := s.subs.map (fun (x : Sub) => if x.id = j then { x with got := tabIns (k.plane * 4 + cw) word (tabDrop (k.plane * 4 + cw) x.got) } else x) }
          | _ => s
      s.racPush id

/-- A rebuilt code word failed its job. -/
def State.racBad (s : State) (id cw : Nat) : State :=
  (s.modRac id fun k => if k.left.contains cw then { k with done := k.done ++ [(cw, false)] } else k).racPush id

/-! ### The end of a rebuild (R370 to R372) -/

/-- Every code word has its outcome: the member reads left are cancelled, unspent costs go back, buffers are freed, and a
ladder that waited goes on; one that a credit-refused rebuild held back starts its step 4 (R372). A reconstruct-around counts once, as
its last rebuild ends. -/
def State.racEnd (s : State) (id : Nat) : State :=
  match s.racOf id with
  | none => s
  | some k =>
    let ran := k.around && k.phase != 3 && k.phase != 0
    let s := s.racCancel id
    let s := if ran then ((s.racOf id).map (·.srcs)).getD [] |>.foldl (fun s x => if x.unspent then (s.keepCredit (lunQuad x.lun)).giveCredit (lunQuad x.lun) x.cost else s) s else s
    let uses := fun (u : PoolUse) => match u with | .recon i _ => i == id | _ => false
    let s := s.dropNeeds (fun q => uses q.use)
    let s := (s.pool.bufs.filter (fun b => uses b.use)).foldl (fun s b => s.releaseBuf k.bufOwner b.addr) s
    let s := match k.tag, s.racAcc k with
      | some t, some a => if a.chip then s else if s.racs.any (fun j => j.id != id && j.tag == some t && j.stripe == k.stripe && j.page == k.page) then s else s.releaseBuf t a.addr
      | _, _ => s
    let s := s.dropJobs (fun j => match j.who with | .rebuilt i _ => i == id | _ => false)
    let own := s.ownerRead k
    let s := { s with racs := s.racs.filter (fun r => r.id != id) }
    let group := fun (x : Rac) => x.around && x.group == k.group
    let s := if !ran then s
      else if s.racs.any group then (if k.won then { s with racs := s.racs.map (fun x => if group x then { x with won := true } else x) } else s)
      else if k.won then s.bump BRD_CNT_RAC_WON.COUNT 1 else s.bump BRD_CNT_RAC_LOST.COUNT 1
    match own with
    | some r =>
      if !r.rebuilding || r.ended then s
      else if k.around && k.phase == 3 && !(r.fenced && !r.started) then s.later (.step4 r.id)
      else (s.giveUp r.id).readGo r.id
    | none => match k.owner with
      | .sub j => s.later (.subSourced j (if k.cws.all fun c => k.done.contains (c, true) then none else some (0x30, 0)))
      | _ => s

/-- The refusal of a SHARE: accumulated P and Q count as unavailable (R406). -/
def State.racShareRefused (s : State) (id : Nat) : State :=
  match s.racOf id with
  | none => s
  | some k =>
    let s := s.modRac id fun k => { k with sharing := false }
    match s.racSources k.stripe k.page k.member false with
    | some l =>
      let keep := !k.around && !l.any (fun x => x.st == 0)
      (s.modRac id fun k => { k with srcs := l.map (fun x => { x with cost := s.memberCost x.lun k.cws.length, st := if keep && x.member == 33 && x.st == 1 then 3 else x.st }) }).racReady id
    | none => (s.modRac id fun k => { k with phase := 3 }).racOver id

/-! ### Reconstruct-around and step 4 -/

/-- The rebuild that a read's plane page asks for. -/
def PRead.rac (r : PRead) (around : Bool) : Rac :=
  { owner := r.owner, lun := r.lun, eb := r.eb, page := r.page, plane := r.plane, cws := r.left, around := around, tag := r.tag, tenant := r.tenant, cls := r.cls, due := r.due, order := r.order, noRlh := r.noRlh }

def State.racRunning (s : State) (r : PRead) : Bool :=
  s.racs.any (fun k => k.owner == r.owner && k.plane == r.plane && k.lun == r.lun && k.page == r.page)

/-- Conditions of R365 but for the row and the credit. -/
def State.racAllowed (s : State) (t : Nat) : Bool :=
  let d := (s.tagOf t).desc
  s.on BRD_CTRL.RAC_EN && dRacOk d && (dOp d == opRead || dOp d == opCopy) && !s.on TET_PWRFAIL.LATCH

/-- Reconstruct-around for the reads of a tag that still want code words, one rebuild per plane page (R365). -/
def State.goAround (s : State) (t : Nat) : State :=
  if !s.racAllowed t then s
  else
    let group := s.nextId + 1
    (s.reads.filter (fun r => r.owner == .tag t && !s.racRunning r && !r.ended && !r.left.isEmpty && !r.around)).foldl
      (fun s r => (s.startRac { r.rac true with group := group }).2) s

/-- A ladder reaches step 4, or its unit is fenced (R295, R296, R311, R372). -/
def State.step4 (s : State) (id : Nat) : State :=
  match s.readOf id with
  | none => s
  | some r =>
    if r.ended || s.racRunning r then s
    else
      let gone := fun (s : State) => (s.giveUp id).readGo id
      if r.around then gone s
      else if r.fenced && !r.started then
        match r.owner with
        | .tag t =>
          let s := if s.bandOf (r.op rtReadSense (.sense id) 0 0 0 0) = 0 then s.goAround t else s
          if s.racRunning r then s else gone s
        | _ => gone s
      else if s.stepMax r.lun < 4 || ((s.memberOf r.lun r.eb).map (fun x => decide (x.2 ≥ 32))).getD true then gone s
      else
        let (ok, s) := s.startRac (r.rac false)
        if ok then s.reached r 4 else gone s

end Sys2Proof.Machine
end

