-- ==== Sys2Proof/Machine/Write.lean ====
section
/-! DEFINITION. Programs (spec/09_write_and_erase_path.md): forming code words, the program frontier and the readable horizon
(R328 to R330, R336 to R338), passes and pass records (R323 to R326), padding (R333 to R335) and rows' parity (R315). -/

namespace Sys2Proof.Machine

/-! ### Locations and words -/

/-- The location form of Table 7.4. -/
def locWord (g e q fc cc planes : Nat) : Nat := g + e * 2 ^ 12 + q * 2 ^ 24 + fc * 2 ^ 36 + cc * 2 ^ 40 + planes * 2 ^ 48

/-- Code words of a page in the given planes, in transfer order (R236). -/
def State.pageUnits (s : State) (g planes : Nat) : List (Nat × Nat) :=
  (planeList planes).flatMap fun p => (List.range (s.ncw g)).map fun c => (p, c)

/-- Location written, as a completion reports it (R267). -/
def State.locOf (s : State) (g e q planes : Nat) : Nat := locWord g e q 0 (s.ncw g) planes

/-- Stored forms of a page's code words at a location (R273); RAW takes them as supplied. -/
def State.formWords (s : State) (g e q planes : Nat) (raw : Bool) (user metas : List Byte) : List (List Byte) :=
  (s.pageUnits g planes).zipIdx.map fun ((p, c), i) =>
    if raw then fitBytes (s.cwBytes g) ((user.drop (i * s.cwBytes g)).take (s.cwBytes g))
    else storedForm (s.ldpcM g) (seedOf g e q p c) (plainInfo ((user.drop (userBytes * i)).take userBytes) ((metas.drop (metaBytes * i)).take metaBytes))

/-- Stored forms from plain information (COPY, substitution). -/
def State.storeInfos (s : State) (g e q planes : Nat) (infos : List (List Byte)) : List (List Byte) :=
  (s.pageUnits g planes).zipIdx.map fun ((p, c), i) =>
    storedForm (s.ldpcM g) (seedOf g e q p c) (plainInfo ((infos.getD i []).take userBytes) (((infos.getD i []).drop userBytes).take metaBytes))

/-- Digest of R325: the XOR of the CRC-32C values of the code words. -/
def digestOf (raw : Bool) (n len : Nat) (user metas : List Byte) : Word32 :=
  (List.range n).foldl (fun d i => d ^^^ (if raw then crc32c (((user.drop (i * len)).take len).take protBytes)
    else crc32c (fitBytes userBytes ((user.drop (userBytes * i)).take userBytes) ++ fitBytes metaBytes ((metas.drop (metaBytes * i)).take metaBytes)))) 0

/-- Bytes gathered from host memory: data pieces by offset, metadata pieces from 2^32 on. -/
def metaKey : Nat := 2 ^ 32
def gathered (t : Tab (List Byte)) : List Byte × List Byte :=
  ((t.filter (fun e => decide (e.1 < metaKey))).flatMap (·.2), (t.filter (fun e => decide (metaKey ≤ e.1))).flatMap (·.2))

/-! ### Whose pass it is (R354, R356) -/

/-- A held tag whose completion waits on a stripe's pads and parity. -/
def State.stripeWaiter (s : State) (sid : Nat) : Option Nat :=
  (s.tags.find? (fun (_, t) => t.held && !t.inserted &&
    ((dOp t.desc == opStripeClose && dStripe t.desc == sid)
      || (dOp t.desc == opFlush && dScope t.desc == 1 && dStripe t.desc == sid && (bit t.desc 10 || bit t.desc 11))
      || (dOp t.desc == opFlush && dScope t.desc == 2 && bit t.desc 10)))).map (·.1)

/-- Tenant, class, deadline and order of an operation: the held tag's, or band 3 with the default deadline of class 2. -/
def State.stamp (s : State) (o : Op) (t : Option Nat) (tenant : Nat) : Op × State :=
  match t with
  | some t =>
    let tg := s.tagOf t
    ({ o with tag := some t, tenant := tg.tenant, cls := dClass tg.desc, due := tg.due, due2 := s.us + s.get BRD_CLASS2.DEFAULT, seq := tg.seq }, s)
  | none =>
    let (q, s) := s.newSeq
    let d := s.us + s.get BRD_CLASS2.DEFAULT
    ({ o with tag := none, tenant := tenant, cls := 2, due := d, due2 := d, seq := q }, s)

/-! ### Program frontier and horizon -/

def State.front (s : State) (g e : Nat) : Option Front := (s.lunOf g).frontier.find? (fun f => f.eb == e)
/-- Pages of a block whose first pass has been started: NP, or every page when no entry is left. -/
def State.frontNp (s : State) (g e : Nat) : Nat := ((s.front g e).map (·.np)).getD (s.pages g)

/-- An ERASE outside the tally pool has verified (R336); records that R323 left without a later pass go. DESIGN CHOICE (log 89): until its first page is programmed the block ranks by this
erase among the least recently programmed ones. -/
def State.frontMake (s : State) (g e planes : Nat) : State :=
  let s := ((s.lunOf g).recs.filter (fun r => r.eb == e)).foldl (fun s r => s.freeUse (.record g e r.page)) s
  let s := s.modLun g fun x => { x with recs := x.recs.filter (fun r => r.eb != e) }
  let l := (s.lunOf g).frontier.filter (fun f => f.eb != e)
  let new : Front := { eb := e, planes := planes }
  if l.length < 8 then s.modLun g fun x => { x with frontier := new :: l }
  else
    let old := l.getLastD {}
    let s := s.modLun g fun x => { x with frontier := new :: l.dropLast }
    (s.bump TOP_WR_EVICT.COUNT 1).raise 274 0 (g + old.eb * 2 ^ 10 + old.np * 2 ^ 22)

/-- The write-once check of a first pass (R337); `refill` is the pad of a slot that ended before its COMMIT (R377). -/
def State.onceOk (s : State) (g e q planes : Nat) (refill : Bool) : Bool :=
  match s.front g e with
  | none => false
  | some f => (planes &&& f.planes) == planes &&
      (if s.twoPass g then f.np == q else decide (f.np ≤ q)) || (refill && f.np == q + 1)

/-- A pass has failed outside a stripe, or its page was consumed without one: the page's fine pass never verifies, and no later line than the
next takes a coarse pass (R323); what that bars for good ends. -/
def State.frontHalt (s : State) (g e q : Nat) : State :=
  let w := q / s.ppwl g
  (s.modLun g fun x => { x with frontier := x.frontier.map fun f => if f.eb = e then { f with halt := some (min w (f.halt.getD w)) } else f }).later
    (.halted g e)

/-- First page of a two-pass block whose first pass may never start (R323). -/
def State.barredPage (s : State) (g e : Nat) : Option Nat :=
  if s.twoPass g then ((s.front g e).bind (·.halt)).map fun h => (h + 2) * s.ppwl g else none

/-- A first pass that may never start. -/
def State.firstBarred (s : State) (o : Op) : Bool :=
  o.opens && o.stripe.isNone && (s.barredPage o.loc.lun o.loc.eb).any (fun b => decide (b ≤ o.loc.page))

/-- A first pass outside a stripe that had moved NP has ended without its COMMIT. -/
def State.firstGone (s : State) (o : Op) : State :=
  if o.opens && o.begun && o.stripe.isNone then s.frontHalt o.loc.lun o.loc.eb o.loc.page else s

/-- A first pass starts: NP, and the horizon block (R328, R337). -/
def State.beginFirst (s : State) (g e q : Nat) : State :=
  match s.front g e with
  | none => s
  | some f =>
    let np := max f.np (q + 1)
    let rest := (s.lunOf g).frontier.filter (fun x => x.eb != e)
    let rest := match (s.lunOf g).horizon with
      | some (e', h') => rest.map (fun x => if x.eb = e' then { x with h := h' } else x)
      | none => rest
    s.modLun g fun x => { x with frontier := if np = s.pages g then rest else { f with np := np } :: rest, horizon := match x.horizon with | some (e', h') => if e' = e then some (e', h') else some (e, f.h) | none => some (e, f.h) }

/-- Page q of e is readable: the horizon advances, with EV_READABLE (R328, R330); the value kept for a block that is not the horizon block now
follows too. -/
def State.horizonUp (s : State) (g e q : Nat) : State :=
  match (s.lunOf g).horizon with
  | some (e', h) =>
    if e' != e then s.modLun g fun x => { x with frontier := x.frontier.map fun f => if f.eb = e && f.h = q then { f with h := q + 1 } else f }
    else if h != q then s
    else
      let s := s.modLun g fun x => { x with horizon := some (e, q + 1) }
      if (q + 1) % s.ppwl g = 0 || (!s.twoPass g && s.frontNp g e == q + 1) then s.raise srcReadable 0 (g + e * 2 ^ 10 + (q + 1) * 2 ^ 22)
      else s
  | none => s

/-! ### Pass operations -/

/-- The granted record buffer takes the page's stored forms; a second one for the same page is given back. -/
def State.recordGranted (s : State) (g e q : Nat) : State :=
  match s.pool.bufs.filter (fun b => b.use == .record g e q) with
  | _ :: b :: _ => b.owners.foldl (fun s o => s.releaseBuf o b.addr) s
  | _ =>
    match s.ops.find? (fun o => o.pooled && o.loc.lun == g && o.loc.eb == e && o.loc.page == q) with
    | none => s.freeUse (.record g e q)
    | some o =>
      let data := o.data.flatten
      let a := s.bufAddr (.record g e q)
      (cutRun (data.length / 4096 + 2) (a, data.length)).foldl (fun s p =>
        s.ask (spoolWrite 1 36 p.1 ((data.drop (p.1 - a)).take p.2) (.record g e q))) s

/-- A page's first pass enters Bridle, with a Pool buffer for kept stored forms (R325). -/
def State.addPass (s : State) (o : Op) : State :=
  let sid := (o.stripe.map (·.1)).getD 0xFFF
  let u := PoolUse.record o.loc.lun o.loc.eb o.loc.page
  let have' := s.pool.bufs.any (fun b => b.use == u)
  let asked := (s.pool.send ++ s.pool.out ++ s.pool.empty).any (fun r => r.op == poolAlloc && r.use == u)
  let s := if o.pooled && !have' && !asked then s.need (classFor ((o.data.map List.length).sum)) (stripeOwner sid) u else s
  let s := s.addOp o
  if o.pooled && have' then s.recordGranted o.loc.lun o.loc.eb o.loc.page else s

/-- A pass that is not made leaves its record buffer, unless another pass of the page has it. -/
def State.dropRecord (s : State) (o : Op) : State :=
  let u := PoolUse.record o.loc.lun o.loc.eb o.loc.page
  if !o.pooled || s.ops.any (fun p => p != o && p.pooled && p.loc.lun == o.loc.lun && p.loc.eb == o.loc.eb && p.loc.page == o.loc.page) then s
  else (s.dropNeeds (fun r => r.use == u)).freeUse u

/-- The pass operation of a page. -/
def State.passOp (s : State) (role : Role) (g e q planes : Nat) (pass : Nat) (data : List (List Byte)) (stripe : Option (Nat × Nat × Nat)) : Op :=
  let bytes := popcount 8 planes * s.ncw g * s.cwBytes g
  { routine := if s.twoPass g then rtProgPass else rtProgOneshot, loc := { lun := g, eb := e, page := q, planes := planes }, v4 := BitVec.ofNat 32 (if s.twoPass g then pass else 0), v6 := BitVec.ofNat 32 bytes, role := role, data := data, stripe := stripe }

/-- A pass's record buffer is in place. -/
def State.recordReady (s : State) (o : Op) : Bool :=
  let u := PoolUse.record o.loc.lun o.loc.eb o.loc.page
  let c := Cont.record o.loc.lun o.loc.eb o.loc.page
  !o.pooled || (s.pool.bufs.any (fun b => b.use == u) && !s.ready.any (fun r => r.cont == c) && !s.flying.any (fun r => r.cont == c) && !s.holds (.work c))

/-! ### Pads (R333, R334) -/

def State.padWords (s : State) (g e q planes : Nat) : List (List Byte) :=
  (s.pageUnits g planes).map fun (p, c) => storedForm (s.ldpcM g) (seedOf g e q p c) padInfo

/-- A pad page; `refill` where it fills the slot of a program that ended before its COMMIT (R377). -/
def State.addPad (s : State) (g e q planes : Nat) (stripe : Option (Nat × Nat × Nat)) (tenant : Nat) (refill : Bool := false) : State :=
  let o := { s.passOp .pad g e q planes 1 (s.padWords g e q planes) stripe with pooled := s.twoPass g, isPad := true, refill := refill }
  let (o, s) := s.stamp o (stripe.bind (fun x => s.stripeWaiter x.1)) tenant
  s.addPass o

/-- The stripe's next slot is taken (R244, R313). -/
def State.takeSlot (s : State) (sid : Nat) : (Nat × Nat) × State :=
  let st := s.stripeOf sid
  let s := s.modStripe sid fun st => if st.nextMember + 1 ≥ st.ndata then { st with nextMember := 0, nextRow := st.nextRow + 1 } else { st with nextMember := st.nextMember + 1 }
  ((st.nextRow, st.nextMember), s.openRow sid st.nextRow)

/-- Pads fill the next n slots, as long as they lie below row `top`. -/
def State.padSlots (s : State) (sid top : Nat) : Nat → State
  | 0 => s
  | n + 1 =>
    if (s.stripeOf sid).nextRow ≥ top then s
    else
      let ((r, m), s) := s.takeSlot sid
      let st := s.stripeOf sid
      let s := s.modRow sid r fun x => { x with padded := x.padded ||| 2 ^ m }
      (s.addPad (memberLun st m) (memberEb st m) r st.planes (some (sid, r, m)) st.tenant).padSlots sid top n

/-- Pads fill every free slot below row `top` (R333); a stopped stripe takes none (R341). -/
def State.padStripe (s : State) (sid top : Nat) : State :=
  let st := s.stripeOf sid
  if st.stopped then s else s.padSlots sid (min top (s.pages (stripeLun st))) ((top - st.nextRow) * st.ndata + st.ndata)

/-- Rows of a closing without parity: pads on the parity members too (R335). -/
def State.padParity (s : State) (sid r : Nat) : State :=
  let st := s.stripeOf sid
  (List.range st.npar).foldl (fun s k =>
    s.addPad (memberLun st (32 + k)) (memberEb st (32 + k)) r st.planes (some (sid, r, 32 + k)) st.tenant)
    (s.modRow sid r fun x => { x with noParity := true, parWanted := true })

/-- First row that pads need not reach for page q to take its fine pass. -/
def State.padTop (s : State) (g q : Nat) : Nat := min ((q / s.ppwl g + 2) * s.ppwl g) (s.pages g)

/-- Opcodes that program a page of their own. -/
def isProgram (d : Desc) : Bool := dOp d == opAppend || dOp d == opProgAt || dOp d == opCopy
/-- Where a program's page lies: its slot's member, or the location it names. -/
def State.progPlace (s : State) (t : Nat) : Nat × Nat × Nat × Nat :=
  let tg := s.tagOf t
  match tg.slot with
  | some (sid, r, m) => (memberLun (s.stripeOf sid) m, memberEb (s.stripeOf sid) m, r, (s.stripeOf sid).planes)
  | none => (dLun tg.desc, dEb tg.desc, dPage tg.desc, dPlanes tg.desc)

/-- Tag u is an ERASE of the block (g, e), taken in before seq, whose erase is not queued yet. -/
def State.eraseQueued (s : State) (u g e seq : Nat) : Bool :=
  let x := s.tagOf u
  dOp x.desc == opErase && !x.ended && decide (x.phase < 2) && dLun x.desc == g && dEb x.desc == e && decide (x.seq < seq)

/-- A ROUTINE taken in earlier that programs or erases the block has not queued its routine yet (R261, R269). -/
def State.rawOpen (s : State) (u g e seq : Nat) : Bool :=
  let x := s.tagOf u
  dOp x.desc == opRoutine && x.held && !x.inserted && !x.ended && x.phase == 0 && [rtProgOneshot, rtProgPass, rtErase].contains (dRoutine x.desc)
    && dLun x.desc == g && dEb x.desc == e && decide (x.seq < seq)
/-- Program work of order q on a block waits for an ERASE of it taken in earlier (R269). -/
def State.eraseAhead (s : State) (g e q : Nat) : Bool := s.heldTags.any (fun u => !(s.tagOf u).inserted && s.eraseQueued u g e q)
/-- A queued first pass, a held program whose data is on its way, that does not itself wait for earlier work to end: none behind an ERASE of
the block, none ORDERED behind descriptors that have not completed (DEDUCED, log 83). -/
def State.queuedOp (s : State) (g e : Nat) (o : Op) : Bool :=
  o.opens && o.loc.lun == g && o.loc.eb == e && !((o.role == .first || o.role == .routine) && s.eraseAhead g e o.seq)
def State.queuedTag (s : State) (g e u : Nat) : Bool :=
  let x := s.tagOf u
  isProgram x.desc && x.held && !x.inserted && !x.ended && x.phase == 0 && !x.waitsOrder && (x.slot.isSome || dOp x.desc == opProgAt)
    && (match s.progPlace u with | (g', e', _, _) => g' == g && e' == e) && !s.eraseAhead g e x.seq

/-- Pages of a block that first passes have taken or are about to take: NP, queued ones, and held programs whose data is on its way. -/
def State.takenNp (s : State) (g e : Nat) : Nat :=
  let q := (s.ops.filter (s.queuedOp g e)).map (fun o => o.loc.page + 1)
  let t := s.tags.filterMap fun (u, x) =>
    if x.held && s.queuedTag g e u then (match s.progPlace u with | (_, _, p, _) => some (p + 1)) else none
  (q ++ t).foldl max (s.frontNp g e)

/-- A spare that takes a member's pages, before the swap (R339). -/
def State.onSpare (s : State) (g e : Nat) : Option Sub := s.subs.find? (fun x => decide (3 ≤ x.phase) && x.kind != 3 && x.toLun == g && x.toEb == e)

/-- Pads on the next pages of one erase block, until page q can take its fine pass. -/
def State.padPages (s : State) (g e q planes tenant : Nat) : State :=
  if s.ops.any (fun o => o.isPad && o.loc.lun == g && o.loc.eb == e) then s
  else
    let np := s.takenNp g e
    s.each ((List.range (s.padTop g q - np)).map (· + np)) fun s p => s.addPad g e p planes none tenant

/-- Padding of an erase block until page q can take its fine pass (R333, R341); a spare is padded after the swap (R339). -/
def State.padBlock (s : State) (g e q planes : Nat) : State :=
  if (s.onSpare g e).isSome then s
  else match s.memberOf g e with
  | some (sid, m) =>
    let st := s.stripeOf sid
    if !st.stopped then s.padStripe sid (s.padTop g q)
    else if st.lost.testBit m then s
    else s.padPages g e q planes st.tenant
  | none => s.padPages g e q planes 0

/-! ### Rows and parity (R315) -/

/-- Parity operations of a row; a lost member takes no pass. -/
def State.addParity (s : State) (sid r : Nat) : State :=
  let st := s.stripeOf sid
  (List.range st.npar).foldl (fun s k =>
    let m := 32 + k
    if st.lost.testBit m then s.modRow sid r fun x => { x with parFirst := x.parFirst ||| 2 ^ k, parLast := x.parLast ||| 2 ^ k }
    else
    let o := s.passOp (.parity sid r m) (memberLun st m) (memberEb st m) r st.planes 1 [] (some (sid, r, m))
    let (o, s) := s.stamp o (s.stripeWaiter sid) st.tenant
    s.addPass o) (s.modRow sid r fun x => { x with parWanted := true })

/-- A row's parity goes to its members once every data slot has verified, rows in ascending order. -/
def State.rowPush (s : State) (sid r : Nat) : State :=
  match s.rowOf sid r with
  | none => s
  | some x =>
    let st := s.stripeOf sid
    if x.parWanted || (x.verified &&& dataMask st) != dataMask st then s
    else
      let s := s.modAcc sid r fun a => if a.complete = 0 then { a with complete := s.wakeSeq + 1 } else a
      let s := { s with wakeSeq := s.wakeSeq + 1 }
      if s.rows.any (fun y => y.stripe == sid && decide (y.row < r) && !y.parWanted && !y.dead) then s else s.addParity sid r

/-- Every row of a stripe whose turn has come. -/
def State.rowsPush (s : State) (sid : Nat) : State :=
  let l := (s.rows.filter (fun x => x.stripe == sid)).map (·.row)
  s.each ((List.range ((l.foldl max 0) + 1)).filter l.contains) fun s r => s.rowPush sid r

/-- A row whose parity has had its last pass is done: its accumulator is released (R319). -/
def State.rowDone (s : State) (sid r : Nat) : State :=
  match s.rowOf sid r with
  | none => s
  | some x =>
    if (x.parLast &&& parMask (s.stripeOf sid)) != parMask (s.stripeOf sid) then s
    else
      let s := s.releaseAcc sid r
      if x.noParity then s else { s with rows := s.rows.filter (fun y => !(y.stripe == sid && y.row == r)) }

/-! ### Completion of programs (R331) -/

/-- A program's completion with its location. -/
def State.progEnd (s : State) (t status detail : Nat) : State :=
  let tg := s.tagOf t
  s.later (.endTag t status detail tg.info0 tg.info1)

def State.setLoc (s : State) (t w : Nat) : State := s.modTag t fun x => { x with info0 := w % 2 ^ 32, info1 := w / 2 ^ 32 }

/-- A program that waits for nothing more ends with its own status. -/
def State.progOk (s : State) (t : Nat) : State := s.progEnd t (s.tagOf t).status (if (s.tagOf t).status = 0x36 then 1 else 0)

/-! ### Passes that verify -/

/-- A page is readable (R324): its record goes, the horizon advances, a parity row may be done, a DURABLE program completes. -/
def State.lastVerified (s : State) (g e q : Nat) (stripe : Option (Nat × Nat × Nat)) (t : Option Nat) : State :=
  let s := s.modLun g fun x => { x with recs := x.recs.filter (fun r => !(r.eb == e && r.page == q)) }
  let s := s.freeUse (.record g e q)
  let s := s.horizonUp g e q
  let s := match stripe with
    | some (sid, r, m) => if m ≥ 32 then (s.modRow sid r fun x => { x with parLast := x.parLast ||| 2 ^ (m - 32) }).rowDone sid r else s
    | none => s
  match t with
  | some t => if (s.tagOf t).held && !(s.tagOf t).inserted then s.progOk t else s
  | none => s

/-- What a pass record keeps of its program (R325). -/
def State.progOrigin (_s : State) (tg : Tag) : PassRec :=
  { desc := tg.desc, cq := tg.cq, tenant := tg.tenant, sq := tg.sq, order := some tg.seq, hostTag := dHostTag tg.desc }

/-- The first pass of a page has verified (R325, R331). A data member's page on a spare counts in its row from the swap on (R339). -/
def State.firstVerified (s : State) (o : Op) : State :=
  let g := o.loc.lun
  let s := if o.isPad then s.bump TOP_WR_PADS.COUNT 1 else s
  let s := match o.stripe with
    | some (sid, r, m) =>
      if o.isSubst && m < 32 then s
      else
      let s := s.modRow sid r fun x => if m < 32 then { x with verified := x.verified ||| 2 ^ m } else { x with parFirst := x.parFirst ||| 2 ^ (m - 32) }
      if m < 32 then s.rowsPush sid else s
    | none => s
  let own := match o.role with | .first => o.tag | .subst _ => o.tag | _ => none
  if !s.twoPass g then s.lastVerified g o.loc.eb o.loc.page o.stripe own
  else
    let tg := match own with | some t => s.tagOf t | none => {}
    let of' := if own.isSome then s.progOrigin tg else o.origin.getD {}
    let rec' : PassRec := { of' with eb := o.loc.eb, page := o.loc.page, planes := o.loc.planes, tag := own, tenant := o.tenant, cls := if own.isSome then o.cls else 2, due := s.us + s.get BRD_CLASS2.DEFAULT, digest := o.digest, stripe := o.stripe, pool := o.pooled, isPad := o.isPad, kept := match o.role with | .parity _ _ _ => if o.stripe.isNone then o.data else [] | _ => [] }
    let s := s.modLun g fun x => { x with recs := x.recs ++ [rec'] }
    match own with
    | some t => if tg.held && !tg.inserted && !dDurable tg.desc then s.progOk t else s
    | none => s

/-! ### Later passes (R323, R326) -/

def State.modRec (s : State) (g e q : Nat) (f : PassRec → PassRec) : State :=
  s.modLun g fun x => { x with recs := x.recs.map (fun r => if r.eb == e && r.page == q then f r else r) }
def State.recOf (s : State) (g e q : Nat) : Option PassRec := (s.lunOf g).recs.find? (fun r => r.eb == e && r.page == q)

/-- Every coarse pass of the next word line, or of the last one itself, has verified, so page q's word line may take its fine passes
(R323): each of its pages holds a pass record, or did so when this line's first fine pass began. -/
def State.fineMay (s : State) (g e q : Nat) : Bool :=
  let k := s.ppwl g
  let w := min (q / k + 1) (s.pages g / k - 1)
  ((s.recOf g e q).map (·.fine)).getD false || (List.range k).all fun i => (s.recOf g e (w * k + i)).isSome

/-- The word line of page q takes its fine passes. -/
def State.fineLine (s : State) (g e q : Nat) : State :=
  s.modLun g fun x => { x with recs := x.recs.map fun r => if r.eb == e && r.page / s.ppwl g == q / s.ppwl g then { r with fine := true } else r }

/-- Data of a later pass is read again: host data with its CQ's stream ID, or the stripe's Pool buffer. -/
def State.askRec (s : State) (g : Nat) (r : PassRec) : State :=
  let asked :=
    if r.pool then
      let a := s.bufAddr (.record g r.eb r.page)
      let n := popcount 8 r.planes * s.ncw g * s.cwBytes g
      (cutRun (n / 4096 + 2) (a, n)).map fun p => spoolRead 1 36 p.1 p.2 (.later g r.eb r.page (p.1 - a) p.2 (p.1 % 64))
    else
      let tg : Tag := { desc := r.desc, cq := r.cq }
      let n := popcount 8 r.planes * s.ncw g
      unitReads tg n (s.unitLen r.desc) (fun off len skip => .later g r.eb r.page off len skip) ++ (if dRaw r.desc then [] else metaReads tg n (fun off skip len => .laterMeta g r.eb r.page off skip len))
  let s := s.modRec g r.eb r.page fun r => { r with reading := true, left := asked.length, got := [] }
  asked.foldl State.ask s

/-- The fine pass of a record's page is queued. -/
def State.addLater (s : State) (g : Nat) (r : PassRec) (data : List (List Byte)) : State :=
  let s := s.modRec g r.eb r.page fun r => { r with reading := false, running := true, got := [] }
  let o := { s.passOp .later g r.eb r.page r.planes 2 data r.stripe with isPad := r.isPad }
  let t := match r.tag with
    | some t => if (s.tagOf t).held && !(s.tagOf t).inserted then some t else none
    | none => r.stripe.bind (fun x => s.stripeWaiter x.1)
  let (o, s) := match t with
    | some _ => s.stamp o t r.tenant
    | none =>
      let (q, s) := s.newSeq
      ({ o with tenant := r.tenant, cls := 2, due := r.due, due2 := r.due, seq := q }, s)
  s.addOp o

/-- Its member is being moved: later passes run on the spare after the swap (R339), but for those that R323 asks for before the
page that is being copied. -/
def State.recHeld (s : State) (g : Nat) (r : PassRec) : Bool := match r.stripe with
  | some (sid, _, m) => s.subs.any (fun x => x.kind != 3 && x.stripe == sid && x.member == m &&
      !(decide (5 ≤ x.phase) && x.toLun == g && x.toEb == r.eb && decide (r.page / s.ppwl g + 2 ≤ x.page / s.ppwl g)))
  | none => false

/-- Pages with records of a stopped stripe are padded where their members still take passes (R341). -/
def State.stopPads (s : State) (g : Nat) : State :=
  (s.lunOf g).recs.foldl (fun s r => match r.stripe with
    | some (sid, _, _) => if (s.stripeOf sid).stopped && !(r.running || r.reading || s.fineMay g r.eb r.page) then s.padBlock g r.eb r.page r.planes else s
    | none => s) s

/-- The lowest page with a record of each block of a LUN takes its later pass when R323 allows. -/
def State.passPush (s : State) (g : Nat) : State :=
  let recs := (s.lunOf g).recs
  let lows := recs.filter (fun r => !recs.any (fun x => x.eb == r.eb && decide (x.page < r.page)))
  lows.foldl (fun s r =>
    if r.running || r.reading || r.raw || s.recHeld g r || !s.fineMay g r.eb r.page then s
    else
      let s := s.fineLine g r.eb r.page
      match r.stripe with
      | some (_, _, m) => if m ≥ 32 && !r.isPad && !r.pool then s.addLater g r [] else s.askRec g r
      | none => if r.kept.isEmpty then s.askRec g r else s.addLater g r r.kept) s

end Sys2Proof.Machine
end

