-- ==== Sys2Proof/Machine/Tally.lean ====
section
/-! DEFINITION. The Tally agent of a LUN (R345 to R351): cells and records, the window's establishment and advance, intent and
clear records, TALLY_WRITE and TALLY_SCAN. -/

namespace Sys2Proof.Machine

/-! ### Cells and records (R345 to R347) -/

def TallyRec.type (r : TallyRec) : Nat := fld r.w0 31 28
/-- Programs of a record so far: one and the cleared bits of PROGS_N (R346). -/
def TallyRec.progs (r : TallyRec) : Nat := 1 + (15 - popcount 15 (fld r.w0 25 11))
/-- The record with the lowest bit of PROGS_N that is 1 cleared. -/
def progNext (w : Word32) : Word32 := match (List.range 15).find? (fun i => bit w (11 + i)) with
  | some i => putBit w (11 + i) false
  | none => w

/-- The three copies of a cell. -/
def cellBytes (r : TallyRec) : List Byte :=
  let c := natLe 4 r.w0.toNat ++ natLe 4 r.w1.toNat ++ natLe 4 r.w2.toNat ++ natLe 4 r.w3.toNat
  c ++ c ++ c ++ List.replicate 16 0xFF

/-- Word i of the majority of a cell's copies. -/
def cellWord (cell : List Byte) (i : Nat) : Word32 :=
  let at' := fun k => BitVec.ofNat 32 (leNat ((List.range 4).map fun j => cell.getD (16 * k + 4 * i + j) 0xFF))
  (at' 0 &&& at' 1) ||| (at' 0 &&& at' 2) ||| (at' 1 &&& at' 2)

/-- Records of an SLC page as read; empty cells are skipped. -/
def pageRecs (page : Nat) (bytes : List Byte) : List TallyRec :=
  ((List.range 15).map fun k =>
    let c := (bytes.drop (64 * k)).take 64
    ({ page := page, slot := k, w0 := cellWord c 0, w1 := cellWord c 1, w2 := cellWord c 2, w3 := cellWord c 3 } : TallyRec)).filter (fun r => r.type != 15)

def recIndex (gen : Nat) (r : TallyRec) : Nat := gen % 2 * 2 ^ 15 + r.page % 2048 * 16 + r.slot % 16
/-- A page's program count (R347). -/
def pageProgs (l : List TallyRec) (p : Nat) : Nat := ((l.filter (fun r => r.page == p)).map TallyRec.progs).sum

def ones32 : Word32 := 0xFFFFFFFF#32
def intentRec (eb planes tag : Nat) (time : Word32) : TallyRec :=
  { w0 := 0xEFFFFFFF#32, w1 := BitVec.ofNat 32 (eb * 2 ^ 20 + planes % 256 * 2 ^ 12 + tag % 4096), w2 := time, w3 := ones32 }
def softRec (time : Word32) (payload : Nat) : TallyRec :=
  { w0 := 0xDFFFFFFF#32, w1 := time, w2 := BitVec.ofNat 32 payload, w3 := BitVec.ofNat 32 (payload / 2 ^ 32) }
def headRec (gen : Nat) : TallyRec := { w0 := 0xCFFFFFFF#32, w1 := BitVec.ofNat 32 gen, w2 := ones32, w3 := ones32 }
def clearRec (idx : Nat) (bad : Bool) : TallyRec :=
  { w0 := if bad then 0xBBFFFFFF#32 else 0xBFFFFFFF#32, w1 := BitVec.ofNat 32 (0xFFFF0000 + idx), w2 := ones32, w3 := ones32 }

/-! ### The agent's state -/

def State.tallyOf (s : State) (g : Nat) : Tally := (s.lunOf g).tally
def State.modTally (s : State) (g : Nat) (f : Tally → Tally) : State := s.modLun g fun l => { l with tally := f l.tally }

/-- SLC pages of a pool block. -/
def State.slcPages (s : State) (g : Nat) : Nat := min (s.nwl g) 2048
def State.poolEb (s : State) (g idx : Nat) : Nat := dkTp s.force (s.kind g) idx
/-- Usable pool indices, ascending. -/
def State.poolUsable (s : State) (g : Nat) : List Nat :=
  ((s.tallyPool g).map (·.1)).filter (fun i => !(s.tallyOf g).failed.contains i)
def Tally.inWindow (t : Tally) (i : Nat) : Bool := t.w1 == i || t.w0 == some i
/-- The first usable block after idx in pool order (R348) that is not in the window. -/
def State.poolAfter (s : State) (g idx : Nat) : Option Nat :=
  let l := (s.poolUsable g).filter (fun i => !(s.tallyOf g).inWindow i)
  (l.find? (fun i => decide (idx < i))) <|> l.head?

/-- A program or erase of the agent is in flight on the LUN or has a routine. -/
def State.tallyBusy (s : State) (g : Nat) (mine : Op → Bool) : Bool :=
  s.routineOn mine || (mine (s.lunOf g).cur && ((s.lunOf g).inFlight || (s.lunOf g).suspended))

/-- The erase of pool block i with an intent record (R348, R349). -/
def State.poolIntent (s : State) (g i : Nat) : TWork := .intent (.pool i) (s.poolEb g i) 1 0xFFF

/-- Work for an erase of a pool block. -/
def Eraser.isPool (w : Eraser) : Bool := match w with | .pool _ => true | _ => false
def TWork.isPool (w : TWork) : Bool := match w with | .intent e _ _ _ => e.isPool | .clear e _ _ => e.isPool | _ => false

/-- Erases of pool blocks that no record has begun: they outlast the tags that a fence or a function reset ends, since a pre-erased block
must follow W1 (R348). -/
def Tally.poolWork (t : Tally) : List TWork :=
  (t.cur.toList ++ t.queue).filter (fun w => match w with | .intent e _ _ _ => e.isPool | _ => false)

/-- The tag that a piece of work serves. -/
def State.workTag (s : State) (w : TWork) : Option Nat := match w with
  | .intent (.tag t) _ _ _ => some t
  | .clear (.tag t) _ _ => some t
  | .intent (.sub j) _ _ _ => (s.subs.find? (fun x => x.id == j)).bind (·.tag)
  | .clear (.sub j) _ _ => (s.subs.find? (fun x => x.id == j)).bind (·.tag)
  | .write t => some t
  | .scan t => some t
  | _ => none

/-- An SLC operation of the agent, in plane 0 (Table 4.12). -/
def State.tallyOp (s : State) (g step routine idx page v3 : Nat) (data : List (List Byte)) : State :=
  let o : Op := { routine := routine, loc := { lun := g, eb := s.poolEb g idx, page := page * s.ppwl g, planes := 1 }, v3 := BitVec.ofNat 32 v3, v6 := BitVec.ofNat 32 (if routine = rtTallyProg then 64 else 0), role := .tally step, data := data }
  let t := ((s.tallyOf g).cur <|> (s.tallyOf g).queue.head?).bind s.workTag
  let t := t.bind (fun t => if (s.tagOf t).held && !(s.tagOf t).inserted then some t else none)
  let (o, s) := s.stamp o t 0
  s.addOp o

/-- EV_TALLY_FAULT (Table 9.6): 0 program failed, 1 erase failed, 2 window stopped. -/
def State.evTally (s : State) (g idx code : Nat) : State :=
  s.raise 273 2 (g + idx * 2 ^ 10 + code * 2 ^ 14) (some (.tally g))

/-- What becomes of work when no record can be taken (R350), once the agent's own event has room (R419). DESIGN CHOICE (log entry 82): a
TALLY_SCAN of a window that cannot be established finds no records. -/
def State.workFails (s : State) (g : Nat) (w : TWork) : State := match w with
  | .intent w _ _ _ => s.laterFor (.tally g) (.intentBad g w)
  | .clear w _ bad => (s.modTally g fun t => { t with flight := t.flight.filter (fun f => f.1 != w), known := t.known.filter (· != w) }).laterFor (.tally g) (.eraseOver g w (!bad))
  | .write t => s.laterFor (.tally g) (.endTag t 0x32 0 0 0)
  | .scan t => s.laterFor (.tally g) (.scanned t [])

/-- The window stops taking records (R350); a scan under way goes on. DESIGN CHOICE (log entry 82): the event names W1, or the block whose
erase or header program has just failed. -/
def State.tallyStop (s : State) (g idx : Nat) : State :=
  let t := s.tallyOf g
  let scanning := t.phase == 7
  let mine := fun (o : Op) => o.loc.lun == g && match o.role with | .tally k => k != 4 | _ => false
  let s := if scanning then s else s.dropOps mine
  let busy := scanning || s.tallyBusy g mine
  let work := (if scanning then [] else t.cur.toList) ++ t.queue
  let scans := work.filter (fun w => match w with | .scan _ => t.established | _ => false)
  let s := s.modTally g fun t => { t with stopped := true, opening := false, redo := none, phase := if busy then t.phase else 0, cur := if scanning then t.cur else none, queue := scans, ready := none }
  let s := s.evTally g idx 2
  (work.filter (fun w => !scans.contains w)).foldl (fun s w => s.workFails g w) s

/-! ### Programs of records -/

/-- Last page in use of W1, as far as the agent knows. -/
def Tally.lastPage (t : Tally) : Nat := (t.recs1.map (·.page)).foldl max 0

/-- The place of a new record in W1 (R347); none once a program in W1 has failed (R350). -/
def State.tallyPlace (s : State) (g : Nat) : Option (Nat × Nat) :=
  let t := s.tallyOf g
  if t.full then none
  else
  let last := t.lastPage
  let nop := s.geo (GEO_DK_CTRL.NOP (s.kind g))
  ((List.range 2).map (· + last)).findSome? fun p =>
    if p < s.slcPages g && decide (pageProgs t.recs1 p < nop) then
      ((List.range 15).find? (fun k => !t.recs1.any (fun r => r.page == p && r.slot == k))).map (fun k => (p, k))
    else none

/-- Program a record at its place in the block of the window that holds it. -/
def State.tallyProgram (s : State) (g : Nat) (r : TallyRec) (onW0 : Bool) : State :=
  let t := s.tallyOf g
  let idx := if onW0 then t.w0.getD 0 else t.w1
  let s := s.modTally g fun t => { t with phase := 3, now := r, onW0 := onW0 }
  s.tallyOp g 3 rtTallyProg idx r.page (64 * r.slot) [cellBytes r]

/-- The block and record of an index in the window; none beyond 2^16, which stands for a record that has left it. -/
def Tally.find (t : Tally) (idx : Nat) : Option (Bool × TallyRec) :=
  if 2 ^ 16 ≤ idx then none
  else
  let w0 := idx / 2 ^ 15 % 2 != t.gen % 2
  let l := if w0 then t.recs0 else t.recs1
  (l.find? (fun r => r.page == idx / 16 % 2048 && r.slot == idx % 16)).map (fun r => (w0, r))

/-- The record of index idx takes no further program: its page has had NOP (R347), or it has left the window. -/
def State.recSpent (s : State) (g idx : Nat) : Bool :=
  let t := s.tallyOf g
  match t.find idx with
  | some (w0, r) => decide (pageProgs (if w0 then t.recs0 else t.recs1) r.page + 1 > s.geo (GEO_DK_CTRL.NOP (s.kind g)))
  | none => true

/-- The window advances (R348), or stops for want of a pre-erased block (R350). It waits while an erase whose intent lies in the leaving W0
is in flight: its outcome is unknown, or known and not recorded in the intent, which its page still takes. Work that waits goes back
to the queue. -/
def State.tallyAdvance (s : State) (g : Nat) : State :=
  let t := s.tallyOf g
  let wait := s.modTally g fun t => { t with full := true, phase := 0, queue := t.cur.toList ++ t.queue, cur := none }
  if t.w0.isSome && t.flight.any (fun f => f.2 / 2 ^ 15 != t.gen % 2 && !(t.known.contains f.1 && s.recSpent g f.2)) then wait
  else match t.ready with
    | none => if t.flight.any (fun f => f.1.isPool && !t.known.contains f.1) then wait else s.tallyStop g (s.tallyOf g).w1
    | some i =>
      let s := s.modTally g fun t => { t with phase := 5, now := headRec (t.gen + 1) }
      s.tallyOp g 5 rtTallyProg i 0 0 [cellBytes (headRec (t.gen + 1))]

/-- A new record: at its place, or after an advance. -/
def State.tallyNew (s : State) (g : Nat) (r : TallyRec) : State :=
  match s.tallyPlace g with
  | some (p, k) => s.tallyProgram g { r with page := p, slot := k } false
  | none => s.tallyAdvance g

/-- The next piece of a window's establishment by its headers (R349). -/
def State.tallyHeaders (s : State) (g : Nat) : State :=
  match (s.tallyOf g).left with
  | i :: _ => s.tallyOp g 1 rtReadSenseSlc i 0 0 []
  | [] => s

/-- The first pool block of an empty pool is erased without an intent record (R349). -/
def State.tallyFirst (s : State) (g : Nat) : State :=
  if (s.poolUsable g).length < 3 then s.tallyStop g (s.tallyOf g).w1
  else match (s.poolUsable g).head? with
    | none => s.tallyStop g (s.tallyOf g).w1
    | some i =>
      let s := s.modTally g fun t => { t with phase := 4, first := true, again := false, w1 := i, w0 := none }
      s.tallyOp g 4 rtErase i 0 0 []

/-- The window is established; the block that follows W1 is erased with an intent record. -/
def State.tallyReady (s : State) (g : Nat) : State :=
  let s := s.modTally g fun t => { t with established := true, opening := true, phase := 0, first := false }
  match s.poolAfter g (s.tallyOf g).w1 with
  | some i => s.modTally g fun t => { t with queue := s.poolIntent g i :: t.queue }
  | none => s.tallyStop g (s.tallyOf g).w1

/-- Binary search for W1's last page in use. -/
def State.tallySearch (s : State) (g : Nat) : State :=
  let t := s.tallyOf g
  if t.lo < t.hi then
    let mid := (t.lo + t.hi + 1) / 2
    (s.modTally g fun t => { t with page := mid }).tallyOp g 6 rtReadSenseSlc t.w1 mid 0 []
  else if t.recs1.any (fun r => r.page == t.lo) then s.tallyReady g
  else (s.modTally g fun t => { t with page := t.lo }).tallyOp g 6 rtReadSenseSlc t.w1 t.lo 0 []

/-! ### Taking up work -/

/-- The cell of an UPDATE can be programmed (R252): 0 yes, 1 no such record, 2 a bit from 0 to 1, 3 NOP exhausted. -/
def State.updateCheck (s : State) (g t : Nat) : Nat :=
  let tl := s.tallyOf g
  let d := (s.tagOf t).desc
  match tl.find (dAux d % 65536) with
  | none => 1
  | some (w0, r) =>
    let p := dMeta d
    let old := r.w2.toNat + r.w3.toNat * 2 ^ 32
    if r.type != 13 then 1
    else if (BitVec.ofNat 64 p &&& ~~~ BitVec.ofNat 64 old) != 0 then 2
    else if pageProgs (if w0 then tl.recs0 else tl.recs1) r.page + 1 > s.geo (GEO_DK_CTRL.NOP (s.kind g)) then 3 else 0

/-- TALLY_WRITE with UPDATE, once the page of its record has been read. -/
def State.tallyUpdate (s : State) (g t : Nat) : State :=
  let d := (s.tagOf t).desc
  let idle := fun (s : State) => s.modTally g fun t => { t with phase := 0, cur := none }
  match s.updateCheck g t with
  | 0 => match (s.tallyOf g).find (dAux d % 65536) with
    | some (w0, r) => s.tallyProgram g { r with w0 := progNext r.w0, w2 := BitVec.ofNat 32 (dMeta d), w3 := BitVec.ofNat 32 (dMeta d / 2 ^ 32) } w0
    | none => idle s
  | 1 => (idle s).later (.endTag t 0x10 0x1E 0 0)
  | 2 => (idle s).later (.endTag t 0x12 1 0 0)
  | _ => (idle s).later (.endTag t 0x12 2 0 0)

/-- The outcome of an erase goes into its intent record, or into a clear record (R342, R347). -/
def State.tallyClear (s : State) (g idx : Nat) (bad : Bool) : State :=
  let t := s.tallyOf g
  match t.find idx with
  | some (w0, r) =>
    if s.recSpent g idx then s.tallyNew g (clearRec (idx % 2 ^ 16) bad)
    else
      let w := putBit (progNext r.w0) 27 false
      s.tallyProgram g { r with w0 := if bad then putBit w 26 false else w } w0
  | none => s.tallyNew g (clearRec (idx % 2 ^ 16) bad)

/-- The record that piece of work w writes again. -/
def Tally.rewrite (t : Tally) (w : TWork) : Option TallyRec := match t.redo with
  | some (x, r) => if x = w then some r else none
  | none => none

/-- A piece of work is taken up; a record whose program failed is written again first (R350). DEDUCED (log 82): the page of an UPDATE that the
agent does not hold is read first, since R349's 48 senses cannot bring it in, but none past the last one known to be in use; R252's refusals
program and erase nothing. -/
def State.tallyTake (s : State) (g : Nat) (w : TWork) : State :=
  let s := s.modTally g fun t => { t with cur := some w }
  match (s.tallyOf g).rewrite w with
  | some r => s.tallyNew g r
  | none =>
  match w with
  | .intent _ eb planes tag => s.tallyNew g (intentRec eb planes tag s.time32)
  | .clear _ idx bad => s.tallyClear g idx bad
  | .write t =>
    let d := (s.tagOf t).desc
    if !dSpareOpt d then s.tallyNew g (softRec s.time32 (dMeta d))
    else
      let tl := s.tallyOf g
      let idx := dAux d % 65536
      let w0 := idx / 2 ^ 15 % 2 != tl.gen % 2
      let p := idx / 16 % 2048
      let top := if w0 then tl.end0 else some tl.lastPage
      let known := (if w0 then tl.recs0 else tl.recs1).any (fun r => r.page == p) || (top.map (decide <| · < p)).getD false
      if (w0 && tl.w0.isNone) || decide (p ≥ s.slcPages g) || known then s.tallyUpdate g t
      else (s.modTally g fun t => { t with phase := 6, page := idx / 16 % 2048, onW0 := w0 }).tallyOp g 6 rtReadSenseSlc
        (if w0 then tl.w0.getD 0 else tl.w1) (idx / 16 % 2048) 0 []
  | .scan _ =>
    let tl := s.tallyOf g
    (s.modTally g fun t => { t with phase := 7, page := 0, onW0 := t.w0.isSome }).tallyOp g 6 rtReadSenseSlc (tl.w0.getD tl.w1) 0 0 []

/-- The recording of an erase's outcome. -/
def TWork.isClear (w : TWork) : Bool := match w with | .clear _ _ _ => true | _ => false

/-- The agent takes up its next work; while an advance waits, the recording of an outcome goes first (R348). -/
def State.tallyGo (s : State) (g : Nat) : State :=
  let t := s.tallyOf g
  if t.phase != 0 || s.holds (.tally g) then s
  else match t.cur with
    | some w => s.tallyTake g w
    | none => match t.queue with
      | [] => s
      | w :: l =>
        if t.stopped && !(t.established && (match w with | .scan _ => true | _ => false)) then
          (s.modTally g fun t => { t with queue := l }).workFails g w
        else if !t.established then
          (s.modTally g fun t => { t with phase := 1, left := s.poolUsable g, found := [] }).tallyHeaders g
        else if t.opening && !w.isPool then
          match l.find? TWork.isPool with
          | some p => (s.modTally g fun t => { t with queue := t.queue.erase p }).tallyTake g p
          | none => s
        else match (if t.full then t.queue.find? TWork.isClear else none) with
        | some c => (s.modTally g fun t => { t with queue := t.queue.erase c }).tallyTake g c
        | none => (s.modTally g fun t => { t with queue := l }).tallyTake g w

/-- Work for a LUN's agent. -/
def State.tallyWork (s : State) (g : Nat) (w : TWork) : State := (s.modTally g fun t => { t with queue := t.queue ++ [w] }).tallyGo g

/-! ### TALLY_SCAN (R253, R351) -/

/-- An intent's outcome is recorded: DONE = 0, or a later clear record names it. -/
def recorded (later : List TallyRec) (idx : Nat) (r : TallyRec) : Bool :=
  !bit r.w0 27 || later.any (fun c => c.type == 11 && fld c.w1 15 0 == idx)

def recSort (l : List TallyRec) : List TallyRec := l.mergeSort (fun a b => decide (a.page * 16 + a.slot ≤ b.page * 16 + b.slot))

/-- Records in window order with their index. -/
def Tally.window (t : Tally) : List (Nat × TallyRec) :=
  (recSort t.recs0).map (fun r => (recIndex (t.gen + 1) r, r)) ++ (recSort t.recs1).map (fun r => (recIndex t.gen r, r))

/-- The scan has read the window: what it writes and counts. -/
def State.tallyScanned (s : State) (g t : Nat) : State :=
  let tl := s.tallyOf g
  let d := (s.tagOf t).desc
  let all := tl.window
  let open' := all.zipIdx.filter (fun ((i, r), k) => r.type == 14 && !recorded ((all.drop (k + 1)).map (·.2)) i r)
  let l := if dSpareOpt d then open'.map (fun x => x.1.2) else all.map (·.2)
  let cap := shapeLen d / 16
  let bytes := (l.take cap).flatMap (fun r => (cellBytes r).take 16)
  let s := s.modTag t fun x => { x with info0 := min cap l.length, info1 := (if cap < l.length then 2 ^ 31 else 0) + open'.length % 65536 }
  (s.modTally g fun t => { t with phase := 0, cur := none }).later (.scanned t bytes)

/-! ### Ends of the agent's operations -/

/-- A page of the window has been read, or its sense or transfer failed. DESIGN CHOICE (log entry 82): a page that cannot be read counts as in
use, keeps the records the agent knows of it, and a scan goes on with the next page. -/
def State.tallyPage (s : State) (g : Nat) (got : Option (List TallyRec)) : State :=
  let t := s.tallyOf g
  let recs := got.getD []
  let empty := got == some []
  let keep := fun (l : List TallyRec) => if got.isSome then l.filter (fun r => r.page != t.page) ++ recs else l
  if t.phase = 2 then
    let s := s.modTally g fun t => { t with recs1 := keep t.recs1, lo := if empty then t.lo else t.page, hi := if empty then t.page - 1 else t.hi }
    if t.lo < t.hi then s.tallySearch g else s.tallyReady g
  else
    let s := s.modTally g fun t => if t.onW0 then { t with recs0 := keep t.recs0 } else { t with recs1 := keep t.recs1 }
    match t.cur with
    | some (.write x) => s.tallyUpdate g x
    | some (.scan x) =>
      if !empty && decide (t.page + 1 < s.slcPages g) then
        (s.modTally g fun t => { t with page := t.page + 1 }).tallyOp g 6 rtReadSenseSlc (if t.onW0 then t.w0.getD 0 else t.w1) (t.page + 1) 0 []
      else if t.onW0 then (s.modTally g fun t => { t with page := 0, onW0 := false }).tallyOp g 6 rtReadSenseSlc t.w1 0 0 []
      else s.tallyScanned g x
    | _ => s.modTally g fun t => { t with phase := 0 }

/-- Every pool block's header has been read (R349). -/
def State.tallyFound (s : State) (g : Nat) : State :=
  let f := (s.tallyOf g).found
  match f.find? (fun x => f.all (fun y => decide (y.2 ≤ x.2))) with
  | none => s.tallyFirst g
  | some (i, gen) =>
    let w0 := (f.find? (fun x => x.2 + 1 == gen)).map (·.1)
    (s.modTally g fun t => { t with w1 := i, w0 := w0, gen := gen, recs1 := [], recs0 := [], end0 := none, phase := 2, lo := 0, hi := s.slcPages g - 1 }).tallySearch g

/-- A header has been read, or could not be. -/
def State.tallyHeader (s : State) (g : Nat) (recs : List TallyRec) : State :=
  let t := s.tallyOf g
  let i := t.left.headD 0
  let hd := recs.find? (fun r => r.slot == 0 && r.type == 12)
  let s := s.modTally g fun t => { t with left := t.left.tail, found := match hd with | some r => t.found ++ [(i, r.w1.toNat)] | none => t.found }
  if t.left.tail.isEmpty then s.tallyFound g else s.tallyHeaders g

/-- The outcome of an erase is recorded, or will not be: it is in flight no more (R348). -/
def State.flightEnd (s : State) (g : Nat) (w : Eraser) : State :=
  s.modTally g fun t => { t with flight := t.flight.filter (fun f => f.1 != w), known := t.known.filter (· != w) }

/-- A record's program has verified. -/
def State.tallyWrote (s : State) (g : Nat) : State :=
  let t := s.tallyOf g
  let same := fun (r : TallyRec) => r.page == t.now.page && r.slot == t.now.slot
  let put := fun (l : List TallyRec) => l.filter (fun r => !same r) ++ [t.now]
  let s := s.modTally g fun t => if t.onW0 then { t with recs0 := put t.recs0 } else { t with recs1 := put t.recs1 }
  let idx := recIndex (if t.onW0 then t.gen + 1 else t.gen) t.now
  let s := s.modTally g fun t => { t with phase := 0, cur := none, redo := if (t.cur.bind t.rewrite).isSome then none else t.redo }
  match t.cur with
  | some (.intent w _ _ _) => (s.modTally g fun t => { t with flight := t.flight ++ [(w, idx)] }).later (.eraseGo g w)
  | some (.clear w _ bad) => ((s.flightEnd g w).modTally g fun t => { t with opening := t.opening && !(w.isPool && t.ready.isSome) }).later (.eraseOver g w (!bad))
  | some (.write x) => s.later (.endTag x 0 0 idx t.now.progs)
  | _ => s

/-- The header of a new W1 has verified (R348, R349): the intent record of the erase that follows goes before the work that waited. -/
def State.tallyHeaded (s : State) (g : Nat) : State :=
  let t := s.tallyOf g
  if t.first then (s.modTally g fun t => { t with gen := 1, recs1 := [headRec 1], recs0 := [], end0 := none }).tallyReady g
  else
    let i := t.ready.getD 0
    let left := fun (w : TWork) => match w with
      | .clear e idx bad => if idx < 2 ^ 16 && idx / 2 ^ 15 != t.gen % 2 then .clear e (idx + 2 ^ 16) bad else w
      | w => w
    let s := s.modTally g fun t => { t with w0 := some t.w1, w1 := i, gen := t.gen + 1, recs0 := t.recs1, end0 := some t.lastPage, recs1 := [headRec (t.gen + 1)], ready := none, phase := 0, full := false, cur := t.cur.map left, queue := t.queue.map left, redo := t.redo.map (fun x => (left x.1, x.2)) }
    match t.w0 <|> s.poolAfter g i with
    | some k =>
      let w := s.poolIntent g k
      s.modTally g fun t => if (t.cur.bind t.rewrite).isSome then { t with queue := w :: t.queue } else { t with cur := none, queue := w :: (t.cur.toList ++ t.queue) }
    | none => s

/-- An erase's outcome is known: it is to be recorded (R342, R348), and a pool block becomes the pre-erased one or is skipped (R350). -/
def State.eraseEnded (s : State) (g : Nat) (w : Eraser) (ok : Bool) : State :=
  let t := s.tallyOf g
  let idx := (t.flight.find? (fun f => f.1 == w)).map (·.2)
  let s := if idx.isSome then s.modTally g fun t => { t with known := t.known ++ [w] } else s
  let s := match w with
    | .pool i =>
      if ok then s.modTally g fun t => { t with ready := some i }
      else
        let s := (s.modTally g fun t => { t with failed := t.failed ++ [i] }).evTally g i 1
        if (s.poolUsable g).length < 3 then s.tallyStop g i
        else match s.poolAfter g i with
          | some k => s.modTally g fun t => { t with queue := s.poolIntent g k :: t.queue }
          | none => s.tallyStop g i
    | _ => s
  match idx with
  | some i => s.tallyWork g (.clear w i (!ok))
  | none => (s.modTally g fun t => { t with opening := t.opening && !w.isPool }).later (.eraseOver g w ok)

/-- An erase without a recorded outcome: its record keeps DONE = 1 (R342). -/
def State.eraseDropped (s : State) (g : Nat) (w : Eraser) : State :=
  (s.flightEnd g w).modTally g fun t => { t with opening := t.opening && !w.isPool }

/-- The record that is written again in the new W1 after its program failed (R350): an UPDATE's and a new record's content in a fresh cell.
DEDUCED (log entry 82): for the recording of an outcome it is a clear record, since the intent's cell is unknown. -/
def State.recAgain (_s : State) (t : Tally) : Option TallyRec := match t.cur with
  | some (.clear _ idx bad) => some (clearRec (idx % 2 ^ 16) bad)
  | some _ => some { t.now with w0 := t.now.w0 ||| 0x0FFFFFFF#32 }
  | none => none

/-- A program of a record or header, or a first erase, has failed (R349, R350). -/
def State.tallyFailed (s : State) (g : Nat) : State :=
  let t := s.tallyOf g
  if t.stopped then s.modTally g fun t => { t with phase := 0, cur := none }
  else if t.phase = 3 then
    let s := (s.evTally g (if t.onW0 then t.w0.getD 0 else t.w1) 0).modTally g fun t => { t with phase := 0, full := true, redo := t.cur.bind (fun w => (s.recAgain t).map (fun r => (w, r))) }
    s.tallyAdvance g
  else if t.phase = 5 && t.first then
    let s := (s.evTally g t.w1 0).modTally g fun t => { t with phase := 4, again := true }
    s.tallyOp g 4 rtErase t.w1 0 0 []
  else if t.phase = 5 then
    let i := t.ready.getD 0
    ((s.evTally g i 0).modTally g fun t => { t with phase := 0, ready := none, failed := t.failed ++ [i] }).tallyStop g i
  else s

/-- An erase without an intent record has ended (R349). -/
def State.tallyErased (s : State) (g : Nat) (ok : Bool) : State :=
  let t := s.tallyOf g
  let bad := fun (s : State) (i : Nat) => s.modTally g fun t => { t with failed := t.failed ++ [i], phase := 0 }
  if t.again then (if ok then bad s t.w1 else (bad s t.w1).evTally g t.w1 1).tallyFirst g
  else if ok then
    (s.modTally g fun t => { t with phase := 5, now := headRec 1 }).tallyOp g 5 rtTallyProg t.w1 0 0 [cellBytes (headRec 1)]
  else ((bad s t.w1).evTally g t.w1 1).tallyFirst g

/-- An operation of the agent has ended (R154). -/
def State.tallyEnd (s : State) (g step : Nat) (o : Op) (result : Nat) : State :=
  let t := s.tallyOf g
  let n := lunChan g
  let bytes := ((s.stageOf n o.v7.toNat).map (·.bytes)).getD []
  let free := fun (s : State) => s.dropStage n (fun x => x.handle == o.v7.toNat)
  if step = 1 || step = 6 then
    if result = resDone then
      s.addOp { o with routine := rtReadXfer, v3 := 0, v4 := 0, v7 := 0, role := .tally (step + 1) }
    else if step = 1 then s.tallyHeader g [] else s.tallyPage g none
  else if step = 2 then (free s).tallyHeader g (if result = resDone then pageRecs 0 bytes else [])
  else if step = 7 then (free s).tallyPage g (if result = resDone then some (pageRecs t.page bytes) else none)
  else if step = 3 then (if result = resDone then (free s).tallyWrote g else (free s).tallyFailed g).tallyGo g
  else if step = 5 then (if result = resDone then (free s).tallyHeaded g else (free s).tallyFailed g).tallyGo g
  else match t.flight.find? (fun f => !t.known.contains f.1 && match f.1 with | .pool i => s.poolEb g i == o.loc.eb | _ => false) with
    | some (w, _) => s.eraseEnded g w (result = resDone)
    | none => s.tallyErased g (result = resDone)

end Sys2Proof.Machine
end

