-- ==== Sys2Proof/Machine/Subst.lean ====
section
/-! DEFINITION. Spare erase blocks (R190 to R192), substitution and what a failed pass leads to (R339 to R341, Table 9.2),
SUBSTITUTE and REBUILD (R250, R454, R455), and the ends of erases (R342, R343). -/

namespace Sys2Proof.Machine

def State.subOf (s : State) (j : Nat) : Option Sub := s.subs.find? (fun x => x.id == j)
def State.modSub (s : State) (j : Nat) (f : Sub → Sub) : State := { s with subs := s.subs.map (fun x => if x.id = j then f x else x) }
/-- A spare that takes no further page before the swap: its pass records go (R339). -/
def State.spareDrop (s : State) (x : Sub) : State :=
  if x.phase != 5 then s
  else
    let here := fun (o : Op) => o.loc.lun == x.toLun && o.loc.eb == x.toEb && o.isPass
    let s := s.dropOps here
    let s := ((s.lunOf x.toLun).recs.filter (fun r => r.eb == x.toEb)).foldl (fun s r => s.freeUse (.record x.toLun x.toEb r.page)) (s.freeUse (.record x.toLun x.toEb x.page))
    s.modLun x.toLun fun l => { l with recs := l.recs.filter (fun r => r.eb != x.toEb) }
/-- A substitution is over. -/
def State.endSub (s : State) (j : Nat) : State :=
  let s := match s.subOf j with
    | some x => s.spareDrop x
    | none => s
  { s with subs := s.subs.filter (fun x => x.id != j) }

/-- A held tag whose completion is not in the COS. -/
def State.live' (s : State) (t : Nat) : Bool := (s.tagOf t).held && !(s.tagOf t).inserted && !(s.tagOf t).ended
/-- The held tag that waits on a substitution. -/
def State.subTag (s : State) (x : Sub) : Option Nat := x.tag.bind (fun t => if s.live' t then some t else none)

/-- Port and stream ID of its Block Substitution accesses (R190). -/
def State.subPort (s : State) (x : Sub) : Nat × Nat := match s.subTag x with
  | some t => ((s.tagOf t).cq % 2, (s.tagOf t).cq)
  | none => (1, 36)

/-! ### Taking a spare -/

/-- LUN whose spares serve a substitution. -/
def Sub.bstLun (x : Sub) : Nat := if x.kind = 2 then x.toLun else x.lun
def State.bstAddr (s : State) (g : Nat) : Nat := s.geo GEO_BST_BASE_HI.ADDR * 2 ^ 32 + s.geo GEO_BST_BASE_LO.ADDR + 64 * g

/-- A slot's folded code words are folded again, which takes them out of the row (R377). -/
def State.unfold (s : State) (o : Op) : State :=
  let s := s.dropRecord o
  match o.stripe with
  | some (sid, r, m) => if o.folded && m < 32 then (s.foldSlot sid r m none o.data).modRow sid r fun x => { x with folded := x.folded &&& (2 ^ 33 - 1 - 2 ^ m) } else s
  | none => s

/-- A pass that satisfies p runs, is parked, suspended or past its confirm, or has just ended. -/
def State.passOut (s : State) (p : Op → Bool) : Bool :=
  s.routineOn p || s.luns.any (fun e => p e.2.cur || (e.2.hung.map p).getD false) || s.todo.any (fun t => match t with | .opEnd o _ _ _ => p o | _ => false)

/-- Slot (r, m) comes before slot (r', m'). -/
def slotBefore (r m r' m' : Nat) : Bool := decide (r < r') || (r' == r && decide (m < m'))

/-- In a stopped stripe later slots are not programmed; the row of the failed page gets its parity once the passes of that row which run on
other members have ended (R341). -/
def State.stopEnds (s : State) (sid row m : Nat) : State :=
  let st := s.stripeOf sid
  if st.state = 0 then s
  else
    let later := slotBefore row m
    let waits := fun (t : Nat) => (s.tagOf t).phase == 0 || s.ops.any (fun o => o.role == Role.first && o.tag == some t)
    let gone := s.tags.filter fun (i, t) => t.held && !t.inserted && !t.ended && waits i && match t.slot with | some (i, r', m') => i == sid && later r' m' | none => false
    let firsts := s.ops.filter (fun o => o.role == Role.first && gone.any (fun e => o.tag == some e.1))
    let s := gone.foldl (fun s (t, _) => s.later (.endTag t 0x32 3 0 0)) ((firsts.foldl State.unfold s).dropOps (fun o => firsts.contains o))
    let pads := s.ops.filter (fun o => o.isPad && o.role != Role.later && match o.stripe with | some (i, r', m') => i == sid && decide (m' < 32) && later r' m' | none => false)
    let s := (pads.foldl State.dropRecord s).dropOps (fun o => pads.contains o)
    let out := fun (m' : Nat) => m' != m && (s.passOut (fun o => o.stripe == some (sid, row, m') && (o.isFirst || o.isSubst))
      || s.subs.any (fun y => y.stripe == sid && y.member == m' && y.failed == some row))
    let ended := ((List.range st.ndata).map (fun m' => if decide (m ≤ m') && !out m' then 2 ^ m' else 0)).sum
    let s := if m < 32 then s.modRow sid row fun y => { y with verified := y.verified ||| ended } else s
    s.rowsPush sid

/-- A stripe stops (R341): closed and degraded, and told. -/
def State.stopStripe (s : State) (sid row m : Nat) : State :=
  let st := s.stripeOf sid
  if st.state = 0 then s
  else
    let first := !st.stopped || slotBefore row m st.stopRow st.stopMember
    let s := s.modStripe sid fun st => { st with state := 2, degraded := true, stopped := true, stopRow := if first then row else st.stopRow, stopMember := if first then m else st.stopMember }
    (s.evStripeDegraded sid 3 (some (.stripe sid))).andThen (.stripe sid) (.stopped sid row m) (·.stopEnds sid row m)

/-- Pass code of EV_LATE_PROGRAM_FAIL: 1 coarse, 2 fine, 3 pad. DESIGN CHOICE (log 89): a one-shot pass, which Table 9.6 does not list, is 1. -/
def Op.passCode (o : Op) : Nat := if o.isPad then 3 else if o.role == .later || o.v4 == 2 then 2 else 1

/-- Tags that a failed pass concerns: the program's own, or for a pad those of the same member block that wait on it. -/
def State.failTags (s : State) (x : Sub) : List Nat :=
  (if x.op.isPad then (s.lunOf x.lun).recs.filterMap (fun r => if r.eb = x.eb then r.tag else none) else x.tag.toList).filter s.live'

/-- The page of a pass that has failed for good loses its record and buffer; outside a stripe its block halts there (R323). -/
def State.passOver (s : State) (g e q : Nat) (halt : Bool) : State :=
  let s := (s.freeUse (.record g e q)).modLun g fun l => { l with recs := l.recs.filter (fun r => !(r.eb == e && r.page == q)) }
  if halt then s.frontHalt g e q else s

/-- The failed pass of a member that takes no spare is told: its tags' completions, or the late event (Table 9.2). -/
def State.passTell (s : State) (x : Sub) : State :=
  let o := x.op
  let code := o.passCode
  let detail := if code = 3 then 2 else if code = 2 then 1 else 3
  let tags := s.failTags x
  let s := tags.foldl (fun s t => s.later (.endTag t 0x32 detail 0 0)) s
  if tags.isEmpty || (match o.role with | .parity _ _ _ => true | _ => false) then
    s.evLateFail x.lun x.eb o.loc.page code (if x.bad == some (0, 3) then 3 else 1) 0 x.stripe (some (.pass x.lun x.eb o.loc.page)) else s

/-- It is told and over. -/
def State.passLost (s : State) (x : Sub) : State :=
  let q := x.op.loc.page
  (s.passTell x).andThen (.pass x.lun x.eb q) (.passOver x.lun x.eb q false) (·.passOver x.lun x.eb q false)

/-- A lost member takes no more passes: what waits on it ends, and its rows go on without it. -/
def State.memberGone (s : State) (x : Sub) : State :=
  let own := fun (p : Op) => (match p.stripe with | some (i, _, m) => i == x.stripe && m == x.member | none => false) && p.loc.lun == x.lun && p.loc.eb == x.eb && !p.isSubst
  let tags := (s.ops.filter (fun p => own p && p.role == .first)).filterMap (·.tag) ++ ((s.lunOf x.lun).recs.filter (fun r => r.eb == x.eb)).filterMap (·.tag)
  let s := (tags.filter s.live').foldl (fun s t => s.later (.endTag t 0x32 3 0 0)) s
  let s := ((s.lunOf x.lun).recs.filter (fun r => r.eb == x.eb)).foldl (fun s r => s.freeUse (.record x.lun x.eb r.page)) s
  let s := (s.ops.filter own).foldl State.dropRecord s
  let s := (s.dropOps own).modLun x.lun fun l => { l with recs := l.recs.filter (fun r => r.eb != x.eb) }
  let s := s.modStripe x.stripe fun st => { st with lost := st.lost ||| 2 ^ x.member }
  if x.member < 32 then s
  else
    let b := 2 ^ (x.member - 32)
    (((s.rows.filter (fun y => y.stripe == x.stripe && y.parWanted)).map (·.row))).foldl (fun s r =>
      (s.modRow x.stripe r fun y => { y with parFirst := y.parFirst ||| b, parLast := y.parLast ||| b }).rowDone x.stripe r) s

/-- A lost member's failed pass has been told: the member is lost, or on a digest mismatch only not substituted, and the stripe stops (R341).
Other failed passes of the same member follow it. -/
def State.lostOver (s : State) (j : Nat) : State :=
  match s.subOf j with
  | none => s
  | some x =>
    let same := s.subs.filter (fun y => y.id != j && y.kind == 0 && y.stripe == x.stripe && y.member == x.member)
    let s := (s.passOver x.lun x.eb x.op.loc.page false).endSub j
    if x.bad == some (0, 3) then s.stopStripe x.stripe x.op.loc.page x.member
    else
      let s := same.foldl (fun s y => ((s.passLost y).modRow y.stripe y.op.loc.page fun r => if y.member < 32 then { r with verified := r.verified ||| 2 ^ y.member } else r).endSub y.id) s
      (s.memberGone x).stopStripe x.stripe x.op.loc.page x.member

/-- The member of a failed pass gets no spare (Table 9.2). -/
def State.subLost (s : State) (j : Nat) : State :=
  match s.subOf j with
  | none => s
  | some x => ((s.passTell x).modSub j fun y => { y with phase := 7 }).andThen (.pass x.lun x.eb x.op.loc.page) (.lostOver j) (·.lostOver j)

/-- No spare qualifies, or none may be taken (R192). -/
def State.subNoSpare (s : State) (j : Nat) (tell : Bool) : State :=
  match s.subOf j with
  | none => s
  | some x =>
    let s := if tell then s.evSpareExhausted 5 x.bstLun else s
    if x.kind = 0 then s.subLost j
    else if x.kind = 3 then
      let w := locWord x.lun x.eb 0 0 0 x.planes
      match x.tag with
      | some t => (s.endSub j).later (.endTag t 0x33 2 (w % 2 ^ 32) (w / 2 ^ 32))
      | none => s.endSub j
    else match x.tag with
      | some t =>
        let (a, b) := if x.kind = 2 then ((s.tagOf t).matched, (s.tagOf t).aborted) else (0, 0)
        (s.endSub j).later (.endTag t 0x37 0 a b)
      | none => s.endSub j

/-- Entries of a Block Substitution record are tried in order (R190, R191). -/
def State.subPick (s : State) (j : Nat) : List Nat → State
  | [] => s.subNoSpare j true
  | k :: l =>
    match s.subOf j with
    | none => s
    | some x =>
      let g := x.bstLun
      let w := leNat ((x.record.drop (4 + 2 * k)).take 2)
      let eb := w % 4096
      let (port, sid) := x.port
      let put := fun (s : State) (v : Nat) (bad : Bool) =>
        s.ask (spoolWrite port sid (s.bstAddr g + 4 + 2 * k) (natLe 2 v) (.bstWrite j k bad))
      if w / 2 ^ 14 != 0 && (w.testBit 15 || w.testBit 14) then s.subPick j l
      else if decide (eb ≥ s.ebs g) || s.inPool g eb || eb == x.eb then
        ((put s (w ||| 2 ^ 14) true).modSub j fun x => { x with record := x.record.take (4 + 2 * k) ++ natLe 2 (w ||| 2 ^ 14) ++ x.record.drop (6 + 2 * k) }).subPick j l
      else
        (put s (w ||| 2 ^ 15) false).modSub j fun x => { x with phase := 2, entry := k, toEb := eb, toLun := g, record := x.record.take (4 + 2 * k) ++ natLe 2 (w ||| 2 ^ 15) ++ x.record.drop (6 + 2 * k) }

/-- The record of a LUN has been read. -/
def State.subRecord (s : State) (j : Nat) (data : List Byte) : State :=
  let n := leNat (data.take 1) % 32
  (s.modSub j fun x => { x with record := data }).subPick j (List.range (min n 30))

/-- Ask for the record, or for the next spare of it. -/
def State.subTake (s : State) (j : Nat) : State :=
  match s.subOf j with
  | none => s
  | some x =>
    let g := x.bstLun
    if s.geo GEO_BST_CFG.EN = 0 || s.isFenced g then s.subNoSpare j (s.geo GEO_BST_CFG.EN = 0)
    else
      let (port, sid) := s.subPort x
      (s.modSub j fun x => { x with phase := 1, port := (port, sid) }).ask (spoolRead port sid (s.bstAddr g) 64 (.bstRead j))

/-- The spare is erased, with an intent record (R339, R342). -/
def State.subErase (s : State) (j : Nat) : State :=
  match s.subOf j with
  | none => s
  | some x => (s.modSub j fun x => { x with phase := 3 }).tallyWork x.toLun (.intent (.sub j) x.toEb x.planes ((s.subTag x).getD 0xFFF))

/-- A new substitution waits its turn on its LUN. -/
def State.newSub (s : State) (x : Sub) : State :=
  if s.freset.busy then s
  else
    let (id, s) := s.newId
    { s with subs := s.subs ++ [{ x with id := id }] }

/-- A substitution that waits takes its turn: one at a time on a LUN, in the order found (R190). DEDUCED (log 90): a SUBSTITUTE whose member has
been moved meanwhile names no member any more (R250). -/
def State.subStart (s : State) (j : Nat) : State :=
  match s.subOf j with
  | none => s
  | some x =>
    if x.phase != 0 || s.subs.any (fun y => decide (y.id < j) && y.bstLun == x.bstLun) then s
    else if x.kind = 2 then s.subErase j
    else if x.kind = 1 && !(memberLun (s.stripeOf x.stripe) x.member == x.lun && memberEb (s.stripeOf x.stripe) x.member == x.eb) then
      match x.tag with
      | some t => (s.endSub j).later (.endTag t 0x10 0x20 0 0)
      | none => s.endSub j
    else s.subTake j

/-! ### Copying (R339 steps 2 and 3, R454) -/

/-- Plain information, or the parity words, from stored forms at a place. -/
def State.infosOf (s : State) (g e q planes : Nat) (parity : Bool) (data : List (List Byte)) : Tab (List Byte) :=
  (s.pageUnits g planes).zipIdx.map fun ((p, c), i) =>
    let w := (data.getD i []).take infoBytes
    (p * 4 + c, if parity then w else xorBytes w (keystream infoBytes (seedOf g e q p c)))

/-- Stored forms of a member's page at a place from its information. -/
def State.storedAt (s : State) (g e q planes : Nat) (parity : Bool) (got : Tab (List Byte)) : List (List Byte) :=
  (s.pageUnits g planes).map fun (p, c) =>
    let w := fitBytes infoBytes (tabGet (fun _ => []) got (p * 4 + c))
    if parity then w ++ ldpcParity (s.ldpcM g) w else storedForm (s.ldpcM g) (seedOf g e q p c) w

/-- Pages of a member to be carried over, in ascending order. -/
def State.subPages (s : State) (x : Sub) : List Nat :=
  let st := s.stripeOf x.stripe
  let n := s.pages x.lun
  (List.range n).filter fun r =>
    x.failed == some r || (if x.kind = 2 then (if x.member < 32 then s.slotFolded x.stripe r x.member && decide (r < st.nextRow + 1) else s.slotVerified x.stripe r x.member)
      else s.slotVerified x.stripe r x.member && (decide (x.member ≥ 32) || s.slotFolded x.stripe r x.member || s.rowBare x.stripe r) && decide (r < st.nextRow + 1))

/-- The page programmed on the spare. -/
def State.subProgram (s : State) (j : Nat) : State :=
  match s.subOf j with
  | none => s
  | some x =>
    let q := x.page
    let parity := s.parityPage x.stripe q x.member
    let data := if x.padNow then s.padWords x.toLun x.toEb q x.planes else s.storedAt x.toLun x.toEb q x.planes parity x.got
    let own := x.failed == some q
    let old := s.recOf x.lun x.eb q
    let pool := s.twoPass x.toLun && (!parity || (!own && (decide (x.kind = 2) || s.pageReadable x.lun x.eb q)) || (s.accOf x.stripe q).isNone)
    let o := s.passOp (.subst j) x.toLun x.toEb q x.planes 1 data (some (x.stripe, q, x.member))
    let (o, s) := s.stamp o (s.subTag x) (s.stripeOf x.stripe).tenant
    let boss := if x.kind = 0 then none else x.tag
    let o := if own then { o with tag := x.tag, origin := x.origin, boss := boss, isPad := x.op.isPad, digest := (old.map (·.digest)).getD x.op.digest, pooled := s.twoPass x.toLun && (x.op.pooled || x.op.isPad || (old.map (·.pool)).getD false) && pool }
      else { o with tag := none, boss := boss, isPad := x.padNow || (old.map (·.isPad)).getD false || (decide (x.member ≥ 32) && !parity), pooled := pool }
    let was := s.storedAt x.lun x.eb q x.planes parity x.got
    let diff := (was.zip data).zipIdx.map fun ((a, b), i) => (q, i, xorBytes (a.take infoBytes) (b.take infoBytes))
    let s := s.modSub j fun y => { y with diffs := if decide (x.member ≥ 32) || x.padNow then y.diffs else y.diffs ++ diff }
    s.addPass o

/-- Sourcing of the next page, or the swap. -/
def State.subPage (s : State) (j : Nat) : State :=
  match s.subOf j with
  | none => s
  | some x =>
    match x.pages with
    | [] => s.modSub j fun x => { x with phase := 6 }
    | q :: _ =>
      let parity := s.parityPage x.stripe q x.member
      let s := s.modSub j fun x => { x with page := q, got := [], reads := 0, bad := none, padNow := false }
      if parity && x.kind != 2 && !x.op.isPad && (s.accOf x.stripe q).isSome && (x.failed == some q || !s.pageReadable x.lun x.eb q) then
        let s := s.readAcc x.stripe q x.member
        let words := (s.slotUnits (s.stripeOf x.stripe)).zipIdx.map fun ((p, c), i) => (p * 4 + c, (s.parityWord x.stripe q x.member i).take infoBytes)
        (s.modSub j fun y => { y with got := words }).subProgram j
      else if x.kind != 2 && x.failed == some q then
        (s.modSub j fun y => { y with got := s.infosOf x.lun x.eb q x.planes parity x.op.data }).subProgram j
      else if x.kind = 2 then
        let base : Rac := { owner := .sub j, lun := x.lun, eb := x.eb, page := q, cws := List.range (s.ncw x.lun) }
        let (base, s) := match s.subTag x with
          | some t => ({ base with tag := some t, tenant := (s.tagOf t).tenant, cls := dClass (s.tagOf t).desc, due := (s.tagOf t).due, order := (s.tagOf t).seq }, s)
          | none => let (n, s) := s.newSeq; ({ base with cls := 2, due := s.us + s.get BRD_CLASS2.DEFAULT, order := n }, s)
        (planeList x.planes).foldl (fun s p =>
          let (ok, s) := s.startRac { base with plane := p }
          if ok then s.modSub j fun y => { y with reads := y.reads + 1 }
          else (s.modSub j fun y => { y with reads := y.reads + 1 }).later (.subSourced j (some (0x30, 0)))) s
      else if s.pageReadable x.lun x.eb q then
        let base : PRead := { owner := .sub j, lun := x.lun, eb := x.eb, page := q, cws := (List.range (s.ncw x.lun)).map (fun c => { cw := c }) }
        let (base, s) := match s.subTag x with
          | some t => ({ base with tag := some t, tenant := (s.tagOf t).tenant, cls := dClass (s.tagOf t).desc, due := (s.tagOf t).due, order := (s.tagOf t).seq }, s)
          | none => let (n, s) := s.newSeq; ({ base with cls := 2, due := s.us + s.get BRD_CLASS2.DEFAULT, order := n }, s)
        (planeList x.planes).foldl (fun s p => (s.modSub j fun y => { y with reads := y.reads + 1 }).startRead { base with plane := p }) s
      else match s.recOf x.lun x.eb q with
        | some r => s.askRec x.lun r
        | none => (s.modSub j fun y => { y with reads := 1 }).later (.subSourced j (some (0x30, 0)))

/-- A page's data has come from its pass record (R339 step 2). -/
def State.subFromRec (s : State) (x : Sub) (data : List (List Byte)) : State :=
  (s.modSub x.id fun y => { y with got := s.infosOf x.lun x.eb x.page x.planes false data }).subProgram x.id

/-- A page read of a substitution has ended. -/
def State.subRead (s : State) (j : Nat) (r : PRead) : State :=
  let st := resStatus (r.cws.map (·.res))
  let s := s.modSub j fun x => { x with got := r.cws.foldl (fun t c => tabIns (r.plane * 4 + c.cw) (c.word.take infoBytes) (tabDrop (r.plane * 4 + c.cw) t)) x.got }
  s.later (.subSourced j (if st.1 < 0x30 then none else some st))

/-! ### The end of a substitution -/

/-- An operation of a member that has not started moves with it. -/
def State.relocate (s : State) (x : Sub) (o : Op) : Op :=
  match o.stripe with
  | some (sid, r, m) =>
    if sid = x.stripe && m = x.member && o.loc.lun = x.lun && o.loc.eb = x.eb then
      let parity := decide (m ≥ 32) && !o.isPad
      { o with loc := { o.loc with lun := x.toLun, eb := x.toEb }, data := if o.data.isEmpty then [] else s.storedAt x.toLun x.toEb r o.loc.planes parity (s.infosOf x.lun x.eb r o.loc.planes parity o.data) }
    else o
  | none => o

/-- A parity pass of the row has taken its data, on a spare too: it runs, is parked, or is past its confirm. -/
def State.parityTaken (s : State) (sid r : Nat) : Bool :=
  s.passOut fun o => match o.role, o.stripe with
    | .parity i q _, _ => i == sid && q == r
    | .subst _, some (i, q, m) => i == sid && q == r && decide (m ≥ 32)
    | _, _ => false

/-- The row's parity has not had its first pass, nor taken its data for it. -/
def State.rowOpen (s : State) (sid r : Nat) : Bool := match s.rowOf sid r with
  | some x => x.parFirst == 0 && !s.parityTaken sid r
  | none => false

/-- The swap of a member sets DEGRADED: a page of it lies in a row whose parity is, or is being, programmed (R340, R455). -/
def State.subDegrades (s : State) (x : Sub) : Bool := x.degrade || x.diffs.any (fun d => !s.rowOpen x.stripe d.1)

/-- The change of stored form of an operation that has been folded and moves is folded too (R339 step 4). -/
def State.foldMove (x : Sub) (s : State) (o : Op) : State := match o.stripe with
  | some (sid, r, m) => if o.folded && decide (m < 32) && s.relocate x o != o then
      s.foldSlot sid r m none ((o.data.zip (s.relocate x o).data).map (fun (a, b) => xorBytes (a.take infoBytes) (b.take infoBytes))) else s
  | none => s

/-- Substitutions of the same member that wait their turn, for passes that failed while it was moved, go on from its new place. -/
def State.subFollow (s : State) (x : Sub) : State :=
  let mine := fun (y : Sub) => y.id != x.id && y.kind == 0 && y.phase == 0 && y.stripe == x.stripe && y.member == x.member && y.lun == x.lun && y.eb == x.eb
  let s := (s.subs.filter mine).foldl (fun s y => s.foldMove x y.op) s
  { s with subs := s.subs.map fun (y : Sub) => if mine y then { y with lun := x.toLun, eb := x.toEb, op := s.relocate x y.op } else y }

/-- The member is swapped (R339 steps 4 and 5, R340, R267): passes that wait move with it, the change of stored form of one already folded is
folded too, and a later pass that waits gives way to that of the spare's record. -/
def State.subSwap (s : State) (j : Nat) : State :=
  match s.subOf j with
  | none => s
  | some x =>
    let deg := s.subDegrades x
    let s := x.diffs.foldl (fun s (r, i, d) => if s.rowOpen x.stripe r then s.fold x.stripe r x.member none i d else s) s
    let s := s.modStripe x.stripe fun st => { st with degraded := st.degraded || deg, members := st.members.set x.member (x.kind != 2 || x.toEb != x.eb, x.toLun, x.toEb) }
    let s := if x.kind = 2 then s else s.evSpareTaken 5 x.lun x.toEb
    let s := match x.failed with
      | some r =>
        let s := s.freeUse (.record x.lun x.eb r)
        if x.member < 32 then (s.modRow x.stripe r fun y => { y with verified := y.verified ||| 2 ^ x.member }).rowsPush x.stripe else s
      | none => s
    let s := s.dropOps (fun o => o.role == .later && s.relocate x o != o)
    let s := s.ops.foldl (State.foldMove x) s
    let go := s.ops.filter (fun o => s.relocate x o != o)
    let moved := go.filter (·.pooled)
    let s := moved.foldl State.dropRecord s
    let s := go.foldl (fun s o => s.addOp (s.relocate x o)) (s.dropOps go.contains)
    let s := s.subFollow x
    let s := moved.foldl (fun s o => s.need (classFor ((o.data.map List.length).sum)) (stripeOwner x.stripe) (.record x.toLun x.toEb o.loc.page)) s
    let old := (s.lunOf x.lun).recs.filter (fun r => r.eb == x.eb)
    let s := old.foldl (fun s r => s.freeUse (.record x.lun x.eb r.page)) s
    let s := s.modLun x.lun fun l => { l with recs := l.recs.filter (fun r => r.eb != x.eb) }
    let s := old.foldl (fun s r => s.modRec x.toLun x.toEb r.page fun y => { y with tag := y.tag <|> r.tag, desc := r.desc, cq := r.cq, sq := r.sq, order := r.order, hostTag := r.hostTag, due := r.due, cls := r.cls, pool := y.pool }) s
    s.each ((s.tags.filter (fun (_, t) => t.held && !t.inserted && match t.slot with | some (i, _, m) => i == x.stripe && m == x.member | none => false)).map (·.1)) fun s t =>
      match (s.tagOf t).slot with
      | some (_, r, _) => s.setLoc t (s.locOf x.toLun x.toEb r x.planes)
      | none => s

/-- A substitution, SUBSTITUTE or REBUILD member that has been told ends: what its tags report. -/
def State.subDone (s : State) (j : Nat) (deg : Bool) (tags : List Nat) : State :=
  match s.subOf j with
  | none => s
  | some x =>
    let s := s.endSub j
    if x.kind = 0 then
      if x.op.isPad || x.op.role == .later then tags.foldl (fun s t => s.modTag t fun y => { y with status := 0x31 }) s else s
    else if x.kind = 1 then
      match x.tag with
      | some t =>
        let w := locWord x.toLun x.toEb 0 0 (s.ncw x.toLun) x.planes
        s.later (if deg then .endTag t 0x36 1 (w % 2 ^ 32) (w / 2 ^ 32) else .endTag t 0 0 (w % 2 ^ 32) (w / 2 ^ 32))
      | none => s
    else match x.tag with
      | some t => s.modTag t fun y => { y with matched := y.matched + 1, aborted := y.aborted + x.notRebuilt, status := if x.notRebuilt != 0 then 2 else if deg then max y.status 1 else y.status }
      | none => s

/-- The swap is made; a failed pass that no tag reports is told, and the substitution waits for that record (R419). -/
def State.subMove (s : State) (j : Nat) : State :=
  match s.subOf j with
  | none => s
  | some x =>
    let tags := s.failTags x
    let deg := s.subDegrades x
    let s := (s.subSwap j).modSub j fun y => { y with phase := 7 }
    let other := match x.op.role with | .parity _ _ _ => true | _ => false
    let late := match x.op.role with | .first => x.op.tag.isSome && (match x.op.tag with | some t => !((s.tagOf t).held) || (s.tagOf t).status != 0x31 | none => true) | _ => true
    let s := if x.kind = 0 && (other || (tags.isEmpty && late)) then
        s.evLateFail x.lun x.eb x.op.loc.page x.op.passCode (if deg then 2 else 0) x.toEb x.stripe (some (.sub j)) else s
    s.andThen (.sub j) (.subDone j deg tags) (·.subDone j deg tags)

/-- A substitution, SUBSTITUTE or REBUILD member is done: a stripe that it degrades is told first, and the swap waits for that record (R419). -/
def State.subFinish (s : State) (j : Nat) : State :=
  match s.subOf j with
  | none => s
  | some x =>
    let s := if s.subDegrades x && !x.told then (s.modSub j fun y => { y with told := true }).evStripeDegraded x.stripe 2 (some (.sub j)) else s
    if s.holds (.sub j) then s else s.subMove j

/-- The sources of a page are there, or are not (R250, R339, R455); of several failures the first in R298's order counts. -/
def State.subSourced (s : State) (j : Nat) (why : Option (Nat × Nat)) : State :=
  match s.subOf j with
  | none => s
  | some x =>
    let bad := match x.bad, why with
      | some a, some b => some (if a.1 < b.1 then b else a)
      | a, b => a <|> b
    let s := s.modSub j fun x => { x with reads := x.reads - 1, bad := bad }
    if x.reads > 1 then s
    else if bad.isNone then s.subProgram j
    else if x.kind = 2 then
      let pad := (s.pageUnits x.lun x.planes).map (fun (p, c) => (p * 4 + c, padInfo))
      (s.modSub j fun x => { x with got := pad, padNow := true, notRebuilt := x.notRebuilt + 1, degrade := true, bad := none }).subProgram j
    else if x.kind = 0 then s.subLost j
    else match x.tag, bad with
      | some t, some (st, d) => (s.endSub j).later (.endTag t st d 0 0)
      | _, _ => s.endSub j

/-- A page has been programmed on the spare, or its program failed with this status and detail (R250). -/
def State.subPassed (s : State) (j : Nat) (o : Op) (bad : Option (Nat × Nat)) : State :=
  match s.subOf j with
  | none => s
  | some x =>
    if bad.isNone then
      let own := x.failed == some o.loc.page
      let s := if own then (match o.tag with | some t => s.modTag t fun y => { y with status := 0x31 } | none => s) else s
      let s := match o.tag with
        | some t => if own then s.setLoc t (s.locOf o.loc.lun o.loc.eb o.loc.page o.loc.planes) else s
        | none => s
      ((s.firstVerified o).modSub j fun x => { x with pages := x.pages.tail }).subPage j
    else if x.kind = 0 then s.subLost j
    else if x.kind = 2 then (s.spareDrop x).subTake j
    else match x.tag, bad with
      | some t, some (st, d) => (s.endSub j).later (.endTag t st d 0 0)
      | _, _ => s.endSub j

/-- The spare's erase is over (R339 step 1, R246, R454). -/
def State.subErased (s : State) (j : Nat) (ok : Bool) : State :=
  match s.subOf j with
  | none => s
  | some x =>
    if ok then
      let s := s.frontMake x.toLun x.toEb x.planes
      if x.kind = 3 then
        let w := locWord x.toLun x.toEb 0 0 0 x.planes
        let s := (s.evSpareTaken 5 x.lun x.toEb).endSub j
        match x.tag with
        | some t => s.later (.endTag t 0x33 1 (w % 2 ^ 32) (w / 2 ^ 32))
        | none => s
      else
        (s.modSub j fun y => { y with phase := 5, pages := s.subPages x, diffs := [], notRebuilt := 0 }).subPage j
    else if x.kind = 3 then
      match x.tag with
      | some t =>
        let w := locWord x.toLun x.toEb 0 0 0 x.planes
        (s.endSub j).later (.endTag t 0x33 3 (w % 2 ^ 32) (w / 2 ^ 32))
      | none => s.endSub j
    else s.subTake j

/-! ### Failed passes (Table 9.2, R326, R398) -/

/-- A pass has failed at the die, or a later pass's data changed (`mismatch`). -/
def State.passFailed (s : State) (o : Op) (mismatch : Bool) : State :=
  let g := o.loc.lun
  match o.stripe with
  | some (sid, _, m) =>
    if (s.stripeOf sid).state = 0 then s
    else
      let lost := (s.stripeOf sid).lost.testBit m
      let x : Sub := { kind := 0, tag := match o.role with | .first => o.tag | .later => (s.recOf g o.loc.eb o.loc.page).bind (·.tag) | _ => none, stripe := sid, member := m, lun := g, eb := o.loc.eb, planes := o.loc.planes, failed := some o.loc.page, op := o, origin := match o.role with | .first => o.tag.map (fun t => s.progOrigin (s.tagOf t)) | _ => none, bad := if mismatch then some (0, 3) else none }
      if lost then s.passLost x
      else
      let s := s.newSub x
      if mismatch then s.subLost ((s.subs.getLastD {}).id) else s
  | none =>
    let (e, q) := (o.loc.eb, o.loc.page)
    let halt := o.role == .later || o.begun
    match o.role with
    | .first => match o.tag with
      | some t => let s := s.passOver g e q halt; if s.live' t then s.progEnd t 0x32 0 else s
      | none => s.passOver g e q halt
    | .later => match ((s.recOf g e q).bind (·.tag)).filter s.live' with
      | some t => (s.passOver g e q halt).progEnd t 0x32 1
      | none =>
        let quiet := o.isPad && ((s.recOf g e q).bind (·.tag)).isNone
        (if quiet then s else s.evLateFail g e q 2 (if mismatch then 3 else 1) 0 0xFFF (some (.pass g e q))).andThen
          (.pass g e q) (.passOver g e q halt) (·.passOver g e q halt)
    | _ => s.passOver g e q halt

/-- The later pass of a page outside a stripe may never start: the page before it in R323's order will not have its first pass. -/
def State.recDead (s : State) (g : Nat) (r : PassRec) : Bool :=
  let k := s.ppwl g
  let w := min (r.page / k + 1) (s.pages g / k - 1)
  let here := fun (x : Nat) (o : Op) => o.opens && o.loc.lun == g && o.loc.eb == r.eb && o.loc.page == x
  let gone := fun (x : Nat) => (s.recOf g r.eb x).isNone && decide (x < s.frontNp g r.eb) && !s.opsOn (here x)
    && !((s.lunOf g).suspended && here x (s.lunOf g).cur)
  r.stripe.isNone && !r.running && !r.reading && !s.fineMay g r.eb r.page
    && (s.barredPage g r.eb).any fun b => decide (b ≤ w * k) || (List.range k).any fun i => gone (w * k + i)

/-- R323 bars passes of a block for good. DESIGN CHOICE (log entry 98): pads that wait for one are withdrawn, and nothing waits any longer for
the page of a later pass that may never start; a DURABLE program of it ends. -/
def State.haltOver (s : State) (g e : Nat) : State :=
  let pads := s.ops.filter (fun o => o.isPad && o.loc.lun == g && o.loc.eb == e && s.firstBarred o)
  let s := (pads.foldl State.dropRecord s).dropOps pads.contains
  ((s.lunOf g).recs.filter (fun r => r.eb == e && s.recDead g r)).foldl (fun s r =>
    match r.tag.filter s.live' with
    | some t => (s.passOver g e r.page false).progEnd t 0x32 1
    | none => s.modLun g fun x => { x with recs := x.recs.map fun y => if y.eb == e && y.page == r.page then { y with dead := true } else y }) s

/-- A pad fills the slot of a program that ended before its first pass's COMMIT (R377); `begun`: that pass had been offered, and had moved NP. -/
def State.slotPad (s : State) (sid r m : Nat) (begun : Bool) : State :=
  let st := s.stripeOf sid
  if st.state = 0 then s
  else
    let s := s.modRow sid r fun x => { x with padded := x.padded ||| 2 ^ m }
    s.addPad (memberLun st m) (memberEb st m) r st.planes (some (sid, r, m)) st.tenant begun

/-- The slot of a program that has ended before its COMMIT: a pad fills it (R377). In a stopped stripe only a slot before the failed page on a
member that is not lost takes one; the failed page's row does not wait for the others (R341). -/
def State.slotGone (s : State) (sid r m : Nat) (begun : Bool) : State :=
  let st := s.stripeOf sid
  if st.state = 1 then s.slotPad sid r m begun
  else if st.state = 0 || !st.stopped then s
  else if slotBefore r m st.stopRow st.stopMember && !st.lost.testBit m then s.slotPad sid r m begun
  else if r ≤ st.stopRow then (s.modRow sid r fun x => { x with verified := x.verified ||| 2 ^ m }).rowsPush sid
  else s

/-- The data of a pass record has been read again: digest, then the later pass (R326), or a substitution's page. -/
def State.recRead (s : State) (g e q : Nat) : State :=
  match s.recOf g e q with
  | none => s
  | some r =>
    let (user, metas) := gathered r.got
    let n := popcount 8 r.planes * s.ncw g
    let data := if r.pool then (List.range n).map (fun i => fitBytes (s.cwBytes g) ((user.drop (i * s.cwBytes g)).take (s.cwBytes g)))
      else s.formWords g e q r.planes (dRaw r.desc) user metas
    let same := !r.bad && (if r.pool then r.digest == 0 else digestOf (dRaw r.desc) n (s.cwBytes g) user metas == r.digest)
    let s := s.modRec g e q fun r => { r with reading := false, got := [], bad := false }
    match s.subs.find? (fun x => x.phase == 5 && x.lun == g && x.eb == e && x.page == q) with
    | some x => if same then s.subFromRec x data else (s.modSub x.id fun y => { y with reads := 1 }).later (.subSourced x.id (some (0x30, 0)))
    | none =>
      if same then s.addLater g r data
      else s.passFailed { s.passOp .later g e q r.planes 2 data r.stripe with isPad := r.isPad, tag := r.tag } true

/-! ### Erases (R342, R343) -/

/-- An ERASE of a block invalidates the horizon that names it. -/
def State.horizonDrop (s : State) (g e : Nat) : State := s.modLun g fun l => { l with horizon := match l.horizon with | some (e', h) => if e' = e then none else some (e', h) | none => none }

/-- The intent record is in place: the erase is queued. -/
def State.eraseGo (s : State) (g : Nat) (w : Eraser) : State :=
  match w with
  | .pool i => s.tallyOp g 4 rtErase i 0 0 []
  | .tag t =>
    let d := (s.tagOf t).desc
    if !s.live' t then s.eraseDropped g w
    else
      let (o, s) := s.stamp { routine := rtErase, loc := { lun := g, eb := dEb d, planes := dPlanes d }, role := .erase } (some t) 0
      (s.modTag t fun x => { x with phase := 2 }).addOp o
  | .sub j => match s.subOf j with
    | none => s.eraseDropped g w
    | some x =>
      let (o, s) := s.stamp { routine := rtErase, loc := { lun := x.toLun, eb := x.toEb, planes := x.planes }, role := .substErase j, boss := if x.kind = 0 then none else x.tag } (s.subTag x) 0
      (s.modSub j fun x => { x with phase := 4 }).addOp o

/-- An ERASE has failed: with SPARE it takes a spare, else it ends with its location (R246, R266). -/
def State.eraseFail (s : State) (g t : Nat) : State :=
  let d := (s.tagOf t).desc
  let w := locWord g (dEb d) 0 0 0 (dPlanes d)
  if dSpareOpt d then s.newSub { kind := 3, tag := some t, lun := g, eb := dEb d, planes := dPlanes d }
  else s.later (.endTag t 0x33 0 (w % 2 ^ 32) (w / 2 ^ 32))

/-- An erase's outcome is known and recorded. -/
def State.eraseOver (s : State) (g : Nat) (w : Eraser) (ok : Bool) : State :=
  match w with
  | .pool _ => s
  | .sub j => match s.subOf j with
    | some x => (s.horizonDrop g x.toEb).subErased j ok
    | none => s
  | .tag t =>
    let d := (s.tagOf t).desc
    let s := s.horizonDrop g (dEb d)
    let w := locWord g (dEb d) 0 0 0 (dPlanes d)
    if !s.live' t then (if ok && !s.inPool g (dEb d) then s.frontMake g (dEb d) (dPlanes d) else s)
    else if ok then
      (if s.inPool g (dEb d) then s else s.frontMake g (dEb d) (dPlanes d)).later (.endTag t 0 0 (w % 2 ^ 32) (w / 2 ^ 32))
    else s.eraseFail g t

/-- No intent record could be written (R342). -/
def State.intentBad (s : State) (g : Nat) (w : Eraser) : State :=
  match w with
  | .pool _ => s
  | .tag t =>
    let d := (s.tagOf t).desc
    let w := locWord g (dEb d) 0 0 0 (dPlanes d)
    s.later (.endTag t 0x32 0 (w % 2 ^ 32) (w / 2 ^ 32))
  | .sub j => s.subNoSpare j false

end Sys2Proof.Machine
end

