-- ==== Sys2Proof/Machine/Flow.lean ====
section
/-! DEFINITION. The progress of a held tag from its intake to its completion, opcode by opcode (R234, R240 to R262, R298, R299,
R343, R344, R382 but for the medium's own rules), and Drogue's ending of tags (R376, R401). -/

namespace Sys2Proof.Machine

/-- A tag whose completion is neither in the COS nor on its way there. -/
def State.openTag (s : State) (t : Nat) : Bool :=
  (s.tagOf t).held && !(s.tagOf t).inserted && !s.parked.any (fun p => p.1 == t)

/-- Held tags without a completion in the COS, ascending. -/
def State.openTags (s : State) : List Nat := s.heldTags.filter (fun t => !(s.tagOf t).inserted)


/-! ### A tag's own operations -/

/-- A piece of Tally work that serves the tag itself: its own, or the intent of its own command's substitution. -/
def State.workOf (s : State) (t : Nat) (w : TWork) : Bool := match w with
  | .write x => x == t
  | .scan x => x == t
  | .intent (.tag x) _ _ _ => x == t
  | .intent (.sub _) _ _ x => x == t && !isProgram (s.tagOf t).desc
  | _ => false

/-- The work at hand of a LUN's Tally agent serves tag t itself, beyond the window's establishment. -/
def State.tallyOwn (s : State) (g t : Nat) : Bool :=
  (s.tallyOf g).established && match (s.tallyOf g).cur with
  | some w => s.workOf t w
  | none => false

/-- Operations that end with the tag, the copies and erases of its own substitution among them; pads, parity and later passes go on
without it. -/
def State.ownOp (s : State) (t : Nat) (o : Op) : Bool :=
  o.boss == some t || o.tag == some t && match o.role with
  | .sense _ => true
  | .xfer _ _ => true
  | .soft _ _ => true
  | .first => true
  | .erase => true
  | .sample _ _ => true
  | .raw => true
  | .routine => true
  | .tally k => (k == 3 || k == 6 || k == 7) && s.tallyOwn o.loc.lun t
  | _ => false

/-- A routine that carries the tag's operation: its own, or the RESUME or FINISH of it. -/
def State.ownRun (s : State) (t : Nat) (o : Op) : Bool :=
  s.ownOp t o || ((o.role == .resume || o.role == .finish) && s.ownOp t (s.lunOf o.loc.lun).cur)

/-- A routine of the tag runs or is parked, the FINISH of its operation waits, or its operation is suspended or being reset. -/
def State.ownOn (s : State) (t : Nat) : Bool :=
  s.routineOn (s.ownRun t) || s.ops.any (fun o => o.role == .finish && s.ownRun t o) || s.luns.any (fun e => (e.2.suspended || e.2.resetting || e.2.limitHit || e.2.abortDie) && s.ownOp t e.2.cur)

/-- The tag, ended by Drogue, whose own work an operation is. -/
def State.endedTag (s : State) (o : Op) : Option Nat := o.owner.filter (fun t => (s.tagOf t).ended && s.ownOp t o)

/-- Substitutions that are a tag's own command. -/
def Sub.own (t : Nat) (x : Sub) : Bool := x.kind != 0 && x.tag == some t

/-- Every piece of a tag's work that waits is withdrawn; what runs is left to its request (R376, R401). -/
def State.withdraw (s : State) (t : Nat) : State :=
  let tg := s.tagOf t
  let g := dLun tg.desc
  let mine := s.subs.filter (Sub.own t)
  let s := (s.reads.filter (fun r => r.owner == .tag t || mine.any (fun x => r.owner == .sub x.id))).foldl (fun s r => (s.giveUp r.id).endRead r.id) s
  let s := (s.racs.filter (fun k => k.owner == .tag t || mine.any (fun x => k.owner == .sub x.id))).foldl (fun s k => s.racOver k.id) s
  let s := { (s.subs.filter (Sub.own t)).foldl (fun s x => s.spareDrop x) s with subs := s.subs.filter (fun x => !Sub.own t x), ready := s.ready.filter (fun r => !r.cont.tagData t) }
  let s := s.modTag t fun x => { x with unissued := 0 }
  let s := match s.ops.find? (fun o => s.ownOp t o && o.role == Role.first) with
    | some o => s.unfold o
    | none => s
  let s := if s.ops.any (fun o => s.ownOp t o && o.role == Role.erase) then s.eraseDropped g (.tag t) else s
  let s := s.ops.foldl (fun s o => match o.role with | .substErase j => if s.ownOp t o then s.eraseDropped o.loc.lun (.sub j) else s | _ => s) s
  let s := if ((s.tallyOf g).redo.map (fun x => s.workOf t x.1)).getD false then s.modTally g fun x => { x with redo := none } else s
  let stuck := s.ops.any (fun o => s.ownOp t o && match o.role with | .tally _ => true | _ => false)
  let s := s.dropOps (s.ownOp t)
  let s := if (s.tallyOf g).queue.any (s.workOf t) then s.modTally g fun x => { x with queue := x.queue.filter (fun w => !s.workOf t w) } else s
  let s := if stuck then (s.modTally g fun x => { x with phase := 0, cur := none }).tallyGo g else s
  s.dropNeeds (fun q => q.owner == t)

/-- EV_DMA_ABORTED (Table 11.5). -/
def State.evDmaAborted (s : State) (t left : Nat) : State :=
  let tg := s.tagOf t
  s.raise 267 0 (t + tg.sq * 2 ^ 12 + dHostTag tg.desc * 2 ^ 19 + left % 2 ^ 29 * 2 ^ 35)

/-- The words of Table 7.9 that name a program's slot, 0 while it has none. -/
def State.slotLoc (s : State) (t : Nat) : Nat × Nat :=
  match (s.tagOf t).slot with
  | some (sid, r, m) =>
    let st := s.stripeOf sid
    let w := s.locOf (memberLun st m) (memberEb st m) r st.planes
    (w % 2 ^ 32, w / 2 ^ 32)
  | none => (0, 0)

/-- Every tag ends here: its work is withdrawn, a slot without a COMMIT is padded (R377), the information words follow R266, and
the completion goes to the COS. DESIGN CHOICE (log entry 96): a tag that Drogue has ended and whose issued request then meets an error
ends with status 0x40 (R398) and raises no EV_DMA_ABORTED. -/
def State.endTag (s : State) (t status detail info0 info1 : Nat) : State :=
  if !s.openTag t then s
  else
    let tg := s.tagOf t
    let (st, d) := match tg.dmaErr with
      | some e => (0x40, e)
      | none => (status, detail)
    let (k, left) := s.residue t
    let (a, b) := if st = 0x20 || st = 0x40 then (k, left) else if 0x10 ≤ st && st ≤ 0x15 then (0, 0)
      else if isProgram tg.desc && decide (0x30 ≤ st) && info0 == 0 && info1 == 0 then s.slotLoc t else (info0, info1)
    let begun := tg.started || s.ops.any (fun o => s.ownOp t o && o.begun)
    let s := s.withdraw t
    let s := match tg.slot with
      | some (sid, r, m) => if tg.committed then s else s.slotGone sid r m begun
      | none => s
    let s := if dOp tg.desc = opStripeClose && st = 0x20 then s.modStripe (dStripe tg.desc) fun x => { x with closing := false } else s
    let s := if st = 0x20 then s.evDmaAborted t left else s
    s.complete t st d a b

/-! ### Reads -/

/-- Bit map of the units that satisfy p. -/
def unitMap (l : List Cw) (p : Cw → Bool) : Nat := (l.zipIdx.map (fun (c, i) => if p c then 2 ^ i else 0)).sum

/-- Status and detail that a read's code words give (R298, R492). -/
def readStatus (l : List Cw) : Nat × Nat := resStatus (l.map (·.res))

/-- The words of Table 7.9 for a READ and a READ_RAW (R299, R492). -/
def Tag.readInfo (tg : Tag) : Nat × Nat :=
  let st := (readStatus tg.cws).1
  let map := unitMap tg.cws (fun c => !c.res.good)
  let fails := decide (0x30 ≤ st)
  let senses := min tg.senses 65535 * 2 ^ 16
  if dOp tg.desc = opReadRaw then (dAux tg.desc % 256, if fails then map else senses)
  else
    let step := if tg.cws.any (fun c => c.res.good) then tg.okStep else tg.topStep
    let corr := (tg.cws.map (·.corr)).foldl max 0
    (min corr 255 * 2 ^ 24 + step * 2 ^ 8 + tg.lastSet % 256, if fails then map else senses + min ((tg.cws.map (·.corr)).sum) 65535)

/-- Every unit of a read has its outcome and no read of it goes on. -/
def State.readOver (s : State) (t : Nat) : Bool :=
  (s.tagOf t).cws.all (fun c => !c.res.open') && !s.reads.any (fun r => r.owner == .tag t)

/-- Reads of a tag begin, one per selected plane (R291). -/
def State.startReads (s : State) (t : Nat) : State :=
  let tg := s.tagOf t
  let d := tg.desc
  let raw := dOp d == opReadRaw
  (planeList (dPlanes d)).foldl (fun s p =>
    s.startRead { owner := .tag t, lun := dLun d, eb := dEb d, page := dPage d, plane := p, cws := (List.range (dCwCount d)).map (fun c => { cw := dFirstCw d + c }), raw := raw, scrambled := dRaw d, noRlh := dNoRlh d, tag := some t, tenant := tg.tenant, cls := dClass d, due := tg.due, order := tg.seq, set0 := if raw then dAux d % 256 else 0 }) s

/-- A read of a plane page has ended (R298, R304): whom it served goes on. -/
def State.readDone (s : State) (id : Nat) : State :=
  match s.readOf id with
  | none => s
  | some r =>
    let s := { s with reads := s.reads.filter (fun x => x.id != id), rlh := { s.rlh with fills := s.rlh.fills.filter (fun f => f.2 != id) } }
    let s := s.rlhUpdate r (!r.around && r.cws.any (fun c => c.res == .ok 4))
    match r.owner with
    | .tag t =>
      let s := r.cws.foldl (fun s c => s.setUnit t r.plane c.cw fun u => if u.res.open' then { u with res := c.res, corr := c.corr } else u) s
      s.later (.tagCheck t)
    | .rac k i => s.racSource k i r
    | .sub j => s.subRead j r

/-! ### Programs -/

/-- A program's page enters Bridle once its data is there (R273, R331). -/
def State.addFirst (s : State) (t g e q planes : Nat) (words : List (List Byte)) (digest : Word32) (pooled : Bool) : State :=
  let o := { s.passOp .first g e q planes 1 words (s.tagOf t).slot with pooled := pooled, digest := digest }
  let (o, s) := s.stamp o (some t) 0
  ((s.setLoc t (s.locOf g e q planes)).modTag t fun x => { x with phase := 1, data := [] }).addPass o

/-- The host data of a program is asked for in stream order (R393, R394). -/
def State.askProgram (s : State) (t : Nat) : State :=
  let tg := s.tagOf t
  let d := tg.desc
  let u := s.unitLen d
  let l := unitReads tg (shapeLen d / u) u (fun off len skip => .hostUser t (off / u) off len skip)
    ++ (if usesMeta d then metaReads tg (shapeLen d / u) (fun off skip len => .hostMeta t off skip len) else [])
  l.foldl (fun s r => s.askTag t r) s

/-- The host data of a program is there. -/
def State.formProgram (s : State) (t : Nat) : State :=
  let tg := s.tagOf t
  let raw := dRaw tg.desc
  let (g, e, q, planes) := s.progPlace t
  let (user, metas) := gathered tg.data
  let n := popcount 8 planes * s.ncw g
  s.addFirst t g e q planes (s.formWords g e q planes raw user metas) (digestOf raw n (s.cwBytes g) user metas) false

/-- The source of a COPY is recovered: it takes its slot and its page is formed again there (R242, R243). -/
def State.formCopy (s : State) (t : Nat) : State :=
  let sid := dAux (s.tagOf t).desc
  let st := s.stripeOf sid
  if st.state != 1 then s.endTag t 0x10 0x1B 0 0
  else if st.nextRow ≥ s.pages (stripeLun st) then s.endTag t 0x10 0x1C 0 0
  else
    let infos := (s.tagOf t).data.map (·.2)
    let ((r, m), s) := s.takeSlot sid
    let s := s.modTag t fun x => { x with slot := some (sid, r, m) }
    let (g, e, q, planes) := s.progPlace t
    s.addFirst t g e q planes (s.storeInfos g e q planes infos) 0 (s.twoPass g)

/-! ### Stripes -/

/-- A stripe image (Table 5.12). -/
def imgWord (b : List Byte) (i : Nat) : Nat := leNat ((b.drop (4 * i)).take 4)
def imgMember (b : List Byte) (m : Nat) : Nat := leNat ((b.drop (16 + 3 * m)).take 3)
def imgStripe (b : List Byte) (now : Word32) : Stripe :=
  let w := imgWord b 0
  { tenant := w / 2 ^ 24 % 64, planes := w / 2 ^ 16 % 256, npar := w / 2 ^ 8 % 4, ndata := w % 64, state := 1, opened := now,
    members := (List.range 34).map fun m => (false, imgMember b m / 2 ^ 12 % 1024, imgMember b m % 4096) }

/-- Refusals of Table 5.13 and of the image's window check, in order (R187); an OWNER tenant with EN = 1 passes the equality with the
image's TENANT (R185). DESIGN CHOICE (log entry 79): the windows are those in force when the image arrives. -/
def State.imageBad (s : State) (tenant id : Nat) (b : List Byte) : Option (Nat × Nat) :=
  let st := imgStripe b 0
  let ids := memberIds st
  let luns := ids.map (memberLun st)
  let g0 := stripeLun st
  let used := fun (m : Nat) => (m < 32 && decide (m < st.ndata)) || m == 32 || (m == 33 && st.npar == 2)
  if (s.stripeOf id).state != 0 then some (0x10, 1)
  else if st.ndata = 0 || decide (st.ndata > 32) || !(st.npar == 1 || st.npar == 2)
      || imgWord b 0 &&& 0xC000FCC0 != 0 || imgWord b 1 != 0 || imgWord b 2 != 0 || imgWord b 3 != 0
      || (List.range 34).any (fun m => if used m then decide (imgMember b m ≥ 2 ^ 22) else imgMember b m != 0)
      || leNat ((b.drop 118).take 10) != 0 then some (0x10, 2)
  else if s.declared g0 && (st.planes == 0 || decide (st.planes ≥ 2 ^ s.npl g0)) then some (0x10, 3)
  else if s.declared g0 && decide (st.npar * popcount 8 st.planes * s.ncw g0 * infoBytes > 262144) then some (0x10, 4)
  else if luns.any (fun g => !s.declared g || s.isSpare g || s.isFenced g) then some (0x10, 5)
  else if luns.any (fun g => s.kind g != s.kind g0) then some (0x10, 6)
  else if twoEqual luns then some (0x10, 7)
  else if ids.any (fun m => decide (memberEb st m ≥ s.ebs (memberLun st m)) || s.inPool (memberLun st m) (memberEb st m)) then some (0x10, 8)
  else if ids.any (fun m => !s.inWindow tenant true (memberLun st m) (memberEb st m)) then some (0x11, 2)
  else if st.tenant != tenant && !(s.on (winEn tenant) && s.on (winOwner tenant)) then some (0x11, 3)
  else none

/-- Completion words of STRIPE_OPEN and STRIPE_CLOSE. -/
def stripeInfo (st : Stripe) : Nat := st.nextRow * 2 ^ 19 + st.nextMember * 2 ^ 13

/-- The image of a STRIPE_OPEN has arrived. -/
def State.imageRead (s : State) (t : Nat) (b : List Byte) : State :=
  let tg := s.tagOf t
  let id := dStripe tg.desc
  match s.imageBad tg.tenant id b with
  | some (st, d) => s.endTag t st d 0 0
  | none => (s.modStripe id fun _ => imgStripe b s.time32).endTag t 0 0 id 0

/-- Passes of a stripe that wait, run or are suspended, and substitutions in it. -/
def State.stripeBusy (s : State) (sid : Nat) (p : Op → Bool) : Bool :=
  s.opsOn (fun o => (o.stripe.map (·.1)) == some sid && p o) || s.luns.any (fun e => (e.2.suspended || e.2.busy) && (e.2.cur.stripe.map (·.1)) == some sid && p e.2.cur)
    || s.subs.any (fun x => x.kind != 3 && x.stripe == sid)

/-- The parity members of every row below `top` have had their first pass; a stopped stripe programs no further row's (R341). -/
def State.parityBelow (s : State) (sid top : Nat) : Bool :=
  !s.rows.any (fun x => x.stripe == sid && decide (x.row < top) && !x.noParity && !x.dead && (x.parWanted || !(s.stripeOf sid).stopped) && (x.parFirst &&& parMask (s.stripeOf sid)) != parMask (s.stripeOf sid))

/-- A stripe gives up its Stripe Table entry: what its members still hold goes on outside any stripe. -/
def State.freeStripe (s : State) (sid : Nat) : State :=
  let mine := fun (x : Option (Nat × Nat × Nat)) => (x.map (·.1)) == some sid
  let words := fun (x : Option (Nat × Nat × Nat)) => match x with
    | some (_, r, m) => (List.range (s.slotCws (s.stripeOf sid))).map (s.parityWord sid r m)
    | none => []
  let par := fun (x : Option (Nat × Nat × Nat)) => match x with | some (_, _, m) => decide (m ≥ 32) | none => false
  let out := fun (o : Op) => if mine o.stripe then { o with stripe := none, data := if o.role == Role.later && par o.stripe && o.data.isEmpty then words o.stripe else o.data } else o
  let rec' := fun (r : PassRec) => if mine r.stripe then { r with stripe := none, kept := if par r.stripe && !r.pool && !r.isPad then words r.stripe else [] } else r
  let s := s.dropOps (fun o => match o.role with | .parity x _ _ => x == sid | _ => false)
  let luns := (s.luns.filter (fun e => mine e.2.cur.stripe || ((e.2.park.map (fun c => mine c.op.stripe)).getD false) || e.2.recs.any (fun r => mine r.stripe))).map (·.1)
  let ctxs := (s.ctxs.filter (fun e => mine e.2.op.stripe)).map (·.1)
  let s := { s with ops := s.ops.map out }
  let s := s.each luns fun s g => s.modLun g fun l => { l with cur := out l.cur, park := l.park.map (fun (c : Ctx) => { c with op := out c.op }), recs := l.recs.map rec' }
  let s := s.each ctxs fun s n => s.modCtx n fun c => { c with op := out c.op }
  let s := ((s.accs.filter (fun a => a.stripe == sid)).map (·.row)).foldl (fun s r => s.releaseAcc sid r) s
  { s with rows := s.rows.filter (fun x => x.stripe != sid), stripes := tabDrop sid s.stripes }

/-- Pads that a closing needs (R333, R335): the partial row, and on a two-pass stripe every row until each programmed page is
readable; without PARITY the rows from the partial one on have no parity. -/
def State.closePads (s : State) (sid : Nat) (parity : Bool) : State :=
  let st := s.stripeOf sid
  let g := stripeLun st
  let part := decide (st.nextMember != 0)
  let last := if part then st.nextRow + 1 else st.nextRow
  let top := if s.twoPass g then (if last = 0 then 0 else s.padTop g (last - 1)) else if parity then last else 0
  let rows := (List.range (top - st.nextRow)).map (· + st.nextRow)
  let s := s.padStripe sid top
  if parity then s
  else if s.twoPass g then s.each rows fun s r => (s.releaseAcc sid r).padParity sid r
  else if part then (s.releaseAcc sid st.nextRow).modRow sid st.nextRow fun x => { x with noParity := true, parWanted := true }
  else s

/-- Another STRIPE_CLOSE of a stripe that is released at this moment ends with it: it must not touch the entry's next stripe (R312). -/
def State.closeRest (s : State) (t sid : Nat) : State :=
  (s.openTags.filter (fun u => u != t && dOp (s.tagOf u).desc == opStripeClose && dStripe (s.tagOf u).desc == sid && (s.tagOf u).phase == 1)).foldl
    (fun s u => (s.modTag u fun x => { x with phase := 2 }).later (.endTag u 0 0 sid (stripeInfo (s.stripeOf sid)))) s

/-- STRIPE_CLOSE goes on (R249). -/
def State.closePush (s : State) (t : Nat) : State :=
  let tg := s.tagOf t
  let sid := dStripe tg.desc
  let st := s.stripeOf sid
  let parity := bit tg.desc 8
  let release := bit tg.desc 9
  if tg.phase = 2 || s.holds (.stripe sid) then s
  else if tg.phase = 0 then
    if !tg.waitsFor.isEmpty || (release && s.subs.any (fun x => x.kind != 3 && x.stripe == sid)) then s
    else if st.state = 2 && release then (s.freeStripe sid).endTag t 0 0 sid (stripeInfo st)
    else if st.state != 1 then s.endTag t 0 0 sid (stripeInfo st)
    else ((s.closePads sid parity).modTag t fun x => { x with phase := 1 }).later (.tagCheck t)
  else
    let pads := s.stripeBusy sid (fun o => o.isPad && o.role != Role.later)
    let par := parity && !s.parityBelow sid st.nextRow
    let rest := release && (s.stripeBusy sid Op.isFirst || !s.parityBelow sid st.nextRow)
    if pads || par || rest then s
    else
      let s := if release then (s.closeRest t sid).freeStripe sid else s.modStripe sid fun x => if x.state = 1 then { x with state := 2, closing := false } else x
      s.endTag t 0 0 sid (stripeInfo st)

/-! ### FLUSH -/

/-- Stripes whose partial row a FLUSH with PARITY programs. -/
def State.flushStripes (s : State) (d : Desc) : List Nat :=
  if dScope d = 1 then (if (s.stripeOf (dStripe d)).state = 1 then [dStripe d] else [])
  else (s.stripes.filter (fun e => e.2.state == 1)).map (·.1)

/-- Pass records of programs in a FLUSH's scope, as (LUN, record). -/
def State.flushRecs (s : State) (t : Nat) : List (Nat × PassRec) :=
  let tg := s.tagOf t
  let d := tg.desc
  s.luns.flatMap fun (g, l) => (l.recs.filter (fun r => match r.order with
    | some q => !r.dead && decide (q < tg.seq) && (dScope d == 2 || (dScope d == 0 && r.sq == tg.sq) || (dScope d == 1 && (r.stripe.map (·.1)) == some (dStripe d)))
    | none => false)).map (fun r => (g, r))

/-- Data for a block is queued: a first pass that waits, or a program whose data is on its way. -/
def State.dataQueued (s : State) (g e : Nat) : Bool := s.ops.any (s.queuedOp g e) || s.openTags.any (s.queuedTag g e)

/-- A FLUSH with READABLE pads at once every block in its scope whose readability waits on data that has not arrived (R332). -/
def State.flushPads (s : State) (t : Nat) : State :=
  (s.flushRecs t).foldl (fun s (g, r) =>
    if r.running || r.reading || s.fineMay g r.eb r.page || s.dataQueued g r.eb then s else s.padBlock g r.eb r.page r.planes) s

/-- FLUSH goes on (R254, R255, R332). -/
def State.flushPush (s : State) (t : Nat) : State :=
  let tg := s.tagOf t
  let d := tg.desc
  let s := if bit d 11 then s.flushPads t else s
  if tg.phase = 0 then
    if !tg.waitsFor.isEmpty then s
    else
      let s := s.modTag t fun x => { x with phase := 1 }
      let s := if bit d 10 then (s.flushStripes d).foldl (fun s sid =>
          let st := s.stripeOf sid
          let top := if st.nextMember != 0 then st.nextRow + 1 else st.nextRow
          (s.padStripe sid top).modTag t fun x => { x with cws := x.cws ++ [{ plane := sid, cw := top }] }) s else s
      s.later (.tagCheck t)
  else
    let par := tg.cws.any (fun c => (s.stripeOf c.plane).state != 0 && !s.parityBelow c.plane c.cw)
    if par || (bit d 11 && !(s.flushRecs t).isEmpty) then s else s.endTag t 0 0 0 0

/-! ### ERASE and ERASE_CHECK -/

/-- Program passes and erases taken in earlier on a block, and its pass records, that an ERASE waits for (R269, R342). DESIGN CHOICE (log
entry 94): a COPY into the block's stripe that has no slot yet (R243) is not among them. -/
def State.eraseWaits (s : State) (t : Nat) : Bool :=
  let tg := s.tagOf t
  let g := dLun tg.desc
  let e := dEb tg.desc
  let here := fun (o : Op) => o.loc.lun == g && o.loc.eb == e && (o.isPass || o.isRawProg) && (!(o.role == .first || o.role == .routine) || decide (o.seq < tg.seq))
  s.opsOn here || s.openTags.any (fun u => u != t && s.eraseQueued u g e tg.seq) || ((s.lunOf g).suspended && here (s.lunOf g).cur) || (s.lunOf g).recs.any (fun r => r.eb == e && !r.dead)
    || s.openTags.any (fun u => s.rawOpen u g e tg.seq) || s.openTags.any (fun u => isProgram (s.tagOf u).desc && decide ((s.tagOf u).seq < tg.seq)
        && ((s.tagOf u).slot.isSome || dOp (s.tagOf u).desc == opProgAt) && (match s.progPlace u with | (g', e', _, _) => g' == g && e' == e))

/-- ERASE goes on: earlier passes, then the intent record, or at once for a block of a pool without a window (R342, R343). DESIGN CHOICE
(log 45): an ERASE that ends ST_LUN_FENCED with nothing erased has both information words 0. -/
def State.erasePush (s : State) (t : Nat) : State :=
  let tg := s.tagOf t
  let d := tg.desc
  let g := dLun d
  if tg.phase != 0 then s
  else if s.isFenced g then s.endTag t 0x34 0 0 0
  else if s.inPool g (dEb d) then
    if (s.tallyOf g).established then s.endTag t 0x10 0x16 0 0
    else if s.openTags.any (fun u => u != t && s.eraseQueued u g (dEb d) tg.seq) then s
    else
      let (o, s) := s.stamp { routine := rtErase, loc := { lun := g, eb := dEb d, planes := dPlanes d }, role := .erase } (some t) 0
      (s.modTag t fun x => { x with phase := 2 }).addOp o
  else if s.eraseWaits t then s
  else (s.modTag t fun x => { x with phase := 1 }).tallyWork g (.intent (.tag t) (dEb d) (dPlanes d) t)

/-- Sampled word lines of a block (R344). -/
def State.sampleWl (s : State) (g i : Nat) : Nat :=
  i * (s.nwl g - 1) / max (s.geo (GEO_DK_MISC.SAMPLE_WLS (s.kind g)) - 1) 1

/-- Index that stands for the sense of a sample. -/
def senseCw : Nat := 4

/-- The sample senses of an ERASE_CHECK. -/
def State.startSamples (s : State) (t : Nat) : State :=
  let d := (s.tagOf t).desc
  let g := dLun d
  let n := s.geo (GEO_DK_MISC.SAMPLE_WLS (s.kind g))
  ((planeList (dPlanes d)).flatMap fun p => (List.range n).map fun i => (p, i)).zipIdx.foldl (fun s ((p, i), k) =>
    let (o, s) := s.stamp { routine := rtReadSense, loc := { lun := g, eb := dEb d, page := s.sampleWl g i * s.ppwl g, planes := 2 ^ p }, role := .sample k senseCw } (some t) 0
    s.addOp o) s

/-- ERASE_CHECK has its samples. -/
def State.sampleCheck (s : State) (t : Nat) : State :=
  let tg := s.tagOf t
  let d := tg.desc
  let k := s.kind (dLun d)
  let n := popcount 8 (dPlanes d) * s.geo (GEO_DK_MISC.SAMPLE_WLS k) * s.ncw (dLun d)
  if tg.matched < n then s
  else
    let zs := tg.data.map (fun e => leNat e.2)
    let cls := if tg.status != 0 then 1 else if zs.all (fun z => decide (z ≤ s.geo (GEO_DK_ECHK.ERASED_MAX k))) then 0
      else if zs.all (fun z => decide (z ≥ s.geo (GEO_DK_ECHK.PROG_MIN k))) then 2 else 1
    s.endTag t 0 0 (zs.foldl max 0 * 2 ^ 16 + cls) zs.length

/-- A sample's sense or transfer has ended (R344). -/
def State.sampleEnd (s : State) (t : Nat) (o : Op) (i cw result : Nat) : State :=
  let g := o.loc.lun
  if cw = senseCw then
    if result = resDone then
      s.each (List.range (s.ncw g)) fun s c => s.addOp { o with routine := rtEraseSample, v3 := BitVec.ofNat 32 (c * s.cwBytes g), v4 := 0, cw := c, role := .sample i c }
    else (s.modTag t fun x => { x with matched := x.matched + s.ncw g, status := 1 }).sampleCheck t
  else
    let st := if result = resDone then s.stageOf (lunChan g) o.v7.toNat else none
    let s := s.dropStage (lunChan g) (fun x => x.handle == o.v7.toNat)
    (match st with
    | some x => s.modTag t fun y => { y with matched := y.matched + 1, data := tabIns (4 * i + cw) (natLe 4 x.zeros) (tabDrop (4 * i + cw) y.data) }
    | none => s.modTag t fun y => { y with matched := y.matched + 1, status := 1 }).sampleCheck t

/-! ### RLH_SYNC (R258) -/

/-- A second write-back is owed: entries changed after the one under way was issued. -/
def syncAgain : Nat := 2 ^ 40

/-- The lines that are dirty at a sync's intake. -/
def State.syncMark (s : State) : List Nat :=
  if s.geo GEO_RLH_CFG.EN = 0 then []
  else s.dirtyLines.map fun l => if s.wbOut l && ((s.rlhLine l).map (fun x => x.again != 0)).getD false then l + syncAgain else l

/-- The sync starts: what its lines still owe goes out. -/
def State.startSync (s : State) (t : Nat) : State :=
  if s.geo GEO_RLH_CFG.EN = 0 then s.endTag t 0 0 0 0
  else
    let owed := (s.tagOf t).waitsFor
    let s := s.modTag t fun x => { x with phase := 1 }
    (owed.foldl (fun s l => if s.wbOut (l % syncAgain) then s else s.writeBack (l % syncAgain)) s).later (.tagCheck t)

/-- A write-back's response has returned, or its line is lost: a line that a started sync still owes goes out again. -/
def State.syncLine (s : State) (line : Nat) : State :=
  s.openTags.foldl (fun s t =>
    let tg := s.tagOf t
    if dOp tg.desc != opRlhSync then s
    else if tg.waitsFor.contains (line + syncAgain) then
      let gone := (s.rlhLine line).isNone && !s.wbOut line && !s.rlh.pooled.any (fun p => p.line.line == line)
      if gone then (s.modTag t fun x => { x with waitsFor := x.waitsFor.filter (· != line + syncAgain) }).later (.tagCheck t)
      else
        let s := s.modTag t fun x => { x with waitsFor := x.waitsFor.map (fun l => if l = line + syncAgain then line else l) }
        if tg.phase = 0 || s.wbOut line then s else s.writeBack line
    else if tg.waitsFor.contains line then (s.modTag t fun x => { x with waitsFor := x.waitsFor.filter (· != line) }).later (.tagCheck t)
    else s) s

def State.syncPush (s : State) (t : Nat) : State :=
  let tg := s.tagOf t
  if tg.phase = 0 || !tg.waitsFor.isEmpty then s
  else if bit tg.desc 8 then
    let old := fun (l : RlhLine) => l.dirty == 0 && decide (l.stamp ≤ tg.seq)
    ({ s with rlh := { s.rlh with lines := s.rlh.lines.filter (!old ·) } }).endTag t 0 0 tg.matched (s.rlh.lines.filter old).length
  else s.endTag t 0 0 tg.matched 0

/-! ### REBUILD (R454, R455) -/

/-- The first member, in ascending stripe and member, that lies on a LUN. -/
def State.nextMemberOn (s : State) (g : Nat) : Option (Nat × Nat) :=
  s.stripes.findSome? fun (sid, st) =>
    if st.state = 0 then none else ((memberIds st).find? (fun m => memberLun st m == g)).map (fun m => (sid, m))

/-- SPARE of a LUN is cleared in the stored and the in-force entry (R179). -/
def clearSpare (t : Tab Word32) (g : Nat) : Tab Word32 :=
  let a := GEO_LUNMAP.adr (g / 2)
  tabPut regReset t a (putBit (tabGet regReset t a) (16 * (g % 2) + 1) false)

/-- REBUILD takes its members in turn (R454). DESIGN CHOICE (log entry 94): a member goes to its own erase block number on the target LUN,
whatever that LUN's TEXCL leaves in its pool. -/
def State.rebuildPush (s : State) (t : Nat) : State :=
  let tg := s.tagOf t
  let g := dLun tg.desc
  let h := dAux tg.desc
  if s.subs.any (fun x => x.tag == some t) then s
  else match s.nextMemberOn g with
    | none =>
      let s := if tg.phase = 0 then s else s.evSpareTaken 6 g h
      s.endTag t (if tg.status = 0 then 0 else 0x36) tg.status tg.matched tg.aborted
    | some (sid, m) =>
      let st := s.stripeOf sid
      let s := s.newSub { kind := 2, tag := some t, stripe := sid, member := m, lun := g, eb := memberEb st m, planes := st.planes, toLun := h, toEb := memberEb st m }
      s.modTag t fun x => { x with phase := 1 }

def State.startRebuild (s : State) (t : Nat) : State :=
  let h := dAux (s.tagOf t).desc
  let s := { s with regs := clearSpare s.regs h, force := clearSpare s.force h }
  if s.isFenced h then s.endTag t 0x37 0 0 0 else s.rebuildPush t

/-! ### DIE_CMD and ROUTINE (R259 to R261) -/

/-- Direction of the data of a DIE_CMD or ROUTINE: 0 none, 1 die to host, 2 host to die. -/
def rawDir (d : Desc) : Nat := if dOp d = opDieCmd then dDir d else if dData d = 1 then 2 else if dData d = 2 then 1 else 0

/-- The operation of a DIE_CMD or ROUTINE. -/
def State.addRaw (s : State) (t : Nat) : State :=
  let tg := s.tagOf t
  let d := tg.desc
  let data := if rawDir d = 2 then [(gathered tg.data).1] else []
  let o : Op := if dOp d = opDieCmd then
      { routine := rtRawCmd, loc := { lun := dLun d }, v3 := BitVec.ofNat 32 (dMetaByte d 4), v4 := BitVec.ofNat 32 (dAux d), v6 := BitVec.ofNat 32 (fld d 479 448), role := .raw, data := data }
    else
      { routine := dRoutine d, loc := { lun := dLun d, eb := dEb d, page := dPage d, planes := dPlanes d }, cw := dFirstCw d, v3 := BitVec.ofNat 32 (dFirstCw d * s.cwBytes (dLun d)), v4 := BitVec.ofNat 32 (fld d 479 448), v6 := BitVec.ofNat 32 (fld d 511 480), role := .routine, data := data }
  let (o, s) := s.stamp o (some t) 0
  (s.modTag t fun x => { x with phase := 1, data := [] }).addOp o

/-- What a ROUTINE's program or erase leaves in the LUN's records, as the opcodes that use the same routines do (R261): a verified erase its
frontier entry, either outcome no horizon (R342); a verified first pass of a two-pass kind a record, whose later pass is left to a ROUTINE
(R325, R337); a verified last pass a readable page (R324, R328); a failed later pass no record. -/
def State.routineMark (s : State) (o : Op) (result : Nat) : State :=
  let g := o.loc.lun
  let e := o.loc.eb
  let q := o.loc.page
  if o.role != .routine then s
  else if o.isErase then
    (if result = resDone then (s.horizonDrop g e).frontMake g e o.loc.planes else if resBad result then s.horizonDrop g e else s)
  else if !o.isProg then s
  else if result = resDone then
    (if o.opens && s.twoPass g && o.routine == rtProgPass then
      let tg := match o.tag with | some t => s.tagOf t | none => {}
      let r : PassRec := { s.progOrigin tg with eb := e, page := q, planes := o.loc.planes, due := s.us + s.get BRD_CLASS2.DEFAULT, tenant := o.tenant, order := none, raw := true }
      s.modLun g fun x => { x with recs := x.recs ++ [r] }
    else s.lastVerified g e q none none)
  else if o.opens then s.firstGone o
  else if !resBad result then s
  else (s.modLun g fun x => { x with recs := x.recs.filter (fun r => !(r.eb == e && r.page == q)) }).frontHalt g e q

/-- The routine of a DIE_CMD or ROUTINE has ended: its results, then its data (R261); staging bytes that the routine did not fill are
free. -/
def State.rawEnd (s : State) (t : Nat) (o : Op) (result v6 v7 : Nat) : State :=
  let s := s.routineMark o result
  let tg := s.tagOf t
  let d := tg.desc
  let bytes := ((s.stageOf (lunChan o.loc.lun) o.v7.toNat).map (·.bytes)).getD []
  let out := rawDir d = 1 && result = resDone
  let s := if out then s.modChan (lunChan o.loc.lun) fun c => { c with staging := c.staging.map (fun g => if g.handle = o.v7.toNat then { g with done := true } else g) }
    else s.dropStage (lunChan o.loc.lun) (fun g => g.handle == o.v7.toNat)
  let moved := if rawDir d = 2 then shapeLen d else if out then bytes.length else 0
  let s := s.modTag t fun x => { x with phase := 2, status := if result = resDone then 0 else 0x38, detail := if result = resDone then 0 else result, info0 := if dOp d = opDieCmd then (if bit d 8 then v6 % 256 else 0) else v6, info1 := if dOp d = opDieCmd then moved else v7 }
  let (rest, s) := s.drawBytes (if out then shapeLen d - bytes.length else 0)
  let s := if out then ((bytes ++ rest).take (shapeLen d)).zipIdx.foldl (fun s (b, k) => s.sendUser t k [b]) s else s
  s.later (.tagCheck t)

/-! ### From intake to completion -/

/-- A descriptor taken in earlier from the same SQ has no completion in the COS (R234). -/
def State.orderWaits (s : State) (t : Nat) : Bool :=
  s.openTags.any (fun u => (s.tagOf u).sq == (s.tagOf t).sq && decide ((s.tagOf u).seq < (s.tagOf t).seq))

/-- A tag's work begins. -/
def State.startTag (s : State) (t : Nat) : State :=
  let tg := s.tagOf t
  let d := tg.desc
  let op := dOp d
  let s := s.modTag t fun x => { x with waitsOrder := false }
  if op = opRead || op = opReadRaw || op = opCopy then s.startReads t
  else if op = opAppend || op = opProgAt then s.askProgram t
  else if op = opErase then s.erasePush t
  else if op = opEraseCheck then s.startSamples t
  else if op = opStripeOpen then s.ask (spoolRead (tg.cq % 2) tg.cq (dMeta d) 128 (.image t))
  else if op = opSubstitute then
    let sid := dAux d
    let st := s.stripeOf sid
    match (memberIds st).find? (fun m => memberLun st m == dLun d && memberEb st m == dEb d) with
    | some m => s.newSub { kind := 1, tag := some t, stripe := sid, member := m, lun := dLun d, eb := dEb d, planes := st.planes }
    | none => s.endTag t 0x10 0x20 0 0
  else if op = opRebuild then s.startRebuild t
  else if op = opTallyWrite then (if s.isFenced (dLun d) then s.endTag t 0x34 0 0 0 else s.tallyWork (dLun d) (.write t))
  else if op = opTallyScan then (if s.isFenced (dLun d) then s.endTag t 0x34 0 0 0 else s.tallyWork (dLun d) (.scan t))
  else if op = opRlhSync then s.startSync t
  else if op = opDieCmd || op = opRoutine then (if rawDir d = 2 then s.askProgram t else s.addRaw t)
  else s.later (.tagCheck t)

/-- The records of a TALLY_SCAN go to host memory (R253). -/
def State.scanSend (s : State) (t : Nat) (bytes : List Byte) : State :=
  if !s.openTag t then s
  else
    let s := s.modTag t fun x => { x with phase := 2, cws := List.replicate (bytes.length / 16) {} }
    (s.each (List.range (bytes.length / 16)) fun s k => s.sendUser t k ((bytes.drop (16 * k)).take 16)).later (.tagCheck t)

/-- What a held tag does next. -/
def State.tagPush (s : State) (t : Nat) : State :=
  if !s.openTag t then s
  else
    let tg := s.tagOf t
    let d := tg.desc
    let op := dOp d
    if tg.ended then (if s.ownOn t || s.dmaOut t then s else s.endTag t 0x20 tg.detail 0 0)
    else if tg.waitsOrder then (if s.orderWaits t then s else s.startTag t)
    else if op = opRead || op = opReadRaw then
      if s.readOver t && tg.unissued = 0 then
        let (st, dt) := readStatus tg.cws
        let st := if op = opReadRaw && st ≤ 2 then 0 else st
        s.endTag t st dt tg.readInfo.1 tg.readInfo.2
      else s
    else if op = opCopy then
      if tg.phase != 0 || !s.readOver t then s
      else if (readStatus tg.cws).1 ≥ 0x30 then s.endTag t (readStatus tg.cws).1 (readStatus tg.cws).2 0 0
      else s.formCopy t
    else if op = opAppend || op = opProgAt then
      if tg.phase = 0 && tg.unissued = 0 && tg.reads = 0 then s.formProgram t else s
    else if op = opErase then s.erasePush t
    else if op = opStripeClose then s.closePush t
    else if op = opFlush then s.flushPush t
    else if op = opRebuild then (if tg.phase = 0 then s else s.rebuildPush t)
    else if op = opRlhSync then s.syncPush t
    else if op = opTallyScan then (if tg.phase = 2 && tg.unissued = 0 then s.endTag t 0 0 tg.info0 tg.info1 else s)
    else if op = opDieCmd || op = opRoutine then
      if tg.phase = 0 then (if rawDir d = 2 && tg.unissued = 0 && tg.reads = 0 then s.addRaw t else s)
      else if tg.phase = 2 && tg.unissued = 0 then s.endTag t tg.status tg.detail tg.info0 tg.info1 else s
    else if op = opAbort then
      if !tg.waitsFor.isEmpty then s
      else if tg.matched = 0 then s.endTag t 0x21 1 0 0
      else if tg.aborted = 0 then s.endTag t 0x21 0 0 tg.matched
      else s.endTag t 0 0 tg.aborted (tg.matched - tg.aborted)
    else if op = opNop then s.endTag t 0 0 0 0
    else s

/-! ### Drogue -/

/-- A two-pass program whose first pass has verified: its record names it. -/
def State.firstPassed (s : State) (t : Nat) : Bool :=
  s.luns.any (fun e => e.2.recs.any (fun r => r.tag == some t))

/-- An ABORT before the insertion of a completion that waits for its buffers or a record (R220, R376): it is ST_ABORTED's, but for
an operation past COMMIT that has ended with its own result, and for a transfer that has met an error (R398). Its transfers run to their
responses first (R401). -/
def State.abortParked (s : State) (t : Nat) : State :=
  let tg := s.tagOf t
  let hit := fun (p : Nat × Cpl) => p.1 == t && p.2.status != 0x20
  if tg.committed || tg.dmaErr.isSome || !s.parked.any hit then s
  else
    let s := { s with parked := s.parked.filter (fun p => !hit p) }.modTag t fun x => { x with ended := true, slot := none, detail := if x.started then 1 else 0 }
    (s.withdraw t).tagPush t

/-- A suspended operation whose tag Drogue has ended: its LUN is reset once a sense made in the suspension has been transferred (R376, R379). -/
def State.abortSusp (s : State) (g t : Nat) : State :=
  let o := (s.lunOf g).cur
  let s := s.modLun g fun l => { l with abortDie := true }
  let s := s.dropOps (fun o => o.role == Role.resume && o.loc.lun == g)
  let (q, s) := s.newSeq
  s.addOp { routine := rtResetLun, loc := o.loc, role := .resetLun, tag := some t, seq := q }

/-- Drogue ends a tag (Table 10.5). A suspended operation's LUN is reset by RESET LUN (R379); none is issued in hold-up, and what has passed
COMMIT, its RESUME and FINISH too, goes on (R381). -/
def State.abortTag (s : State) (t : Nat) : State :=
  if !s.openTag t || (s.tagOf t).ended then s.abortParked t
  else if s.firstPassed t then s.endTag t (s.tagOf t).status 0 (s.tagOf t).info0 (s.tagOf t).info1
  else
    let hold := s.on TET_PWRFAIL.LATCH
    let mine := s.ownOp t
    let s := s.request 0 (fun o => s.ownRun t o && !(hold && s.pastCommit o))
    let susp := s.luns.filter (fun e => e.2.suspended && mine e.2.cur)
    let s := if hold then s else susp.foldl (fun s (g, _) => s.abortSusp g t) s
    let s := s.modTag t fun x => { x with ended := true, detail := if x.started then 1 else 0 }
    (s.withdraw t).tagPush t

/-- Tags that an ABORT matches (R256). -/
def State.abortMatches (s : State) (t : Nat) : List Nat :=
  let tg := s.tagOf t
  let d := tg.desc
  s.heldTags.filter fun u =>
    let x := s.tagOf u
    u != t && dOp x.desc != opAbort && x.sq == dAux d / 2 ^ 16 % 128 && (bit d 8 || dHostTag x.desc == dAux d % 65536)
      && (x.tenant == tg.tenant || s.on (winOwner tg.tenant))

/-- An ABORT acts at its intake (R376). -/
def State.abortIntake (s : State) (t : Nat) : State :=
  let l := s.abortMatches t
  let wait := l.filter (fun u => !(s.tagOf u).inserted)
  let s := s.modTag t fun x => { x with waitsFor := wait, matched := l.length }
  (wait.foldl (fun s u => s.abortTag u) s).later (.tagCheck t)

/-! ### After an insertion -/

/-- Work that goes on after its tag's completion no longer names it; a pass that no held tag waits on takes band 3 and the deadline of its own
need (R356). -/
def State.untag (s : State) (t : Nat) : State :=
  let goes := fun (o : Op) => match o.role with | .pad => true | .parity _ _ _ => true | .later => true | .subst _ => true | _ => false
  let un := fun (o : Op) =>
    let o := if o.boss == some t then { o with boss := none } else o
    if o.tag != some t then o
    else if goes o then { o with tag := none, cls := 2, due := o.due2, past := false } else { o with tag := none, past := (s.tagOf t).past }
  let s := { s with ops := s.ops.map un, subs := s.subs.map (fun (x : Sub) => if x.tag == some t then { x with tag := none } else x) }
  let s := s.each (s.ctxs.map (·.1)) fun s n => if (s.ctxOf n).op.tag == some t || (s.ctxOf n).op.boss == some t then s.modCtx n (fun c => { c with op := un c.op }) else s
  s.each (s.luns.map (·.1)) fun s g =>
    let l := s.lunOf g
    if l.cur.tag == some t || l.cur.boss == some t || l.recs.any (fun r => r.tag == some t) || ((l.park.map (fun c => c.op.tag == some t || c.op.boss == some t)).getD false) then
      s.modLun g fun l => { l with cur := un l.cur, park := l.park.map (fun (c : Ctx) => { c with op := un c.op }), recs := l.recs.map (fun (r : PassRec) => if r.tag == some t then { r with tag := none } else r) }
    else s

/-- A completion has entered the COS: what waits for it goes on (R234, R249, R254, R257). -/
def State.onInserted (s : State) (t : Nat) : State :=
  let ab := (s.cos.find? (fun e => e.1 == t)).any (fun e => e.2.status == 0x20)
  let s := s.untag t
  let s := s.openTags.foldl (fun s u =>
    let x := s.tagOf u
    if dOp x.desc != opRlhSync && x.waitsFor.contains t then
      (s.modTag u fun x => { x with waitsFor := x.waitsFor.filter (· != t), aborted := if ab && dOp x.desc == opAbort then x.aborted + 1 else x.aborted }).later (.tagCheck u)
    else if x.waitsOrder then s.later (.tagCheck u) else s) s
  s.recDone (fun p => p.1 != 34 && p.1 != 35 && p.2 == t)

end Sys2Proof.Machine
end

