-- ==== Sys2Proof/Machine/Ends.lean ====
section
/-! DEFINITION. Where the ends of die operations go (R154): each role's own outcome; die resets (R128, R376), fences (R44,
R434) and status polls (R146). -/

namespace Sys2Proof.Machine

/-- During hold-up an operation that had not reached its COMMIT waits as if never started (R478). -/
def State.waitAgain (s : State) (o : Op) : State :=
  let s := match o.tag with
    | some t => s.modTag t fun x => { x with started := x.committed }
    | none => s
  s.addOp o

/-- The end of a page's pass. -/
def State.passEnd (s : State) (o : Op) (r : Nat) : State :=
  let g := o.loc.lun
  match o.role with
  | .later =>
    if r = resDone then
      let t := (s.recOf g o.loc.eb o.loc.page).bind (·.tag)
      s.lastVerified g o.loc.eb o.loc.page o.stripe t
    else s.passFailed o (r == resPoison)
  | .subst j => s.subPassed j o (if r = resDone then none else some (if r = resFenced then 0x34 else 0x32, 0))
  | .first =>
    if r = resDone then s.firstVerified o
    else match o.tag with
      | some t =>
        if resBad r || (s.tagOf t).committed then s.passFailed o false
        else ((s.unfold o).firstGone o).later (.endTag t (if r = resFenced then 0x34 else if r = resPoison then 0x35 else 0x32) (if r = resPoison then 1 else 0) (s.tagOf t).info0 (s.tagOf t).info1)
      | none => s.passFailed o false
  | _ => if r = resDone then s.firstVerified o else s.passFailed o false

/-- The end of an erase (R246, R342). -/
def State.eraseEnd (s : State) (o : Op) (r : Nat) (committed : Bool) : State :=
  let g := o.loc.lun
  let who := match o.role with | .substErase j => some (Eraser.sub j) | _ => o.tag.map Eraser.tag
  match who with
  | none => s
  | some w =>
    if r = resDone then s.eraseEnded g w true
    else if r = resDoneFail || r = resTimeout then s.eraseEnded g w false
    else
      let s := s.eraseDropped g w
      match w with
      | .sub j => s.subErased j false
      | .tag t => if r = resAbortedDie then s else if r = resFenced && !committed then s.later (.endTag t 0x34 0 0 0) else s.eraseFail g t
      | .pool _ => s

/-- Work of an agent on a fenced LUN ends (R44, R350), but for erases of pool blocks, which wait for the unfence. What still runs keeps the
agent until it ends. -/
def State.tallyFenced (s : State) (g : Nat) : State :=
  let t := s.tallyOf g
  let busy := t.phase != 0 && s.tallyBusy g (fun o => o.loc.lun == g && match o.role with | .tally _ => true | _ => false)
  let work := t.cur.toList ++ t.queue
  let flight := t.flight.filter (fun f => !t.known.contains f.1)
  let now := if busy then t.cur.filter (t.poolWork.contains ·) else none
  let s := s.modTally g fun t => { t with
    phase := if busy then t.phase else 0, cur := now, queue := t.poolWork.filter (now != some ·), redo := none, known := [], flight := flight,
    opening := t.opening && (busy || !t.poolWork.isEmpty || flight.any (·.1.isPool)) }
  work.foldl (fun s w => match w with
    | .write x => s.later (.endTag x 0x34 0 0 0)
    | .scan x => s.later (.endTag x 0x34 0 0 0)
    | .intent (.tag x) _ _ _ => s.later (.endTag x 0x34 0 0 0)
    | .intent (.sub j) _ _ _ => s.later (.intentBad g (.sub j))
    | .intent (.pool _) _ _ _ => s
    | .clear w _ bad => s.later (.eraseOver g w (!bad))) s

/-- The erase of a pool block that a fence cut before its confirm is done again (R348). -/
def State.poolAgain (s : State) (g eb : Nat) : State :=
  let t := s.tallyOf g
  match t.flight.find? (fun f => !t.known.contains f.1 && match f.1 with | .pool i => s.poolEb g i == eb | _ => false) with
  | some (.pool i, _) => s.modTally g fun t => { t with flight := t.flight.filter (fun f => f.1 != .pool i), queue := s.poolIntent g i :: t.queue }
  | _ => s.modTally g fun t => { t with phase := 0 }

/-- The end of a Tally operation; work that Drogue has ended is dropped, a cut program leaves its cell unknown. -/
def State.tallyOpEnd (s : State) (o : Op) (step r : Nat) (ended : Bool) : State :=
  let g := o.loc.lun
  if r = resFenced then (if step = 4 then s.poolAgain g o.loc.eb else s.modTally g fun t => { t with phase := 0 }).tallyFenced g
  else if ended && r != resDone && s.tallyOwn g (o.tag.getD 0) then
    let t := s.tallyOf g
    let s := s.modTally g fun t => { t with phase := 0, cur := none, redo := if (t.cur.bind t.rewrite).isSome then none else t.redo }
    if r = resAborted || r = resCancelled || (step != 3 && step != 5) then s.tallyGo g
    else ((s.evTally g (if t.onW0 && step == 3 then t.w0.getD 0 else t.w1) 0).modTally g fun t => { t with full := true }).tallyAdvance g
  else s.tallyEnd g step o r

/-- The end of a sense, a transfer or a soft read. DESIGN CHOICE (log 24): one that ends FAULTED or BAD_ARG counts as a failed sense of R295,
which names TIMEOUT and XFER_FAULT only. What an aborted transfer holds in staging stays until its tag's completion enters the COS (R24). -/
def State.readEnd (s : State) (o : Op) (r : Nat) : State :=
  let free := fun (s : State) => s.dropStage (lunChan o.loc.lun) (fun x => x.handle == o.v7.toNat)
  let cut := fun (s : State) => if ((o.tag.map (fun t => (s.tagOf t).ended && !(s.tagOf t).inserted)).getD false) then s else free s
  match o.role with
  | .sense id =>
    if r = resDone then s.senseDone id
    else if r = resFenced then s.readFenced id
    else if r = resAborted || r = resCancelled then s else s.senseFailed id
  | .xfer id cw =>
    if r = resDone then s.xferDone id cw o
    else if r = resFenced then (free s).readFenced id
    else if r = resAborted || r = resCancelled then cut s
    else if ((s.readOf id).map (·.raw)).getD false then ((free s).modRead id fun x => { x with xfers := x.xfers.erase cw }).cwEnd id cw .bad
    else (free s).senseFailed id
  | .soft id cw =>
    if r = resDone then s.softDone id cw o
    else if r = resFenced then (free s).readFenced id
    else if r = resAborted || r = resCancelled then cut s else (free s).senseFailed id
  | _ => s

/-- Whether an operation's consumer still wants it. -/
def State.wanted (s : State) (o : Op) : Bool :=
  match o.readId with
  | some i => ((s.readOf i).map (fun r => !r.ended)).getD false
  | none => match o.role with
    | .subst j => (s.subOf j).isSome
    | .substErase j => (s.subOf j).isSome
    | _ => true

/-- Passes without a descriptor of their own (R440 names no outcome): their data is staged again. -/
def Op.restaged (o : Op) : Bool := match o.role with
  | .pad => true
  | .parity _ _ _ => true
  | .subst _ => true
  | .tally _ => true
  | _ => false

/-- The data of a DIE_CMD or ROUTINE was poisoned in staging: it does not reach the die (R440). -/
def State.rawPoison (s : State) (t : Nat) (o : Op) : State :=
  (s.dropStage (lunChan o.loc.lun) (fun g => g.handle == o.v7.toNat)).later (.endTag t 0x35 1 0 0)

/-- A die operation has ended with a result (R154). -/
def State.opEnd (s : State) (o : Op) (r v6 v7 : Nat) : State :=
  let ended := (s.endedTag o).isSome
  let s := match o.owner with
    | some t =>
      if !ended then s
      else if o.isWrite && o.boss.isNone && (r == resDone || r == resDoneFail) then s.modTag t fun x => { x with ended := false }
      else if r == resAbortedDie || (r == resTimeout && o.isWrite) then s.modTag t fun x => { x with detail := 2 }
      else s
    | none => s
  let early := r == resAborted || r == resCancelled
  let s :=
    if early && !ended && s.on TET_PWRFAIL.LATCH && s.wanted o then
      match o.role with
      | .erase => match o.tag with
        | some t => (s.eraseDropped o.loc.lun (.tag t)).modTag t fun x => { x with phase := 0, started := false }
        | none => s
      | .substErase j => (s.eraseDropped o.loc.lun (.sub j)).subErase j
      | _ => s.waitAgain o
    else if r = resPoison && o.restaged then s.waitAgain o
    else match o.role with
      | .sense _ => s.readEnd o r
      | .xfer _ _ => s.readEnd o r
      | .soft _ _ => s.readEnd o r
      | .first => if ended && r != resDone && r != resDoneFail && !((o.tag.map (fun t => (s.tagOf t).committed)).getD false) then (s.unfold o).firstGone o else s.passEnd o r
      | .later => s.passEnd o r
      | .pad => s.passEnd o r
      | .parity _ _ _ => s.passEnd o r
      | .subst _ => s.passEnd o r
      | .substErase j => if (s.subOf j).isSome then s.eraseEnd o r false else s.eraseDropped o.loc.lun (.sub j)
      | .erase => if ended && early then s.eraseDropped o.loc.lun (.tag (o.tag.getD 0)) else s.eraseEnd o r ((o.tag.map (fun t => (s.tagOf t).committed)).getD false)
      | .sample i cw => match o.tag with
        | some t => if ended then s.dropStage (lunChan o.loc.lun) (fun x => cw != senseCw && x.handle == o.v7.toNat) else if r = resFenced then s.later (.endTag t 0x34 0 0 0) else s.sampleEnd t o i cw r
        | none => s
      | .tally k => s.tallyOpEnd o k r ended
      | .raw => match o.tag with
        | some t => if r = resFenced then s.later (.endTag t 0x34 0 0 0) else if r = resPoison then s.rawPoison t o else s.rawEnd t o r v6 v7
        | none => s
      | .routine => match o.tag with
        | some t => if r = resFenced then (s.routineMark o r).later (.endTag t 0x34 0 0 0) else if r = resPoison then (s.routineMark o r).rawPoison t o else s.rawEnd t o r v6 v7
        | none => s
      | _ => s
  match o.owner with
  | some t => if ended then s.later (.tagCheck t) else s
  | none => s

/-! ### Die resets and polls -/

/-- Codes of per-LUN state word 0 for an operation. -/
def Op.kindCode (o : Op) : Nat :=
  if o.isSense then kindSense else if o.isTallyProg then kindTally else if o.isErase then kindErase
  else if o.isPass || o.routine == rtProgOneshot || o.routine == rtProgPass then kindProg
  else if o.routine == rtTallyProg then kindTally else if o.role == .resetLun || o.routine == rtResetLun then kindReset else kindOther

/-- RUN of the operation past its confirm, in µs. -/
def State.runTime (s : State) (g : Nat) : Nat :=
  let l := s.lunOf g
  l.ran + (if l.suspended then 0 else s.us - l.since)

/-- The channel engine's own operation on a LUN. -/
def State.engineOp (s : State) (g : Nat) (routine : Nat) (role : Role) (v4 : Nat) : State :=
  let (q, s) := s.newSeq
  let l := s.lunOf g
  s.addOp { routine := routine, loc := { lun := g, eb := l.eb, page := l.page, planes := l.cur.loc.planes }, v4 := BitVec.ofNat 32 v4, role := role, tag := l.cur.tag, seq := q }

/-- EV_TIMEOUT with its capture (R128); a sense made in a suspension has its own kind and run time (R410). -/
def State.limitEvent (s : State) (g : Nat) (o : Op) : State :=
  let l := s.lunOf g
  let tag := o.tag.getD 0xFFF
  let aside := l.suspended && o.readId.isSome
  let kind := if aside then kindSense else l.op
  let s := s.evTimeout (lunChan g) g tag kind (if aside then s.us - l.asideAt else s.runTime g)
  if h : lunChan g < 32 then s.fault (.chan ⟨lunChan g, h⟩) 1 1 (g + tag * 2 ^ 10 + kind * 2 ^ 22) else s

/-- A LUN still busy after its reset is fenced (R128); its BUSY stays until a status poll finds it ready (R146). -/
def State.lunStuck (s : State) (g : Nat) (o : Op) : State :=
  let tag := o.tag.getD 0xFFF
  let s := ((s.modLun g fun l => { l with stuck := l.busy }).fenceLun g).evLunFault (lunChan g) g tag 1
  if h : lunChan g < 32 then s.fault (.chan ⟨lunChan g, h⟩) 2 2 (g + tag * 2 ^ 10 + o.kindCode * 2 ^ 22) else s

/-- RESET LUN follows a time limit, once (R128, R374). -/
def State.hangReset (s : State) (g : Nat) (o : Op) : State :=
  if (s.lunOf g).resetting then s
  else
    let s := s.modLun g fun l => { l with resetting := true, limitHit := false, hung := some o, busy := true }
    let s := (s.dropPark g).dropOps (fun p => p.role == Role.resume && p.loc.lun == g)
    s.engineOp g rtResetLun .resetLun 0

/-- A reset has its outcome: the operations it ended are handled as failed; a LUN still busy is fenced (R128). -/
def State.resetOver (s : State) (g : Nat) (ok : Bool) : State :=
  let l := s.lunOf g
  let s := s.modLun g fun l => { l with resetting := false, limitHit := false, hung := none, abortDie := false, suspended := false, suspErase := none, committed := false, op := if l.busy && !ok then l.op else 0, cur := {}, suspCount := 0, ran := 0, holdMaxed := false }
  let s := if ok then s else s.lunStuck g (l.hung.getD l.cur)
  let s := match l.hung with
    | some o => s.later (.opEnd o (if !ok && o.isSense then resFenced else resTimeout) 0 0)
    | none => s
  if l.suspended then s.later (.opEnd l.cur (if l.abortDie then resAbortedDie else resTimeout) 0 0) else s

/-- A LUN left busy is polled until a poll finds it ready (R146); not on a fenced channel or quad (R434), nor while the fence of a LUN that
stayed busy after its reset lasts. -/
def State.pollAgain (s : State) (g : Nat) : State :=
  let l := s.lunOf g
  let off := s.on (CH_FLT_CTRL.FENCED (lunChan g)) || s.on (Q_FLT_CTRL.FENCED (lunQuad g)) || (l.stuck && l.fenced)
  if l.busy && !l.resetting && !s.ops.any (fun o => o.role == Role.poll && o.loc.lun == g) && !off then
    s.engineOp g rtStatusPoll .poll 0
  else s

/-! ### Fences (R434) -/

/-- What is under way on LUN g, each operation once: one being reset, one suspended or carried by a RESUME or FINISH, and those of the
routines that run or are parked, but for those that are spared. -/
def State.underWay (s : State) (g : Nat) (spared : Ctx → Bool) : List Op :=
  let l := s.lunOf g
  let c := s.ctxOf (lunChan g)
  let run := ((if c.state != 0 && c.lun == g then [c] else []) ++ l.park.toList).filter (!spared ·)
  let carries := fun (o : Op) => o.role == Role.finish || o.role == Role.resume
  let carried := run.any (fun c => carries c.op) || s.ops.any (fun o => o.role == Role.finish && o.loc.lun == g)
  l.hung.toList ++ (if l.suspended || (l.hung.isNone && carried) then [l.cur] else []) ++ (run.map (·.op)).filter (!·.isEngine)

/-- What a fence of LUN g ends: waiting operations, the Tally agent's work, a suspended operation; with `all` (a channel or quad
fence) every routine on it, but without `raw` a DIE_CMD's, which is carried out. A committed pass or erase counts as failed. -/
def State.fenceWork (s : State) (g : Nat) (all raw : Bool) : State :=
  let l := s.lunOf g
  let n := lunChan g
  let hit := fun (o : Op) => o.loc.lun == g && (raw || o.role != Role.raw) && !((o.role == Role.resetLun || o.role == Role.finish) && !all)
  let spared := fun (c : Ctx) => !raw && c.op.role == Role.raw
  let left := if all then s.underWay g spared else if l.suspended then [l.cur] else []
  let past := l.committed || l.suspended
  let gone := s.ops.filter hit
  let s := s.dropOps hit
  let s := gone.foldl (fun s o => if o.isEngine then s else s.later (.opEnd o resFenced 0 0)) s
  let s := s.tallyFenced g
  let s := left.foldl (fun s o => s.later (.opEnd o (if past && o.isWrite then resDoneFail else resFenced) 0 0)) s
  let s := if l.suspended then s.modLun g fun l => { l with suspended := false, suspErase := none, committed := false, cur := {}, suspCount := 0 } else s
  if !all then s.pollAgain g
  else
    let s := s.modLun g fun l => { l with stuck := l.busy }
    let s := if (l.park.map (!spared ·)).getD false then (s.dropPark g).modLun g fun l => { l with committed := false } else s
    let c := s.ctxOf n
    let s := if c.state != 0 && c.lun == g && !spared c then
        (s.modCtx n fun _ => {}).modChan n fun x => { x with lane := [], tgt := none, pads := { x.pads with ceN := 0xFF } } else s
    if l.resetting || l.hung.isSome || left.contains l.cur then
      s.modLun g fun l => { l with resetting := false, hung := none, committed := false, abortDie := false, cur := if left.contains l.cur then {} else l.cur }
    else s

def State.chanFenceWork (s : State) (n : Nat) (raw : Bool) : State := s.each (chanLuns n) fun s g => s.fenceWork g true raw
def State.quadFenceWork (s : State) (q : Nat) : State := s.each (quadChans q) fun s n => s.chanFenceWork n true

end Sys2Proof.Machine
end

