-- ==== Sys2Proof/Machine/Flags.lean ====
section
/-! DEFINITION. Results and flags of Chanter's register operations (R141). -/

namespace Sys2Proof.Machine

/-- Register v_i of a context. -/
def Ctx.reg (c : Ctx) (i : Nat) : Word32 := c.v.getD i 0

/-- Z and N from a result, C as given. -/
def Ctx.flags (c : Ctx) (r : Word32) (cy : Bool) : Ctx := { c with z := r == 0, n := r.getLsbD 31, c := cy }

/-- Write register d and set the flags. -/
def Ctx.write (c : Ctx) (d : Nat) (r : Word32) (cy : Bool) : Ctx := ({ c with v := c.v.set d r }).flags r cy

/-- Carry out of bit 31. -/
def carry (a b : Word32) : Bool := decide (2 ^ 32 ≤ a.toNat + b.toNat)
/-- Borrow of a - b. -/
def borrow (a b : Word32) : Bool := decide (a.toNat < b.toNat)

def Ctx.mov (c : Ctx) (d : Nat) (imm : Word32) : Ctx := c.write d imm false
def Ctx.movr (c : Ctx) (d a : Nat) : Ctx := c.write d (c.reg a) false
def Ctx.add (c : Ctx) (d a : Nat) (imm : Word32) : Ctx := c.write d (c.reg a + imm) (carry (c.reg a) imm)
def Ctx.sub (c : Ctx) (d a : Nat) (imm : Word32) : Ctx := c.write d (c.reg a - imm) (borrow (c.reg a) imm)
def Ctx.and (c : Ctx) (d a : Nat) (imm : Word32) : Ctx := c.write d (c.reg a &&& imm) false
def Ctx.or (c : Ctx) (d a : Nat) (imm : Word32) : Ctx := c.write d (c.reg a ||| imm) false
/-- Shifts take IMM[4:0]. -/
def Ctx.shr (c : Ctx) (d a : Nat) (imm : Word32) : Ctx := c.write d (c.reg a >>> (imm.toNat % 32)) false
def Ctx.shl (c : Ctx) (d a : Nat) (imm : Word32) : Ctx := c.write d (c.reg a <<< (imm.toNat % 32)) false
def Ctx.dec (c : Ctx) (d : Nat) : Ctx := c.write d (c.reg d - 1) (borrow (c.reg d) 1)
def Ctx.cmp (c : Ctx) (a : Nat) (imm : Word32) : Ctx := c.flags (c.reg a - imm) (borrow (c.reg a) imm)
/-- LDK, LDX, LDS and LDL write the value found; C is 0. -/
def Ctx.load (c : Ctx) (d : Nat) (v : Word32) : Ctx := c.write d v false

/-- The timer is loaded (Table 4.7 TIMOP). -/
def Ctx.setTimer (c : Ctx) (v unit : Nat) : Ctx := { c with timerOn := true, timer := BitVec.ofNat 32 v, timerUnit := unit }

/-- REQACK bits clear the request latches. -/
def Ctx.ack (c : Ctx) (m : BitVec 3) : Ctx :=
  { c with abortReq := c.abortReq && !m.getLsbD 0, suspReq := c.suspReq && !m.getLsbD 1, cancelReq := c.cancelReq && !m.getLsbD 2 }

/-- Length of a timer value in units of 0.8 ns (TUNIT). -/
def timerTicks (v unit : Nat) : Nat :=
  match unit with
  | 0 => v
  | 1 => (v * 25 + 1) / 2
  | 2 => v * 1250
  | _ => v * 125000

end Sys2Proof.Machine
end

