-- ==== Sys2Proof/Machine/Operands.lean ====
section
/-! DEFINITION. The operand forms of Chanter's words: the micro-word (Table 4.3), the row (Table 4.2) and the three parts of
the nano-word (Tables 4.5 to 4.7), field by field. -/

namespace Sys2Proof.Machine

/-! ### Micro-word and row -/

def mwDwell (w : Nat) : Nat := w / 2 ^ 22 % 4
def mwSafe (w : Nat) : Bool := w.testBit 21
def mwCommit (w : Nat) : Bool := w.testBit 20
def mwSeq (w : Nat) : Nat := w / 2 ^ 17 % 8
def mwArg (w : Nat) : Nat := w / 2 ^ 11 % 64
def mwNano (w : Nat) : Nat := w % 2 ^ 11

/-- SEQ codes (Table 4.4). -/
def seqNext : Nat := 0
def seqJump : Nat := 1
def seqBranch : Nat := 2
def seqCall : Nat := 3
def seqRet : Nat := 4
def seqYield : Nat := 5
def seqEnd : Nat := 6
def seqTrap : Nat := 7

def rowKind (r : BitVec 64) : Nat := fld r 63 61
def rowTag (r : BitVec 64) : Nat := fld r 60 48
/-- The micro-word of address a in its row. -/
def rowPick (r : BitVec 64) (a : Nat) : Nat := if a % 2 = 1 then fld r 47 24 else fld r 23 0

/-! ### Nano-word -/

abbrev Nano := BitVec 192

def nwBusop (w : Nano) : Nat := fld w 63 60
def nwCmd (w : Nano) : Nat := fld w 59 52
def nwCmdReg (w : Nano) : Bool := bit w 51
def nwAddrN (w : Nano) : Nat := fld w 50 48
def nwAddrFmt (w : Nano) : Nat := fld w 47 46
def nwAddrReg (w : Nano) : Nat := fld w 45 42
def nwXfer (w : Nano) : Nat := fld w 41 40
def nwXlen (w : Nano) : Nat := fld w 39 36
def nwTsel (w : Nano) : Nat := fld w 35 32
def nwAlu (w : Nano) : Nat := fld w 127 124
def nwRd (w : Nano) : Nat := fld w 123 120
def nwRs (w : Nano) : Nat := fld w 119 116
def nwImm (w : Nano) : Nat := fld w 115 84
def nwArgUse (w : Nano) : Nat := fld w 83 82
def nwTarget (w : Nano) : Nat := fld w 191 178
/-- CSEL0 to CSEL3. -/
def nwCsel (w : Nano) (i : Nat) : Nat := fld w (177 - 5 * i) (173 - 5 * i)
def nwTimop (w : Nano) : Nat := fld w 157 156
def nwTunit (w : Nano) : Nat := fld w 155 154
def nwTim16 (w : Nano) : Nat := fld w 153 138
def nwReqack (w : Nano) : BitVec 3 := BitVec.ofNat 3 (fld w 137 135)

/-- Operands after ARG_USE: destination register, immediate, address register. -/
def opRd (mw : Nat) (w : Nano) : Nat := if nwArgUse w = 1 then mwArg mw % 16 else nwRd w
def opImm (mw : Nat) (w : Nano) : Nat := if nwArgUse w = 2 then mwArg mw else nwImm w
def opAddrReg (mw : Nat) (w : Nano) : Nat := if nwArgUse w = 3 then mwArg mw % 16 else nwAddrReg w

/-- BUSOP codes that address a selected target: all but none, CE_ON and CE_OFF (R142). -/
def busNeedsTarget (b : Nat) : Bool := decide (b ≥ 3)

/-- Reserved condition codes (Table 4.8). -/
def condReserved (c : Nat) : Bool := (5 ≤ c && c ≤ 7) || 28 ≤ c
/-- Conditions that wait for the lane (R143). -/
def condWaits (c : Nat) : Bool := (8 ≤ c && c ≤ 15) || c == 21 || c == 22

/-- Reserved codes of a nano-word, whether its action uses the field or not (R142); XLEN's are those of XFER 0b01 (Table 4.5), and
only the CSELs that a BRANCH selects count. -/
def nanoReserved (mw : Nat) (w : Nano) : Bool :=
  decide (nwBusop w ≥ 10) || nwAddrFmt w == 3 || nwXfer w == 3
    || (nwXfer w == 1 && (nwXlen w == 0 || decide (nwXlen w ≥ 9)))
    || decide (nwTsel w ≥ 7) || nwAlu w == 15 || nwTimop w == 3
    || (mwSeq mw == seqBranch && (List.range 4).any (fun i => condReserved (nwCsel w i)))

/-- The word waits until the lane has drained, its own action included (R143). -/
def waitsLane (mw : Nat) (w : Nano) : Bool :=
  nwAlu w == 12 || (mwSeq mw == seqBranch && (List.range 4).any (fun i => condWaits (nwCsel w i)))

/-- Register i of a register file of words. -/
def vget (v : List Word32) (i : Nat) : Word32 := v.getD i 0
def vset (v : List Word32) (i : Nat) (x : Word32) : List Word32 := v.set i x

/-- Low n bytes of registers k and k + 1, least significant first. DESIGN CHOICE (log 78): after v15 comes v0. -/
def pairBytes (v : List Word32) (k n : Nat) : List Byte :=
  natLe n ((vget v k).toNat + (vget v ((k + 1) % 16)).toNat * 2 ^ 32)

/-- Address bytes of an ADDR or STATUS action (Table 4.5). DESIGN CHOICE (log 78): cycles beyond the register's four bytes send
zeros. -/
def addrBytes (v : List Word32) (fmt reg n : Nat) : List Byte :=
  if fmt = 1 then (natLe 2 (vget v 3).toNat ++ natLe (n - 2) (vget v 2).toNat).take n
  else if fmt = 2 then natLe n (vget v 2).toNat else natLe n (vget v reg).toNat

end Sys2Proof.Machine
end

