-- ==== Sys2Proof/Machine/Rom.lean ====
section
/-! DEFINITION. The ROM library (R135, R136, R155): what the spec gives of it is READ_SENSE (Table 4.15) with row 0xA2 and the
nano-words 0x0A4 and 0x0A5; the rest of the image is Config's. -/

namespace Sys2Proof.Machine

/-! ### Fields of a nano-word -/

/-- Value v at bit lo of a nano-word. -/
def nwField (lo v : Nat) : Nano := BitVec.ofNat 192 (v * 2 ^ lo)
def nwBus (b : Nat) : Nano := nwField 60 b
/-- CMD with a command byte; ADDR_N, ADDR_FMT and ADDR_REG. -/
def nwCmdByte (c : Nat) : Nano := nwField 52 c
def nwAddr (n fmt reg : Nat) : Nano := nwField 48 n ||| nwField 46 fmt ||| nwField 42 reg
/-- XFER 0b01 of n bytes from v(k). -/
def nwPair (n k : Nat) : Nano := nwField 40 1 ||| nwField 36 n ||| nwField 42 k
def nwWait (t : Nat) : Nano := nwField 32 t
/-- A register operation with its destination, source and immediate. -/
def nwOp (op d s imm : Nat) : Nano := nwField 124 op ||| nwField 120 d ||| nwField 116 s ||| nwField 84 imm
def nwTo (a : Nat) : Nano := nwField 178 a
/-- CSEL0 and CSEL1. -/
def nwSel (c0 c1 : Nat) : Nano := nwField 173 c0 ||| nwField 168 c1
/-- The timer in µs from an immediate, from a register. -/
def nwTimImm (v : Nat) : Nano := nwField 156 1 ||| nwField 154 2 ||| nwField 138 v
def nwTimReg (s : Nat) : Nano := nwField 156 2 ||| nwField 154 2 ||| nwField 116 s
def nwAck (m : Nat) : Nano := nwField 135 m

/-- SAFE, SEQ and ARG of a listed micro-word. -/
structure Listed where
  safe : Bool := false
  seq : Nat := 0
  arg : Nat := 0
  nano : Nano := 0
deriving DecidableEq, Repr

/-- READ_SENSE (Table 4.15): the listed word at a micro address. -/
def senseWord (a : Nat) : Option Listed :=
  match a with
  | 0x0100 => some { seq := seqJump, nano := nwTo 0x0102 }
  | 0x0101 => some { seq := seqBranch, nano := nwTo 0x0120 ||| nwSel 17 19 }
  | 0x0102 => some { nano := nwOp 1 12 0 0 }
  | 0x0103 => some { nano := nwOp 0xA 9 0 0x10 }
  | 0x0104 => some { nano := nwOp 0xA 13 0 0x18 }
  | 0x0105 => some { nano := nwOp 0xA 14 0 0x1E }
  | 0x0106 => some { nano := nwOp 0xA 11 0 0x11 }
  | 0x0107 => some { nano := nwOp 3 11 11 3 }
  | 0x0108 => some { nano := nwOp 7 11 11 2 }
  | 0x0109 => some { safe := true, seq := seqBranch, nano := nwTo 0x0110 ||| nwSel 2 0 }
  | 0x0110 => some { seq := seqJump, nano := nwOp 0xB 10 12 0 ||| nwTo 0x0130 }
  | 0x0111 => some { seq := seqJump, nano := nwTo 0x0140 }
  | 0x0120 => some { seq := seqRet }
  | 0x0121 => some { seq := seqEnd, arg := 3, nano := nwAck 1 }
  | 0x0122 => some { seq := seqEnd, arg := 5, nano := nwAck 4 }
  | 0x0123 => some { seq := seqEnd, arg := 3, nano := nwAck 5 }
  | 0x0130 => some { nano := nwBus 1 }
  | 0x0131 => some { nano := nwBus 3 ||| nwCmdByte 0xEF }
  | 0x0132 => some { nano := nwBus 4 ||| nwAddr 1 0 9 ||| nwOp 3 9 9 1 ||| nwWait 3 }
  | 0x0133 => some { nano := nwBus 5 ||| nwPair 4 10 ||| nwOp 3 12 12 1 ||| nwWait 1 }
  | 0x0134 => some { safe := true, seq := seqYield, nano := nwBus 2 ||| nwTimImm 1 ||| nwTo 0x0135 }
  | 0x0135 => some { seq := seqJump, nano := nwOp 9 11 0 0 ||| nwTo 0x0109 }
  | 0x0140 => some { safe := true, nano := nwBus 1 }
  | 0x0141 => some { nano := nwBus 3 ||| nwCmdByte 0x00 }
  | 0x0142 => some { nano := nwBus 4 ||| nwAddr 5 1 0 }
  | 0x0143 => some { nano := nwBus 3 ||| nwCmdByte 0x30 ||| nwWait 1 }
  | 0x0144 => some { safe := true, seq := seqYield, nano := nwBus 2 ||| nwTimReg 13 ||| nwTo 0x0145 }
  | 0x0145 => some { nano := nwBus 1 }
  | 0x0146 => some { nano := nwBus 7 ||| nwCmdByte 0x78 ||| nwAddr 3 2 0 }
  | 0x0147 => some { safe := true, seq := seqBranch, nano := nwBus 2 ||| nwTo 0x0150 ||| nwSel 14 26 }
  | 0x0150 => some { safe := true, seq := seqYield, nano := nwTimReg 14 ||| nwTo 0x0145 }
  | 0x0151 => some { seq := seqEnd, nano := nwOp 0xC 6 0 0 }
  | 0x0152 => some { seq := seqEnd, arg := 6 }
  | 0x0153 => some { seq := seqEnd, nano := nwOp 0xC 6 0 0 }
  | _ => none

/-! ### The image -/

/-- A micro-word of the ROM: what Table 4.15 lists of it stands over the image, whose bits give the rest. -/
def romMicro (a : Nat) : Nat :=
  let w := rowPick (Config.romRow (a / 2)) a
  match senseWord a with
  | none => w
  | some l =>
    let m := l.safe.toNat * 2 ^ 21 + l.seq * 2 ^ 17
    if a = 0x0144 then m + 0x0A4 else if a = 0x0145 then m + 0x0A5
    else if a = 0x0130 ∨ a = 0x0140 then mwDwell w * 2 ^ 22 + m + mwArg w * 2 ^ 11 + 0x0A5
    else mwDwell w * 2 ^ 22 + m + (if l.seq = seqEnd then l.arg else mwArg w) * 2 ^ 11 + mwNano w

/-- A row of the ROM; those with listed words carry their tag, 0x0080 as an entry row (Table 4.2). -/
def romRow (j : Nat) : BitVec 64 :=
  if (senseWord (2 * j)).isSome || (senseWord (2 * j + 1)).isSome then
    BitVec.ofNat 64 ((if j = 0x80 then 1 else 0) * 2 ^ 61 + j * 2 ^ 48 + romMicro (2 * j + 1) * 2 ^ 24 + romMicro (2 * j))
  else Config.romRow j

/-- A nano-word of the ROM by its address. -/
def romNano (i : Nat) : Nano :=
  if i = 0x0A4 then nwBus 2 ||| nwTimReg 13 ||| nwTo 0x0145 else if i = 0x0A5 then nwBus 1 else Config.romNano i

/-- The nano-word that the micro-word at a ROM address names, at nano address i: the listed one where Table 4.15 gives it. -/
def romNanoOf (a i : Nat) : Nano := ((senseWord a).map (·.nano)).getD (romNano i)

/-! ### The start-up check (R156) -/

/-- Every row's tag names the row and a ROM kind. -/
def romTagsOk : Bool := (List.range 0x1000).all fun j => rowTag (romRow j) == j && decide (rowKind (romRow j) ≤ 1)

/-- CRC-32C over the rows 0x0000 to 0x0FFE, then every nano part in address order, each as 8 little-endian bytes. -/
def romCrc : Word32 :=
  crc32c ((List.range 0x0FFF).flatMap (fun j => natLe 8 (romRow j).toNat) ++ (List.range 0x400).flatMap (fun i => natLe 24 (romNano i).toNat))

/-- The image passes: tags, and the CRC that the last row holds. -/
def romOk : Bool := romTagsOk && romCrc == (romRow 0x0FFF).setWidth 32

end Sys2Proof.Machine
end

