-- ==== Sys2Proof/Machine/Chanter.lean ====
section
/-! DEFINITION. Chanter (spec/04_chanter_microsequencer.md): fetch with redirection and row tags, the op lane at the pads, the
execution of one micro-word, the end of a routine, faults, restarts and the spare's take-over (R135 to R164, R449 to R451). -/

namespace Sys2Proof.Machine

/-! ### Chanters and banks -/

/-- The Chanter that serves quad q: its own, or the spare (index 8). -/
def State.chanterOf (s : State) (q : Nat) : Nat := if s.on (Q_FLT_CTRL.SPARE_SERVING q) then 8 else q
/-- BANK_k and PENDING_k (R161). -/
def State.bankOf (s : State) (k : Nat) : Bool := (s.reg PAT_QUAD_PATCH_STATE.adr).getLsbD (3 * k)
def State.pendingOf (s : State) (k : Nat) : Bool := (s.reg PAT_QUAD_PATCH_STATE.adr).getLsbD (3 * k + 1)
def State.patBank (s : State) (b : Bool) : PatBank := if b then s.pat1 else s.pat0
def State.setPatBank (s : State) (b : Bool) (p : PatBank) : State := if b then { s with pat1 := p } else { s with pat0 := p }

/-- Quads whose routines run on Chanter k (R450). -/
def State.chanterQuads (s : State) (k : Nat) : List Nat := (List.range 8).filter (fun q => s.chanterOf q == k)

/-! ### Fetch (R135 to R137, R159) -/

def matchEn (w : Word32) : Bool := bit w 31
def matchSpace (w : Word32) : Bool := bit w 30

/-- Where a match register sends a fetch of a ROM address; none where no enabled one names it. -/
def PatBank.redirect (p : PatBank) (nano : Bool) (a : Nat) : Option Nat :=
  let m := fun i => tabGet (fun _ => 0) p.mtch i
  ((List.range 32).find? (fun i => matchEn (m i) && matchSpace (m i) == nano && (if nano then fld (m i) 25 16 else fld (m i) 29 16) == a)).map
    fun i => if nano then fld (m i) 10 0 else fld (m i) 13 0

/-- A fault of Table 4.9, whether what it met lies in patch RAM, and the row or nano address there. -/
structure Bad where
  code : Nat
  patch : Bool
  row : Nat := 0
deriving DecidableEq, Repr

/-- An address as the fetch meets it, in a space of `rom` ROM and `patch` patch addresses: itself, or where it is redirected; none
for a reserved one and for a TO outside the patch space (R135, R159). -/
def PatBank.fetchAt (p : PatBank) (nano : Bool) (rom patch a : Nat) : Option Nat :=
  if a < rom then (match p.redirect nano a with
    | some b => if rom ≤ b && b < rom + patch then some b else none
    | none => some a)
  else if a < rom + patch then some a else none

/-- Corrected reads among the checks of a fetch. -/
def fixedReads (e : ReadErr) : Nat := if e == .corrected then 1 else 0
/-- Check bits that an injection inverts: one or two are corrected (R446). -/
def invCount (inv : Nat) : Nat := if inv == 1 || inv == 2 then 1 else 0

/-- The micro-word that a fetch gives and its address after redirection, or its fault, with the corrected reads made (R136, R137). -/
def PatBank.microWord (p : PatBank) (a : Nat) (err : FetchErr) : Nat × Except Bad (Nat × Nat) :=
  match p.fetchAt false 0x2000 0x400 a with
  | none => (0, .error ⟨4, false, 0⟩)
  | some b =>
    let patch := decide (0x2000 ≤ b)
    let j := (b - 0x2000) / 2
    if patch && !tabGet (fun _ => false) p.rowOk j then (0, .error ⟨9, true, b / 2⟩)
    else
      let row := if patch then tabGet (fun _ => 0) p.row j else romRow (b / 2)
      let inv := if patch then tabGet (fun _ => 0) p.rowInv j else 0
      let n := max (fixedReads err.row) (invCount inv)
      if err.row == .bad || inv == 3 then (0, .error ⟨1, patch, b / 2⟩)
      else if rowTag row != b / 2 || !(if patch then rowKind row == 2 else rowKind row ≤ 1) then (n, .error ⟨3, patch, b / 2⟩)
      else (n, .ok (rowPick row b, b))

/-- The nano-word at address a that the micro-word at (redirected) address m names, or its fault, with the corrected reads made. -/
def PatBank.nanoWord' (p : PatBank) (m a : Nat) (err : FetchErr) : Nat × Except Bad (Nano × Bool) :=
  match p.fetchAt true 0x400 0x80 a with
  | none => (0, .error ⟨4, false, 0⟩)
  | some b =>
    let patch := decide (0x400 ≤ b)
    let i := b - 0x400
    if patch && !tabGet (fun _ => false) p.nanoOk i then (0, .error ⟨9, true, b⟩)
    else
      let inv := if patch then tabGet (fun _ => 0) p.nanoInv i else 0
      let n := max (fixedReads err.a) (invCount inv) + fixedReads err.b + fixedReads err.c
      if err.a == .bad || err.b == .bad || err.c == .bad || inv == 3 then (n, .error ⟨2, patch, b⟩)
      else (n, .ok (if patch then tabGet (fun _ => 0) p.nano i else romNanoOf m b, patch))

/-- What a fetch at an address gives: the word, or its fault, with the corrected reads it made; `patch`: the micro-word is in patch
RAM. DESIGN CHOICE (log 78): of several faults of one word the first in this order is reported: 0x04, 0x09 of a row never written, 0x01,
0x03, the same of the nano-word with 0x02, 0x0A, 0x09 of TRAP; the store of a fault 0x0A is the nano-word's for a reserved nano code or
a misaligned BRANCH, the micro-word's for a reserved END code. -/
structure Fetched where
  mw : Nat := 0
  nano : Nano := 0
  corr : Nat := 0
  patch : Bool := false
  bad : Option Bad := none
deriving DecidableEq, Repr

def PatBank.fetch (p : PatBank) (a : Nat) (err : FetchErr) : Fetched :=
  match p.microWord a err with
  | (n, .error b) => { corr := n, patch := b.patch, bad := some b }
  | (n, .ok (mw, m)) =>
    let here := decide (0x2000 ≤ m)
    match p.nanoWord' m (mwNano mw) err with
    | (k, .error b) => { mw := mw, corr := n + k, patch := here, bad := some b }
    | (k, .ok (w, patch)) =>
      let bad := if nanoReserved mw w then some ⟨0x0A, patch, 0⟩
        else if mwSeq mw == seqBranch && nwTarget w % 16 != 0 then some ⟨0x0A, patch, 0⟩
        else if mwSeq mw == seqEnd && mwArg mw ≥ 0x0B then some ⟨0x0A, here, 0⟩
        else if mwSeq mw == seqTrap then some ⟨9, here, 0⟩ else none
      { mw := mw, nano := w, corr := n + k, patch := here, bad := bad }

/-! ### Contexts -/

/-- The LUN that a context's v1 names (Table 4.10). -/
def Ctx.lunNow (c : Ctx) (n : Nat) : Nat := 32 * n + 4 * ((c.reg 1).toNat % 8) + (c.reg 1).toNat / 8 % 4
def Ctx.target (c : Ctx) : Nat := (c.reg 1).toNat % 8
def Ctx.kind (c : Ctx) : Nat := (c.reg 5).toNat % 4

/-- The running or parked routine of LUN g on channel n changes. -/
def State.modRun (s : State) (n g : Nat) (f : Ctx → Ctx) : State :=
  if (s.ctxOf n).state != 0 && (s.ctxOf n).lun == g then s.modCtx n f
  else s.modLun g fun l => { l with park := l.park.map f }
def State.runOf (s : State) (n g : Nat) : Option Ctx :=
  if (s.ctxOf n).state != 0 && (s.ctxOf n).lun == g then some (s.ctxOf n) else (s.lunOf g).park

/-- A context is freed: CE_N of the selected target goes high and lane entries of the routine are discarded (R146). -/
def State.freeCtx (s : State) (n g : Nat) : State :=
  let s := (s.modCtx n fun _ => {}).modChan n fun x => { x with lane := x.lane.filter (fun e => e.lun != g), tgt := none, pads := { x.pads with ceN := 0xFF }, repeated := false }
  if n < 32 then s.updChanRec n else s

/-! ### The end of a routine (R146, R154) -/

/-- A LUN's operation is over; one left busy stays so until a poll finds it ready (R146). -/
def Lun.idle (l : Lun) : Lun :=
  { l with suspended := false, committed := false, op := if l.busy then l.op else 0, suspCount := 0, limitHit := false, suspErase := none, cur := {}, ran := 0, holdMaxed := false }

/-- An operation past its confirm is suspended at the die (R361). One whose tag Drogue has ended meanwhile is reset, and the suspension is
not counted (R386). -/
def State.suspendedNow (s : State) (g : Nat) (o : Op) : State :=
  let k := if (s.endedTag o).isSome then 0 else 1
  let s := s.modLun g fun l => { l with suspended := true, committed := true, cur := o, suspCount := l.suspCount + k, ran := l.ran + (s.us - l.since), since := s.us, holdMaxed := false, suspErase := if o.isErase then some (o.loc.eb, s.us) else none }
  let s := s.bump BRD_CNT_SUSP.COUNT k
  match s.endedTag o with
  | some t => if s.on TET_PWRFAIL.LATCH then s else s.abortSusp g t
  | none => s

/-- The outcome of an operation on LUN g goes where its role says. -/
def State.outcome (s : State) (g : Nat) (o : Op) (r v6 v7 : Nat) : State :=
  let l := s.lunOf g
  let aside := l.suspended && o.isSense
  if r = resSuspended then s.suspendedNow g o
  else if r = resTimeout && o.role != .raw then
    (if l.limitHit then s else s.limitEvent g o).hangReset g o
  else
    let s := if r = resDone || r = resDoneFail || r = resAbortedDie then
        let stuck := r == resAbortedDie && l.busy && !l.suspended
        let s := s.modLun g fun l => if l.suspended && !(l.cur == o) then l else l.idle
        if stuck then s.lunStuck g o else s
      else if aside then s
      else s.modLun g fun l => if l.suspended then l else { l with committed := false, suspCount := 0, cur := {} }
    s.later (.opEnd o r v6 v7)

/-- A routine has ended with a result. -/
def State.routed (s : State) (g : Nat) (o : Op) (r v6 v7 : Nat) : State :=
  let l := s.lunOf g
  let s := match o.role with
    | .resetLun => s.resetOver g (r = resDone)
    | .train => s
    | .poll => if (s.lunOf g).busy then s else s.modLun g fun l => if l.suspended then l else { l with op := 0 }
    | .resume =>
      if r = resAborted || r = resCancelled || r = resBadArg then
        let s := s.modLun g fun l => if l.suspended then l else { l with suspended := true, since := s.us, suspErase := if l.cur.isErase then some (l.cur.loc.eb, s.us) else none }
        match s.endedTag (s.lunOf g).cur with
        | some t => if s.on TET_PWRFAIL.LATCH || (s.lunOf g).abortDie then s else s.abortSusp g t
        | none => s
      else s.outcome g l.cur (if r = resFaulted then resDoneFail else r) v6 v7
    | .finish => s.outcome g l.cur (if r = resFaulted then resDoneFail else r) v6 v7
    | _ => s.outcome g o r v6 v7
  s.pollAgain g

/-- A running routine ends: context, event and outcome. -/
def State.routineEnd (s : State) (n r : Nat) : State :=
  let c := s.ctxOf n
  if c.state = 0 then s
  else
    let g := c.lun
    let s := s.freeCtx n g
    let s := if r = resDoneFail || r = resXferFault || r = resBadArg || r = resFaulted then
        s.evOpError n g (c.op.tag.getD 0xFFF) r ((s.chanOf n).stat.toNat + c.routine * 256) else s
    s.routed g c.op r (c.reg 6).toNat (c.reg 7).toNat

/-! ### The start of a routine (R144, R147, R160, Table 4.10) -/

def attemptWord (v0 : Word32) (k : Nat) : Word32 := putFld v0 31 24 k

/-- A context as a routine's start leaves it; FINISH takes the requests pending for the routine it follows (R386). -/
def Ctx.fresh (o : Op) (g routine entry : Nat) (bank : Bool) (v : List Word32) : Ctx :=
  { state := 2, v := v ++ List.replicate 8 0, pc := entry, entry := entry, bank := bank, routine := routine, copy := v, op := o, lun := g,
    abortReq := o.reqs.contains 0, suspReq := o.reqs.contains 1, cancelReq := o.reqs.contains 2 }

/-- R151: the routine starts again at its entry; requests stay pending. -/
def Ctx.restart (c : Ctx) (attempt : Nat) : Ctx :=
  { Ctx.fresh c.op c.lun c.routine c.entry c.bank (c.copy.set 0 (attemptWord (c.copy.getD 0 0) attempt)) with copy := c.copy, restarts := attempt, abortReq := c.abortReq, suspReq := c.suspReq, cancelReq := c.cancelReq }

/-- Entries of Table 4.12. -/
def romEntry (r : Nat) : Option Nat :=
  [0x0040, 0x0080, 0x00C0, 0x0100, 0x0200, 0x0280, 0x0400, 0x0500, 0x0600, 0x0680, 0x0700, 0x0780, 0x0800, 0x0880, 0x08C0, 0x0900,
   0x0980, 0x0A00, 0x0B00, 0x0B80, 0x0C00, 0x0C80][r]?

/-- Where a routine starts: ROM, or the patch entry of the bank in force (R155, R160). -/
def State.routineEntry (s : State) (r : Nat) (bank : Bool) : Option Nat :=
  if r < 0x20 then romEntry r
  else
    let w := tabGet (fun _ => 0) (s.patBank bank).entry (r - 0x20)
    let e := fld w 13 0
    if bit w 31 && e % 2 = 0 && 0x2000 ≤ e && e < 0x2400 then some e else none

/-- v0 to v7 at a routine's start (Table 4.10). DESIGN CHOICE (log 79): the row address of an operation on several planes is that of the
lowest plane of its mask. -/
def State.startRegs (s : State) (o : Op) : List Word32 :=
  let g := o.loc.lun
  let plane := (planeList o.loc.planes).headD 0
  let raw := o.role == .raw
  [BitVec.ofNat 32 (o.routine % 256 * 2 ^ 16 + (o.tag.getD 0xFFF) % 4096),
   BitVec.ofNat 32 (o.loc.planes % 256 * 2 ^ 5 + lunInTarget g * 2 ^ 3 + lunTarget g),
   BitVec.ofNat 32 (if raw then (o.tag.map (fun t => dOpt (s.tagOf t).desc)).getD 0 else s.rowAddr g o.loc.eb plane o.loc.page),
   o.v3, o.v4, BitVec.ofNat 32 (if raw then 0 else s.kind g), o.v6, o.v7]

/-! ### Declaration and take-over (R449 to R451) -/

/-- A routine that starts again leaves nothing in staging (R151). -/
def State.unstage (s : State) (n : Nat) (o : Op) : State :=
  if o.usesStage && (s.chanOf n).staging.any (fun g => g.handle == o.v7.toNat) then
    s.modChan n fun x => { x with staging := x.staging.filter (fun g => g.handle != o.v7.toNat) } else s

/-- Every uncommitted routine that a quad's contexts execute is abandoned for restart (R450). -/
def State.abandon (s : State) (q : Nat) : State :=
  s.each (quadChans q) fun s n =>
    let c := s.ctxOf n
    if c.state = 0 || c.committed then s
    else ((s.freeCtx n c.lun).unstage n c.op).modCtx n fun _ => c.restart c.restarts

/-- The quad's Chanter is declared faulted. ctx: what the capture of code 0x10 holds. -/
def State.declareChanter (s : State) (q : Fin 8) (ctx : Nat) : State :=
  if s.on (Q_FLT_CTRL.CHT_FAULTED q.val) then s
  else
    let again := s.recovering (.quad q)
    let s := (s.put (Q_FLT_CTRL.CHT_FAULTED q.val) 1).capture (.quad q) 0x10 2 ctx false
    if again && !s.on (Q_FLT_CTRL.FENCED q.val) then s.escalate (.quad q) 0x10 2 false
    else if s.ballast.spcOk && s.ballast.spcQuad.isNone then
      let s := { s with ballast := { s.ballast with spcQuad := some q.val } }
      let s := ((s.modQuad q.val fun x => { x with takeover := true }).updQuadRec q.val).evSpareTaken 3 q.val 8
      ((s.powerUp pdSpc).abandon q.val)
    else
      let s := (s.capture (.quad q) 0x13 2 0x10 false).evSpareExhausted 3 q.val
      s.fenceQuad q.val

/-- FINISH for a LUN's committed operation whose routine c has ended (R152): v4 is the committed kind. -/
def State.finishOp (s : State) (g : Nat) (c : Ctx) : State :=
  c.reqs.foldl (fun s k => s.request k (fun o => o.role == .finish && o.loc.lun == g)) (s.engineOp g rtFinish .finish (s.lunOf g).op)

/-- FINISH after routine c starts at once in the channel's free context (R152). DESIGN CHOICE (log 78): also while an activation is pending in its Chanter,
though R162 starts no new routine then: the spec does not say which goes first. -/
def State.finishNow (s : State) (n g : Nat) (c : Ctx) : State :=
  let l := s.lunOf g
  let o : Op := { routine := rtFinish, loc := { lun := g, eb := l.eb, page := l.page, planes := l.cur.loc.planes }, v4 := BitVec.ofNat 32 l.op, role := .finish, tag := l.cur.tag, seq := s.intakeSeq, reqs := c.reqs }
  let bank := s.bankOf (s.chanterOf (chanQuad n))
  match s.routineEntry rtFinish bank with
  | some e => { s with intakeSeq := s.intakeSeq + 1 }.modCtx n fun _ => Ctx.fresh o g rtFinish e bank (s.startRegs o)
  | none => s

/-- The last Chanter to switch completes the activation (R162). -/
def State.patDone (s : State) : State :=
  if !s.on PAT_STAT.ACT_PENDING || (List.range 9).any s.pendingOf then s
  else
    let new := s.get PAT_STAT.PEND_BANK
    let s := (s.put PAT_STAT.ACT_PENDING 0).put PAT_STAT.PEND_BANK (1 - new)
    s.raise 276 0 (new + (s.patBank (new == 1)).ident.toNat * 2 ^ 32)

/-- A committed operation goes on at LUN g, in a context or parked. -/
def State.committedOn (s : State) (n g : Nat) : Bool :=
  ((s.runOf n g).map (·.committed)).getD false

/-- The spare's take-over ends (R152, R450, Table 13.10): FINISH for every committed LUN, at once where its routine was executing;
the abandoned routines restart; the others go on from their park slots. -/
def State.takeoverEnd (s : State) : State :=
  match s.ballast.spcQuad with
  | none => s
  | some q =>
    if !(s.quadOf q).takeover || !s.usable pdSpc then s
    else
      let w := s.reg PAT_QUAD_PATCH_STATE.adr
      let s := (s.setReg PAT_QUAD_PATCH_STATE.adr (putFld w 25 24 (fld w (3 * q + 1) (3 * q)))).patDone
      let s := ((s.put (Q_FLT_CTRL.SPARE_SERVING q) 1).modQuad q fun x => { x with takeover := false }).updQuadRec q
      s.each (quadChans q) fun s n =>
        let c := s.ctxOf n
        let s := if c.state != 0 && c.committed then (s.freeCtx n c.lun).finishNow n c.lun c else s
        s.each (chanLuns n) fun s g => match (s.lunOf g).park with
          | some c => if c.committed then (s.dropPark g).finishOp g c else s
          | none => s

/-! ### Faults (R150 to R152) -/

/-- A counted fault of the quad's Chanter within one second (R449), or a fault of the serving spare (R451). -/
def State.chanterCount (s : State) (q : Fin 8) (code : Nat) (patch : Bool) : State :=
  if patch || code ≥ 9 then s
  else if s.on (Q_FLT_CTRL.SPARE_SERVING q.val) then
    let s := (s.raise 286 2 (code + q.val * 2 ^ 8 + 2 ^ 11)).fault (.quad q) 0x14 2 code
    s.fenceQuad q.val
  else
    let s := s.modQuad q.val fun x => { x with faults := x.faults.filter (fun t => decide (s.us < t + 1000000)) ++ [s.us] }
    let k := (s.quadOf q.val).faults.length
    if k ≥ s.get (Q_FLT_CTRL.CHT_LIMIT q.val) && !s.on (Q_FLT_CTRL.CHT_FAULTED q.val) then s.declareChanter q (min k 15) else s

/-- The events of Table 4.9 and R411. -/
def State.chanterEvent (s : State) (q n : Nat) (c : Ctx) (b : Bad) : State :=
  let tag := c.op.tag.getD 0xFFF
  let code := b.code
  let patch := b.patch
  let info := code + n % 4 * 2 ^ 8 + c.pc * 2 ^ 10 + c.bank.toNat * 2 ^ 24 + tag * 2 ^ 25
  if (code = 1 || code = 2) && patch then s.evSramUe q 0x3F b.row tag false false
  else if code = 9 || (code = 0x0A && patch) then s.evQuad q 1 1 info
  else s.evQuad q 0 1 info

/-- What a fault makes of the routine in channel n's context: FINISH after its commit point (R152), else a restart, or FAULTED after the
second one (R151). -/
def State.runFaulted (s : State) (n : Nat) : State :=
  let c := s.ctxOf n
  if c.committed then (s.freeCtx n c.lun).finishNow n c.lun c
  else if c.restarts < 2 then
    (((s.freeCtx n c.lun).unstage n c.op).bump (CHT_CNT.RESTARTS (chanQuad n)) 1).modCtx n fun _ => c.restart (c.restarts + 1)
  else s.routineEnd n resFaulted

/-- A Chanter fault in the routine of channel n. One that has the Chanter declared leaves the routine to the take-over, its attempt
count unchanged (R450, Table 13.10). -/
def State.chanterFault (s : State) (n : Nat) (b : Bad) : State :=
  let c := s.ctxOf n
  if c.state = 0 then s
  else if h : chanQuad n < 8 then
    let q : Fin 8 := ⟨chanQuad n, h⟩
    let again := !c.committed && decide (c.restarts < 2)
    let ctx := n % 4 + c.pc * 2 ^ 2 + c.op.tag.getD 0xFFF * 2 ^ 16 + c.bank.toNat * 2 ^ 28
    let was := s.on (Q_FLT_CTRL.CHT_FAULTED q.val)
    let s := ((s.fault (.quad q) b.code 1 ctx again).chanterEvent q.val n c b).chanterCount q b.code b.patch
    if !was && s.on (Q_FLT_CTRL.CHT_FAULTED q.val) then s else s.runFaulted n
  else s

/-- The routine of LUN g, executing or parked, has lost its data input burst (R452). -/
def State.runAgain (s : State) (n g : Nat) : State :=
  if (s.ctxOf n).state != 0 && (s.ctxOf n).lun == g then s.runFaulted n
  else match (s.lunOf g).park with
  | some c =>
    if c.committed then (s.dropPark g).finishOp g c
    else if 2 ≤ c.restarts then (s.dropPark g).routed g c.op resFaulted (c.reg 6).toNat (c.reg 7).toNat
    else
      let s := ((s.dropPark g).unstage n c.op).bump (CHT_CNT.RESTARTS (chanQuad n)) 1
      (s.modLun g fun l => { l with park := some { c.restart (c.restarts + 1) with state := 3 } }).wakePark g
  | none => s

/-! ### The op lane at the pads (R143, R149, Table 4.5) -/

/-- One latch cycle, and a burst of bytes, in ns of bus time (R105; SDR by the timing modes of ONFI). -/
def sdrWrite (tm : Nat) : Nat := [100, 45, 35, 30, 25, 20].getD tm 100
def sdrRead (tm : Nat) : Nat := [100, 50, 35, 30, 25, 20].getD tm 100
def State.latchNs (s : State) (n : Nat) : Nat :=
  if s.ddr n then
    let r := rateMT (s.get (PHY_STAT.RATE_NOW (chanQuad n)))
    let t1 := (s.chanOf n).tim.getD 1 0
    (ticksOf r (fld t1 31 24) + ticksOf r (fld t1 23 16)) * 2000 / max r 1
  else sdrWrite (fld (s.chanOf n).mode 29 27)
def State.burstNs (s : State) (n len : Nat) (out : Bool) : Nat :=
  if s.ddr n then len * 1000 / max (rateMT (s.get (PHY_STAT.RATE_NOW (chanQuad n)))) 1 else len * (if out then sdrRead else sdrWrite) (fld (s.chanOf n).mode 29 27)

/-- Bus time of a routine's cycles goes to its tenant's virtual time and, in band 0, to its allowance (R357, R359). -/
def State.charge (s : State) (n g ns : Nat) : State :=
  match s.runOf n g with
  | none => s
  | some c =>
    if c.op.isEngine then s
    else
      let t := c.op.tenant
      let w := s.weight t
      let band0 := s.bandOf c.op == 0
      let b := s.bandTenant c.op
      s.modChan n fun x => { x with vt := if w = 0 then x.vt else tabMod (fun _ => 0) x.vt t (fun v => v + ns * 256 / w), d0 := if band0 then tabMod (fun _ => 0) x.d0 b (fun v => v + ns) else x.d0 }

/-- Staging that a data output needs, in bytes, which are its length (R23). -/
def State.stageSize (s : State) (o : Op) : Nat :=
  let g := o.loc.lun
  match o.role with
  | .raw => (o.tag.map (fun t => shapeLen (s.tagOf t).desc)).getD 0
  | .routine => (o.tag.map (fun t => shapeLen (s.tagOf t).desc)).getD 0
  | .tally _ => 64 * 15
  | _ => s.cwBytes g

/-- Bytes that a data burst of a lane entry carries. -/
def State.laneLen (s : State) (n : Nat) (e : Lane) : Nat :=
  if e.xfer = 1 then e.len else if e.xfer = 2 then 64
  else if e.op == .din then e.len
  else match s.runOf n e.lun with
    | some c => s.stageSize c.op
    | none => ((s.stageOf n e.handle).map (·.size)).getD 0

/-- Bus time of an entry. -/
def State.laneNs (s : State) (n : Nat) (e : Lane) : Nat :=
  match e.op with
  | .cmd => s.latchNs n
  | .addr => e.addr.length * s.latchNs n
  | .status => (1 + e.addr.length) * s.latchNs n + s.burstNs n 1 true
  | .din => s.burstNs n (s.laneLen n e) false
  | .dout => s.burstNs n (s.laneLen n e) true
  | .trnRd => s.burstNs n 64 true
  | .trnWr => s.burstNs n 64 false
  | _ => 0

/-- Passing the commit point (R149). -/
def State.commit (s : State) (n g : Nat) : State :=
  match s.runOf n g with
  | none => s
  | some c =>
    let o := c.op
    let s := s.modRun n g fun c => { c with committed := true }
    let s := s.modLun g fun l => { l with committed := true, confirm := if o.isEngine then l.confirm else s.time32, ran := 0, since := s.us, cur := if o.isEngine then l.cur else o, op := if o.isEngine then l.op else o.kindCode }
    match o.owner with
    | some t => if s.ownOp t o then s.modTag t fun x => { x with committed := true } else s
    | none => s

/-- A confirm that TWB follows has left the LUN busy. RESUME's ends the suspension and restarts the count of SINCE (R363); a sense in a
suspension keeps its time apart, and the engine's other routines leave the time of the operation's own confirm. -/
def State.confirmed (s : State) (n g : Nat) : State :=
  let role := (s.runOf n g).map (·.op.role)
  let engine := ((s.runOf n g).map (·.op.isEngine)).getD false
  s.modLun g fun l =>
    if role == some .resume then { l with suspended := false, suspErase := none, since := s.us, busy := true }
    else { l with busy := true, stuck := false, asideAt := if l.suspended && !engine then s.us else l.asideAt, since := if l.suspended || engine then l.since else s.us, confirm := if role == some .resetLun || !(l.suspended || engine) then s.time32 else l.confirm }

/-- The front entry of a channel's lane completes at the pads. -/
def State.lanePop (s : State) (n : Nat) (e : Lane) : State :=
  let s := (s.charge n e.lun (s.laneNs n e)).modChan n fun x => { x with lane := x.lane.tail }
  let s := if e.op == .din || e.op == .dout then s.zqBoundary n else s
  let s := if e.tsel = 1 then s.confirmed n e.lun else s
  if e.commit then s.commit n e.lun else s

/-- The entry at the front of the lane, while the pads take its cycles. -/
def State.laneFront (s : State) (n : Nat) (b : BusOp) : Option Lane :=
  if s.padsHeld n then none
  else match (s.chanOf n).lane with
  | e :: _ => if e.op == b then some e else none
  | [] => none

def State.setPads (s : State) (n : Nat) (f : Pads → Pads) : State := s.modChan n fun x => { x with pads := f x.pads }

def State.laneCeOn (s : State) (n : Nat) : State :=
  match s.laneFront n .ceOn with
  | none => s
  | some e =>
    let s := if modeCe (s.chanOf n).mode e.tgt then s.setPads n fun p => { p with ceN := putBit p.ceN e.tgt false } else s
    (s.modChan n fun x => { x with tgt := some e.tgt, tgtBy := e.lun }).lanePop n e

def State.laneCeOff (s : State) (n : Nat) : State :=
  match s.laneFront n .ceOff with
  | none => s
  | some e => ((s.setPads n fun p => { p with ceN := 0xFF }).modChan n fun x => { x with tgt := none }).lanePop n e

/-- Latch cycles leave the last byte on DQ, CLE and ALE low and WE_N high. -/
def State.laneCmd (s : State) (n : Nat) : State :=
  match s.laneFront n .cmd with
  | none => s
  | some e =>
    let s := match ((s.runOf n e.lun).map (·.op)).bind (·.readId) with
      | some i => s.modRead i fun r => { r with issued := true }
      | none => s
    (s.setPads n fun p => { p with dq := e.cmd }).lanePop n e

def State.laneAddr (s : State) (n : Nat) : State :=
  match s.laneFront n .addr with
  | none => s
  | some e => (s.setPads n fun p => { p with dq := e.addr.getLastD p.dq }).lanePop n e

/-- Byte i of the training pattern: INVERT applies to alternate bytes (Table 3.18). -/
def State.trnByte (s : State) (n i : Nat) : Byte :=
  let p := BitVec.ofNat 8 (s.get (CH_TRAIN_CTRL.PATTERN n))
  if i % 2 = 1 then p ^^^ BitVec.ofNat 8 (s.get (CH_TRAIN_CTRL.INVERT n)) else p
def State.trnBytes (s : State) (n : Nat) : List Byte := (List.range 64).map (s.trnByte n)

def State.laneDin (s : State) (n : Nat) : State :=
  match s.laneFront n .din with
  | none => s
  | some e =>
    let data := if e.xfer = 1 then e.imm else if e.xfer = 2 then s.trnBytes n else ((s.runOf n e.lun).map (fun c => c.op.data.flatten)).getD []
    (s.setPads n fun p => { p with dq := data.getLastD p.dq }).lanePop n e

/-- Keystream seed of what an operation transfers, and whether its parity is unscrambled with it (R241, R282, R317). -/
def State.stageWord (s : State) (o : Op) (raw : List Byte) : List Byte :=
  let g := o.loc.lun
  let plane := (planeList o.loc.planes).headD 0
  match o.readId.bind s.readOf with
  | none => raw
  | some r =>
    let parity := (match r.owner with | .tag _ => false | _ => true) && ((s.memberOf g o.loc.eb).map (fun m => s.parityPage m.1 o.loc.page m.2)).getD false
    let sd := seedOf g o.loc.eb o.loc.page plane o.cw
    if r.raw then (if r.scrambled then raw else xorBytes (raw.take infoBytes) (keystream infoBytes sd) ++ raw.drop infoBytes)
    else if parity then raw else unscramble (s.ldpcM g) (some sd) raw

/-- A burst has come in without a fault. DESIGN CHOICE (log 78): after v15 comes v0. -/
def State.doutOk (s : State) (n : Nat) (e : Lane) (data : List Byte) : State :=
  let s := s.modChan n fun x => { x with repeated := false, xferFault := false, burst := x.burst || (s.ddr n && s.on (CH_MODE_STAT.TRAINED n)) }
  let s := if h : n < 32 then s.updChanRec (⟨n, h⟩ : Fin 32).val else s
  let s :=
    if e.xfer = 1 then
      let lo := BitVec.ofNat 32 (leNat (data.take 4))
      let hi := BitVec.ofNat 32 (leNat ((data.drop 4).take 4))
      s.modRun n e.lun fun c => { c with v := if e.len ≤ 4 then c.v.set e.dest lo else (c.v.set e.dest lo).set ((e.dest + 1) % 16) hi }
    else if e.xfer = 2 then s.modChan n fun x => { x with cmpPass := decide (data = s.trnBytes n) }
    else match s.runOf n e.lun with
      | none => s
      | some c =>
        let w := s.stageWord c.op data
        let z := zeroBits data
        { s with jobSeq := s.jobSeq + 1 }.modChan n fun x => { x with staging := x.staging.map (fun (g : Stage) => if g.handle = e.handle then
          { g with bytes := w, zeros := if c.op.isSoft && !g.soft.isEmpty then min g.zeros z else z, soft := g.soft ++ [w], order := s.jobSeq } else g) }
  s.lanePop n e

/-- DOUT: the first PHY fault of a transfer has the burst repeated, whose cycles count too (R357), the second is EV_PHY_FAULT (R125). -/
def State.laneDout (s : State) (n : Nat) (b : ReadBurst) : State :=
  match s.laneFront n .dout with
  | none => s
  | some e =>
    if b.edgesOk && b.data.length = s.laneLen n e then s.doutOk n e b.data
    else if !(s.chanOf n).repeated then
      ((s.charge n e.lun (s.laneNs n e)).modChan n fun x => { x with repeated := true, burst := x.burst || (s.ddr n && s.on (CH_MODE_STAT.TRAINED n)) }).updChanRec n
    else
      let tag := ((s.runOf n e.lun).bind (fun c => c.op.tag)).getD 0xFFF
      let s := if h : n < 32 then s.fault (.chan ⟨n, h⟩) 4 1 (e.lun + tag * 2 ^ 10) else s
      let s := (s.evPhyFault n e.lun tag 3 0).bump (CH_DRIFT_STAT.PHYF n) 1
      let s := if s.get (CH_DRIFT_STAT.PHYF n) = 3 then s.retrain n 8 else s
      let s := (s.modChan n fun x => { x with repeated := false, xferFault := true }).updChanRec n
      s.lanePop n e

/-- Consecutive polls that find every declared LUN of a target ready while its RB_N reads busy (R127). -/
def State.pollStuck (s : State) (n g : Nat) : State :=
  let t := lunTarget g
  if !s.rbHonoured n t then s
  else if s.on (rbDeb n t) || (targetLuns n t).any (fun h => s.declared h && (s.lunOf h).busy) then s.modChan n fun x => { x with readyPolls := tabPut (fun _ => 0) x.readyPolls t 0 }
  else
    let k := tabGet (fun _ => 0) (s.chanOf n).readyPolls t + 1
    let s := s.modChan n fun x => { x with readyPolls := tabPut (fun _ => 0) x.readyPolls t (if k ≥ 3 then 0 else k) }
    if k ≥ 3 then (if h : n < 32 then s.rbFault ⟨n, h⟩ t 1 else s) else s

/-- STATUS: the status latch, and the LUN's busy flag when bit 6 says ready (R146). -/
def State.laneStatus (s : State) (n : Nat) (st : Byte) : State :=
  match s.laneFront n .status with
  | none => s
  | some e =>
    let s := (s.setPads n fun p => { p with dq := e.addr.getLastD e.cmd }).modChan n fun x => { x with stat := st }
    let s := s.lanePop n e
    if bit st 6 then (s.modLun e.lun fun l => { l with busy := false, stuck := false }).pollStuck n e.lun
    else s.modChan n fun x => { x with readyPolls := tabPut (fun _ => 0) x.readyPolls (lunTarget e.lun) 0 }

def State.laneTrnRd (s : State) (n : Nat) (data : List Byte) : State :=
  match s.laneFront n .trnRd with
  | none => s
  | some e => (s.modChan n fun x => { x with cmpPass := decide (data = s.trnBytes n) }).lanePop n e

def State.laneTrnWr (s : State) (n : Nat) : State :=
  match s.laneFront n .trnWr with
  | none => s
  | some e => (s.setPads n fun p => { p with dq := s.trnByte n 63 }).lanePop n e

/-- Bytes of a channel's staging that transfers may reserve: 256 KiB, less the record region of R325 while a declared LUN of the
channel has a two-pass die kind. -/
def State.stageRoom (s : State) (n : Nat) : Nat :=
  if (chanLuns n).any (fun g => s.declared g && s.twoPass g) then 249856 else 262144
/-- Bytes of the page whose routine is on its way to its confirm. DESIGN CHOICE (log 84): a program's page takes room in staging from the
start of its routine to the confirm. -/
def State.pageStaged (s : State) (n : Nat) : Nat :=
  let here := fun (c : Ctx) => if c.committed then 0 else c.op.pageBytes
  (if (s.ctxOf n).state = 0 then 0 else here (s.ctxOf n)) + ((chanLuns n).map (fun g => ((s.lunOf g).park.map here).getD 0)).sum
/-- Bytes of it in use. -/
def State.stageUsed (s : State) (n : Nat) : Nat := ((s.chanOf n).staging.map (·.size)).sum + s.pageStaged n
/-- The page of an operation finds room in staging; one larger than all of it needs it empty (log 84). -/
def State.pageFits (s : State) (o : Op) : Bool :=
  let n := lunChan o.loc.lun
  o.pageBytes == 0 || s.stageUsed n == 0 || decide (s.stageUsed n + o.pageBytes ≤ s.stageRoom n)

/-- A decode job reads the staging copy with this handle. -/
def State.jobOn (s : State) (n h : Nat) : Bool :=
  let p := fun (j : Job) => j.ch == n && j.handle == h
  s.jobs.any p || s.slices.any (fun e => (e.2.job.map p).getD false)

/-- A code word that is transferred again gives up its earlier copies that no job reads (log 84). -/
def State.dropSpent (s : State) (n : Nat) (o : Op) (h : Nat) : State :=
  let spent := fun (g : Stage) => o.readId.isSome && g.read == o.readId && g.cw == o.cw && g.handle != h && !g.done && !s.jobOn n g.handle
  if (s.chanOf n).staging.any spent then s.modChan n fun x => { x with staging := x.staging.filter (fun g => !spent g) } else s


/-- R23's reservation holds, once the whole code word has room: the waiting DOUT enters the lane. A soft read reserves one for each sense. -/
def State.reserve (s : State) (n : Nat) : State :=
  let c := s.ctxOf n
  let s := match c.doutWait with | some e => s.dropSpent n c.op e.handle | none => s
  match c.doutWait with
  | none => s
  | some e =>
    if c.state = 0 || (s.chanOf n).lane.length ≥ 16 || decide (s.stageRoom n < s.stageUsed n + s.stageSize c.op) then s
    else
      let o := c.op
      let new : Stage := { handle := e.handle, tag := o.tag, loc := o.loc, cw := o.cw, size := s.stageSize o, read := o.readId }
      let s := s.modChan n fun x => { x with staging := if x.staging.any (fun g => g.handle == e.handle) then x.staging.map (fun g => if g.handle = e.handle then { g with size := g.size + new.size } else g) else x.staging ++ [new], lane := x.lane ++ [e] }
      s.modCtx n fun c => { c with doutWait := none, issued := true }

/-! ### One micro-word (R138 to R148) -/

/-- LDL words (Table 5.7). DESIGN CHOICE (log 79): word 5's resume window is HOLD_MAX less the time suspended so far; word 6 reads 0 as
the next record while the window is full or not established. While a LUN is suspended, words 0 to 3 are the suspended operation's. -/
def State.lunWord (s : State) (g w : Nat) : Word32 :=
  let l := s.lunOf g
  match w with
  | 0 => BitVec.ofNat 32 (l.busy.toNat * 2 ^ 31 + l.suspended.toNat * 2 ^ 30 + (s.isFenced g).toNat * 2 ^ 29 + l.committed.toNat * 2 ^ 28 + l.op * 2 ^ 24 + min l.suspCount 255 * 2 ^ 16 + l.tag % 4096)
  | 1 => BitVec.ofNat 32 (l.eb * 2 ^ 20 + l.page % 4096)
  | 2 => l.row
  | 3 => l.confirm
  | 4 => BitVec.ofNat 32 (match l.horizon with | some (e, h) => e * 2 ^ 20 + 2 ^ 13 + h | none => 0)
  | 5 => BitVec.ofNat 32 (match l.suspErase with | some (e, t) => e * 2 ^ 20 + 2 ^ 19 + (s.get BRD_SUSP.HOLD_MAX - (s.us - t)) % 65536 | none => 0)
  | 6 => BitVec.ofNat 32 (((s.tallyPlace g).map (fun p => recIndex l.tally.gen { page := p.1, slot := p.2 })).getD 0 % 65536 * 65536 + l.tally.w0.getD l.tally.w1)
  | _ => BitVec.ofNat 32 (s.band g * 256 + s.kind g)

/-- The register operation of a word (Table 4.6). -/
def State.aluOp (s : State) (n : Nat) (c : Ctx) (mw : Nat) (w : Nano) : Ctx :=
  let d := opRd mw w
  let a := nwRs w
  let imm := BitVec.ofNat 32 (opImm mw w)
  match nwAlu w with
  | 1 => c.mov d imm
  | 2 => c.movr d a
  | 3 => c.add d a imm
  | 4 => c.sub d a imm
  | 5 => c.and d a imm
  | 6 => c.or d a imm
  | 7 => c.shr d a imm
  | 8 => c.shl d a imm
  | 9 => c.dec d
  | 0xA => c.load d (BitVec.ofNat 32 (ldkField s.force c.kind (imm.toNat % 256)))
  | 0xB => c.load d (BitVec.ofNat 32 (ldxWord s.force c.kind ((c.reg 4).toNat % 256) ((c.reg a).toNat % 4)))
  | 0xC => c.load d ((s.chanOf n).stat.setWidth 32)
  | 0xD => c.cmp a imm
  | 0xE => c.load d (s.lunWord c.lun (imm.toNat % 8))
  | _ => c

/-- Conditions (Table 4.8). -/
def State.cond (s : State) (n : Nat) (c : Ctx) (k : Nat) : Bool :=
  let x := s.chanOf n
  if 8 ≤ k && k ≤ 15 then bit x.stat (k - 8)
  else match k with
    | 1 => true
    | 2 => c.z
    | 3 => c.n
    | 4 => c.c
    | 16 => !c.timerOn
    | 17 => c.abortReq
    | 18 => c.suspReq
    | 19 => c.cancelReq
    | 20 => s.rbHonoured n c.target && s.on (rbDeb n c.target)
    | 21 => x.xferFault
    | 22 => x.cmpPass
    | 23 => s.geo (GEO_DK_CTRL.SCHEME c.kind) == 1
    | 24 => s.geo (GEO_DK_CTRL.SUSP c.kind) == 1
    | 25 => (c.reg 15).getLsbD 0
    | 26 => (s.lunOf c.lun).limitHit
    | 27 => fld (c.reg 0) 31 24 != 0
    | _ => false

/-- The op-lane entry of a word's bus action; its registers are read before the register operation writes (R140). -/
def Ctx.laneEntry (c : Ctx) (mw : Nat) (w : Nano) : Option Lane :=
  let k := opAddrReg mw w
  let e : Lane := { tgt := c.target, cmd := if nwCmdReg w then (c.reg k).setWidth 8 else BitVec.ofNat 8 (nwCmd w), addr := addrBytes c.v (nwAddrFmt w) k (nwAddrN w), xfer := nwXfer w, dest := k, len := if nwXfer w = 1 then nwXlen w else (c.reg 6).toNat, imm := if nwXfer w = 1 then pairBytes c.v k (nwXlen w) else [], handle := (c.reg 7).toNat, tsel := nwTsel w, commit := mwCommit mw, lun := c.lun }
  match nwBusop w with
  | 1 => some { e with op := .ceOn }
  | 2 => some { e with op := .ceOff }
  | 3 => some { e with op := .cmd }
  | 4 => some { e with op := .addr }
  | 5 => some { e with op := .din }
  | 6 => some { e with op := .dout }
  | 7 => some { e with op := .status }
  | 8 => some { e with op := .trnRd }
  | 9 => some { e with op := .trnWr }
  | _ => none

/-- The target that will be selected once the lane has drained. -/
def Chan.selected (x : Chan) : Option Nat :=
  x.lane.foldl (fun t e => if e.op == .ceOn then some e.tgt else if e.op == .ceOff then none else t) x.tgt

/-- At the end of a SAFE word a pending request gives way (R148); none on a full return stack. -/
def Ctx.proceed (c : Ctx) (safe : Bool) (next : Nat) : Option Ctx :=
  if safe && c.pending && !c.giveWay then
    (if c.stack.length ≥ 4 then none else some { c with stack := next :: c.stack, pc := c.entry + 1, giveWay := true })
  else some { c with pc := next }

/-- Where a branch goes (Table 4.4). -/
def State.branchTo (s : State) (n : Nat) (c : Ctx) (w : Nano) : Nat :=
  nwTarget w + ((List.range 4).map fun i => (s.cond n c (nwCsel w i)).toNat * 2 ^ i).sum

/-- A context parks in the slot of the LUN in v1 (R144). DESIGN CHOICE (log 78): a timer that expired before the YIELD does not wake
it; it sleeps until an RB_N edge or a request. -/
def State.parkCtx (s : State) (n target : Nat) (safe : Bool) : State :=
  let c := s.ctxOf n
  let g := c.lunNow n
  let p : Ctx := { c with pc := target, words := 0, safeYield := safe, issued := false, laneWait := false, lun := g, state := 3 }
  (s.modCtx n fun _ => {}).modLun g fun l => { l with park := some p, woken := none }

/-- The part of a word after its bus action has entered the lane. DESIGN CHOICE (log 78): a SAFE YIELD that gives way does not restart
the count of fault 0x06; one that parks does. -/
def State.wordRest (s : State) (n mw : Nat) (w : Nano) (patch : Bool) : State :=
  let c := s.aluOp n (s.ctxOf n) mw w
  let c := { c with state := 2, issued := false, laneWait := false, words := c.words + 1 }
  let next := s.branchTo n c w
  let c := if nwTimop w = 1 then c.setTimer (nwTim16 w) (nwTunit w) else if nwTimop w = 2 then c.setTimer ((c.reg (nwRs w)).toNat % 65536) (nwTunit w) else c
  let c := c.ack (nwReqack w)
  let safe := mwSafe mw
  let here := c.pc
  let s := s.modCtx n fun _ => c
  let go := fun (c : Ctx) (a : Nat) => match c.proceed safe a with
    | some c => s.modCtx n fun _ => c
    | none => s.chanterFault n ⟨5, patch, 0⟩
  match mwSeq mw with
  | 0 => go c (here + 1)
  | 1 => go c (nwTarget w)
  | 2 => go c next
  | 3 => go { c with stack := (here + 1) :: c.stack } (nwTarget w)
  | 4 => s.modCtx n fun _ => { c with stack := c.stack.tail, pc := c.stack.headD 0, giveWay := false }
  | 5 => if safe && c.pending && !c.giveWay then go c (nwTarget w) else s.parkCtx n (nwTarget w) safe
  | 6 => s.routineEnd n (mwArg mw)
  | _ => s

/-- The context of channel n is ready: its lane has room, and its word waits neither for the lane nor for staging (R27, R143). -/
def State.ctxReady (s : State) (n : Nat) : Bool :=
  let c := s.ctxOf n
  c.state != 0 && c.doutWait.isNone && decide ((s.chanOf n).lane.length < 16) && !(c.laneWait && !(s.chanOf n).lane.isEmpty)
/-- STATE of `Qq_CHT_CTXc` (Table 4.14): between commands no micro-word is executing. -/
def State.ctxState (s : State) (n : Nat) : Nat := if (s.ctxOf n).state = 0 then 0 else if s.ctxReady n then 2 else 3

/-- The context of channel n is ready, its Chanter serves it, and its pads are not in the safe state. -/
def State.canRun (s : State) (n : Nat) : Bool :=
  s.ctxReady n && !(s.quadOf (chanQuad n)).takeover && !s.halted
    && s.usable (pdQ (chanQuad n)) && decide ((s.ctxOf n).words < 4096) && !s.on (CH_MODE_STAT.SAFE n)

/-- The turn of the quad's contexts is at channel n: the first ready one after the last that took a turn (R27). -/
def State.hasTurn (s : State) (n : Nat) : Bool :=
  let q := chanQuad n
  (((List.range 4).map (fun i => 4 * q + ((s.quadOf q).turn + 1 + i) % 4)).find? s.canRun) == some n

/-- A micro-word of channel n may execute now. -/
def State.mayRun (s : State) (n : Nat) : Bool := s.canRun n && s.hasTurn n

/-- A word of channel n takes its turn; corrected reads of its fetch are counted once (R137). -/
def State.takeTurn (s : State) (n corr : Nat) : State :=
  let c := s.ctxOf n
  let s := s.modQuad (chanQuad n) fun x => { x with turn := n % 4 }
  if c.issued || c.laneWait then s else s.bump (CHT_CNT.CORR (chanQuad n)) corr

/-- What the fetch of a context's word gives; one that waits was fetched when its turn began. -/
def State.fetchWord (s : State) (n : Nat) (err : FetchErr) : Fetched :=
  let c := s.ctxOf n
  (s.patBank c.bank).fetch c.pc (if c.issued || c.laneWait then .clean else err)

/-- An uncorrectable read in a small store of channel n (Table 13.8): before the commit point the routine restarts, else, or in the per-LUN
state, its LUN is fenced with code 0x06. DESIGN CHOICE (log 86): EV_LUN_FAULT carries code 2, and the context no row. -/
def State.smallBad (s : State) (n : Nat) (x : SmallStore) : State :=
  let c := s.ctxOf n
  let tag := c.op.tag.getD 0xFFF
  if x == .slot && !c.committed then s.runFaulted n
  else
    let s := (s.fenceLun c.lun).evLunFault n c.lun tag 2
    if h : n < 32 then s.fault (.chan ⟨n, h⟩) 6 2 (tag * 2 ^ 12 + if x = .lunState then 2 ^ 24 else 0) else s

/-- The word at a context's address executes, when its SEQ is the one given. -/
def State.runWord (s : State) (n seq : Nat) (err : FetchErr) : State :=
  if !s.mayRun n then s
  else match err.small with
  | some x => s.smallBad n x
  | none =>
    let c := s.ctxOf n
    let f := s.fetchWord n err
    match f.bad with
    | some b => (s.takeTurn n f.corr).chanterFault n b
    | none =>
      if mwSeq f.mw != seq then s
      else
        let s := s.takeTurn n f.corr
        if seq == seqCall && c.stack.length ≥ 4 || seq == seqRet && c.stack.isEmpty then s.chanterFault n ⟨5, f.patch, 0⟩
        else
          let entry := c.laneEntry f.mw f.nano
          let wait := waitsLane f.mw f.nano
          match entry, c.issued with
          | some e, false =>
            if busNeedsTarget (nwBusop f.nano) && (s.chanOf n).selected.isNone then s.chanterFault n ⟨7, f.patch, 0⟩
            else if e.op == .dout && e.xfer == 0 && (c.op.isSoft || !(s.chanOf n).staging.any (fun g => g.handle == e.handle)) then
              s.modCtx n fun c => { c with state := 3, doutWait := some e, laneWait := wait }
            else
              let s := s.modChan n fun x => { x with lane := x.lane ++ [e] }
              if wait then s.modCtx n fun c => { c with state := 3, issued := true, laneWait := true } else s.wordRest n f.mw f.nano f.patch
          | _, _ =>
            if wait && !(s.chanOf n).lane.isEmpty then s.modCtx n fun c => { c with state := 3, laneWait := true }
            else s.wordRest n f.mw f.nano f.patch

/-- A micro address lies in patch RAM once redirected. -/
def State.pcPatch (s : State) (n : Nat) : Bool :=
  (((s.patBank (s.ctxOf n).bank).fetchAt false 0x2000 0x400 (s.ctxOf n).pc).map (fun b => decide (0x2000 ≤ b))).getD false

/-- Fault 0x06: 4,096 words without YIELD or END. -/
def State.runLimit (s : State) (n : Nat) : State :=
  if (s.ctxOf n).state != 0 && (s.ctxOf n).words ≥ 4096 then s.chanterFault n ⟨6, s.pcPatch n, 0⟩ else s

/-- Fault 0x08: the unparked run of an attempt has lasted WDOG µs. -/
def State.watchdog (s : State) (n : Nat) : State :=
  if (s.ctxOf n).state != 0 then s.chanterFault n ⟨8, s.pcPatch n, 0⟩ else s

/-! ### Parks and wakes (R144, R145) -/

/-- The timer of the routine on LUN g expires. -/
def State.timerExpire (s : State) (g : Nat) : State :=
  let n := lunChan g
  let c := s.ctxOf n
  if c.state != 0 && c.lun == g && c.timerOn then s.modCtx n fun c => { c with timerOn := false }
  else match (s.lunOf g).park with
    | some p => if p.timerOn then (s.modLun g fun l => { l with park := some { p with timerOn := false } }).wakePark g else s
    | none => s

/-- The LUN of a channel whose routine woke first. -/
def State.firstWoken (s : State) (n : Nat) : Option Nat :=
  ((chanLuns n).filter (fun g => !s.trainHolds g)).foldl (fun b g => match (s.lunOf g).woken, b with
    | some w, some h => if w < ((s.lunOf h).woken.getD 0) then some g else b
    | some _, none => some g
    | none, _ => b) none

/-- A woken routine takes the free context (R145); one that a request woke from a SAFE YIELD gives way first, and its RET goes to
TARGET (R148). -/
def State.unpark (s : State) (n : Nat) : State :=
  if (s.ctxOf n).state != 0 || (s.quadOf (chanQuad n)).takeover || s.halted || s.deadChan n || s.on (CH_MODE_STAT.SAFE n) then s
  else match s.firstWoken n with
    | none => s
    | some g => match (s.lunOf g).park with
      | none => s
      | some c =>
        let s := (s.modLun g fun l => { l with park := none, woken := none }).modCtx n fun _ => { c with state := 2, safeYield := false }
        match c.proceed c.safeYield c.pc with
        | some c => s.modCtx n fun _ => { c with state := 2, safeYield := false }
        | none => s.chanterFault n ⟨5, s.pcPatch n, 0⟩

/-! ### Patch activation (R161 to R164) -/

/-- An idle boundary: no context of the Chanter executes a micro-word (R161). -/
def State.chanterIdle (s : State) (k : Nat) : Bool :=
  (s.chanterQuads k).all fun q => (quadChans q).all fun n => s.ctxState n != 2

def chanterDomain (k : Nat) : Nat := if k = 8 then pdSpc else pdQ k

/-- Chanter k switches banks; the last one completes the activation. -/
def State.bankSwitch (s : State) (k : Nat) : State :=
  if !s.pendingOf k then s
  else
    let w := s.reg PAT_QUAD_PATCH_STATE.adr
    (s.setReg PAT_QUAD_PATCH_STATE.adr (putBit (putBit w (3 * k) (!s.bankOf k)) (3 * k + 1) false)).patDone

/-- ACTIVATE: Chanters whose domain is off switch at once (R161); ignored while an activation is pending (R163). -/
def State.patActivate (s : State) : State :=
  if s.on PAT_STAT.ACT_PENDING then s
  else
    let s := (s.put PAT_STAT.ACT_PENDING 1).setReg PAT_QUAD_PATCH_STATE.adr (s.reg PAT_QUAD_PATCH_STATE.adr ||| 0x2492492#32)
    s.each ((List.range 9).filter (fun k => !s.powered (chanterDomain k))) State.bankSwitch

/-- Routines of Chanter k that run on the bank that is not in force (OLD_BUSY). -/
def State.oldBusy (s : State) (k : Nat) : Bool :=
  (s.chanterQuads k).any fun q => (quadChans q).any fun n =>
    ((s.ctxOf n).state != 0 && (s.ctxOf n).bank != s.bankOf k) || (chanLuns n).any (fun g => match (s.lunOf g).park with | some c => c.bank != s.bankOf k | none => false)

/-- The pending bank takes writes (R163). -/
def State.patWritable (s : State) : Bool := !s.on PAT_STAT.ACT_PENDING && !(List.range 9).any s.oldBusy

end Sys2Proof.Machine
end

