-- ==== Sys2Proof/Machine/Offer.lean ====
section
/-! DEFINITION. Bridle's choice of the next routine and its start in a context (R355, R144), with the checks made in that cycle
(R25, R310, R320, R328), and the decision of Table 10.3 on reads of busy LUNs (R360 to R362, R365). -/

namespace Sys2Proof.Machine

/-! ### Kinds of operations -/

/-- A transfer from the page register, whose sense has ended. -/
def Op.isXfer (o : Op) : Bool := o.routine == rtReadXfer || o.routine == rtEraseSample
/-- A sense that Table 10.3 and R362 call a read: of a READ, a COPY's source, or a member read. -/
def State.isBandRead (s : State) (o : Op) : Bool :=
  match o.readId.bind s.readOf with
  | some r => o.isSense && !r.raw && s.bandOf o == 0
  | none => false
def State.isMemberRead (_s : State) (o : Op) : Bool := o.member && o.readId.isSome

/-- An operation that can no longer start (R101, R434). -/
def State.opDead (s : State) (o : Op) : Bool :=
  let n := lunChan o.loc.lun
  !o.isEngine && (s.deadChan n
    || (o.role == .raw && s.on (Q_FLT_CTRL.FENCED (chanQuad n))))

/-- Operations in flight or suspended on a channel. -/
def State.chanWork (s : State) (n : Nat) : Bool :=
  (s.ctxOf n).state != 0 || (chanLuns n).any fun g => (s.lunOf g).park.isSome || (s.lunOf g).suspended || (s.lunOf g).hung.isSome

/-- What is in flight on an untrained channel ends as on a fenced unit; its LUNs are polled once the channel is trained again. -/
def State.chanDead (s : State) (n : Nat) : State :=
  if s.deadChan n && s.chanWork n then (chanLuns n).foldl State.pollAgain (s.chanFenceWork n true) else s

/-- Operations that can no longer start end as on a fenced unit. -/
def State.sweepDead (s : State) : State :=
  let s := s.each (List.range 32) State.chanDead
  let gone := s.ops.filter s.opDead
  if gone.isEmpty then s else gone.foldl (fun s o => s.later (.opEnd o resFenced 0 0)) (s.dropOps s.opDead)

/-! ### Order on an erase block (R269, R323, R329) -/

/-- Of two passes or erases of one block, a starts before b: by page within a stripe and among fine passes that ROUTINE starts (R323), else
in order of intake. -/
def opBefore (a b : Op) : Bool :=
  if a.isRawProg && !a.opens && b.isRawProg && !b.opens then decide (a.loc.page < b.loc.page)
  else if a.stripe.isSome && (a.stripe.map (·.1)) == (b.stripe.map (·.1)) then decide (a.loc.page < b.loc.page) else decide (a.seq < b.seq)

/-- A program of tag u on the block that itself waits for earlier work to end: ORDERED, or behind an ERASE. A pad outside a stripe does not
wait for it (DEDUCED, log 83). -/
def State.waitsBehind (s : State) (u : Nat) : Bool :=
  let x := s.tagOf u
  x.slot.isNone && (x.waitsOrder || s.eraseAhead (dLun x.desc) (dEb x.desc) x.seq)

/-- A program taken in earlier on the block has not formed its page yet, or an ERASE or ROUTINE taken in earlier on it is not queued;
pads, parity and copies, which no descriptor's intake orders, do not wait for such an ERASE (R342 pads for it). -/
def State.earlierTag (s : State) (o : Op) (u : Nat) : Bool :=
  let x := s.tagOf u
  ((o.role == .first || o.role == .erase || o.role == .routine) && o.tag != some u
    && (s.eraseQueued u o.loc.lun o.loc.eb o.seq || s.rawOpen u o.loc.lun o.loc.eb o.seq))
  || (isProgram x.desc && x.phase == 0 && !x.ended && !(o.role == .pad && s.waitsBehind u) && (x.slot.isSome || dOp x.desc == opProgAt) && o.tag != some u
    && (match s.progPlace u with | (g, e, _, _) => g == o.loc.lun && e == o.loc.eb)
    && (match x.slot, o.stripe with
      | some (sid, r, _), some (sid', _, _) => if sid = sid' then decide (r < o.loc.page) else decide (x.seq < o.seq)
      | _, _ => decide (x.seq < o.seq)))

def State.orderOk (s : State) (o : Op) : Bool :=
  let here := fun (p : Op) => p.loc.lun == o.loc.lun && p.loc.eb == o.loc.eb && (p.isFirst || p.isErase || p.isRawProg)
  let behind := fun (p : Op) => o.role == .pad && o.stripe.isNone && (p.role == .first || p.role == .routine) && s.eraseAhead p.loc.lun p.loc.eb p.seq
  !s.ops.any (fun p => here p && p != o && opBefore p o && !behind p) && !s.openTags.any (s.earlierTag o)

/-- Every data slot of a row has been programmed, or takes no page any more (R41, R341). -/
def State.rowFull (s : State) (sid r : Nat) : Bool :=
  let st := s.stripeOf sid
  st.stopped || ((s.rowOf sid r).map (fun x => x.dead || (x.verified &&& dataMask st) == dataMask st)).getD true

/-- A first pass may take its accumulator: held, or free to be taken at the fold (R319, R321). A pad on a parity member follows its row's data
members (R41). -/
def State.accOk (s : State) (o : Op) : Bool :=
  match o.stripe with
  | some (sid, r, m) => if o.role == .pad && decide (m ≥ 32) then s.rowFull sid r else o.folded || (s.stripeOf sid).state == 0 || ((s.rowOf sid r).map (·.noParity)).getD false
      || (match o.role with | .subst _ => true | _ => s.accReady sid r || (decide (m < 32) && (s.accOf sid r).isNone && s.accFree))
  | none => true

/-- A first pass may start but for its accumulator: R323's second rule, the record region of R325, the horizon's hand-over (R329), and its
record buffer. A spare's pages take the places of those of the block they replace, so the records of that block do not count for them. -/
def State.firstOk (s : State) (o : Op) : Bool :=
  let g := o.loc.lun
  let l := s.lunOf g
  let w := o.loc.page / s.ppwl g
  let recs := match o.role with
    | .subst j => l.recs.filter (fun (r : PassRec) => !r.dead && !s.subs.any (fun (x : Sub) => x.id == j && x.lun == g && x.eb == r.eb))
    | _ => l.recs.filter (!·.dead)
  (!s.twoPass g || (decide (recs.length < 8) && !recs.any (fun (r : PassRec) => r.eb == o.loc.eb && decide (r.page / s.ppwl g + 2 ≤ w))
      && (s.barredPage g o.loc.eb).all (fun b => decide (o.loc.page < b))))
    && (match l.horizon with | some (e, _) => e == o.loc.eb || !recs.any (fun r => r.eb == e) | none => true)
    && s.recordReady o

/-! ### When an operation may start (R355) -/

/-- A transfer of a LUN waits for its data in the page register (R23). -/
def State.xferWaits (s : State) (g : Nat) : Bool := s.ops.any (fun o => o.isXfer && o.loc.lun == g)

/-- Per-LUN state permits the operation (R21, R146, R260, R362, R379). -/
def State.lunPermits (s : State) (o : Op) : Bool :=
  let g := o.loc.lun
  let l := s.lunOf g
  let target := targetLuns (lunChan g) (lunTarget g)
  let quiet := fun (h : Nat) => !(s.lunOf h).inFlight && !(s.lunOf h).suspended && (s.lunOf h).park.isNone
  let rawHere := target.any (fun h => ((s.lunOf h).park.map (fun c => c.op.role == Role.raw)).getD false)
  l.park.isNone && !rawHere && !(s.holds (.tally g) && match o.role with | .tally _ => true | _ => false) &&
  match o.role with
  | .raw => target.all quiet && !(target.any s.xferWaits)
  | .resetLun => l.resetting || (!l.busy && !s.xferWaits g)
  | .poll => l.busy && !l.resetting
  | .finish => !l.resetting
  | .resume => l.suspended && !l.busy && !l.resetting && !l.abortDie && (s.on TET_PWRFAIL.LATCH || !s.xferWaits g)
  | _ =>
    !l.busy && !l.resetting &&
    (if o.isXfer then true
    else !l.abortDie && !s.xferWaits g && (!l.suspended || ((s.isBandRead o || s.isMemberRead o) && !l.holdMaxed)))

/-- A later pass of a parity page, of a stripe that has been freed too. -/
def State.laterParity (s : State) (o : Op) : Bool :=
  o.role == .later && !o.isPad && ((o.stripe.map (fun x => decide (x.2.2 ≥ 32))).getD false
    || ((s.recOf o.loc.lun o.loc.eb o.loc.page).map (fun r => !r.kept.isEmpty)).getD false)

/-- Hold-up lets the operation start: polls, FINISH and RESUME, the clearing of an intent record, and with FINISH = 1 later passes but
parity's, and pads (R478, R479). -/
def State.holdupOk (s : State) (o : Op) : Bool :=
  !s.on TET_PWRFAIL.LATCH || (o.isEngine && o.role != .resetLun)
    || (o.isTallyProg && (match (s.tallyOf o.loc.lun).cur with | some (.clear _ _ _) => true | _ => false))
    || (s.on TET_HOLDUP.FINISH && ((o.role == .later && !s.laterParity o) || o.isPad))

/-- A member's passes wait while it is being moved (R339); later passes on the spare are those its copies wait for (R323). -/
def State.memberHeld (s : State) (o : Op) : Bool :=
  match o.stripe, o.role with
  | _, .subst _ => false
  | some (sid, _, m), _ => s.subs.any (fun x => x.kind != 3 && x.stripe == sid && x.member == m && x.lun == o.loc.lun && x.eb == o.loc.eb && decide (x.phase < 6))
  | none, _ => false

/-- Dispatch to a channel is held: by training, an APPLY step, a PLL switch-over (R99, R114, R452). -/
def State.dispatchHeld (s : State) (n : Nat) : Bool :=
  let q := s.quadOf (chanQuad n)
  (s.chanOf n).training != 0 || q.apply != 0 || q.switching

/-- The channel and its quad let the operation start. DEDUCED (log 77): the transfer of a sense made in a suspension goes on while dispatch is
held, as the engine's own routines do, since the suspended operation could not end without it (R99, R114, R362). -/
def State.chanPermits (s : State) (o : Op) : Bool :=
  let n := lunChan o.loc.lun
  let q := s.quadOf (chanQuad n)
  let cut := s.trainHolds o.loc.lun || decide (q.apply ≥ 3) || s.deadChan n
  !s.on (CH_MODE_STAT.SAFE n) && (if o.isEngine || (o.isXfer && (s.lunOf o.loc.lun).suspended) then !cut else !s.dispatchHeld n) && (!s.freset.busy || o.isEngine)

/-- An erase that ROUTINE starts waits for the passes still owed to programs of its block taken in earlier (R269, R261). -/
def State.rawEraseWaits (s : State) (o : Op) : Bool :=
  o.role == .routine && (s.lunOf o.loc.lun).recs.any (fun r => r.eb == o.loc.eb && !r.dead && match r.order with
    | some q => decide (q < o.seq)
    | none => false)

/-- Everything that R355 asks of an operation but a first pass's accumulator. A full CQ holds no pass that carries on a program, whose tag
it waits for or not (R224). -/
def State.mayStartBut (s : State) (o : Op) : Bool :=
  let g := o.loc.lun
  s.lunPermits o && s.chanPermits o && !s.opDead o && s.holdupOk o && !s.memberHeld o && s.pageFits o
    && !(o.stripe.map (fun x => s.holds (.stripe x.1))).getD false
    && (match o.owner with | some t => o.isEngine || o.role == .later || (s.tagOf t).begun || !s.cqFull (s.tagOf t).cq | none => true)
    && !(o.isWrite && s.declared g && s.on (GEO_TEMP.HOLD (s.group g)))
    && (if o.opens then s.orderOk o && (s.firstBarred o || s.firstOk o)
      else if o.isRawProg then s.orderOk o && s.fineMay g o.loc.eb o.loc.page && !(s.lunOf g).recs.any (fun r => r.eb == o.loc.eb && decide (r.page < o.loc.page))
      else if o.isErase then s.orderOk o && !s.rawEraseWaits o else true)
def State.mayStart (s : State) (o : Op) : Bool := s.mayStartBut o && (!o.isFirst || s.accOk o)

/-- The channel's context can take a routine (R145, R162, R450). -/
def State.ctxOpen (s : State) (n : Nat) : Bool :=
  let q := chanQuad n
  (s.ctxOf n).state == 0 && (s.firstWoken n).isNone && s.usable (pdQ q) && s.usable (pdP q) && decide (s.qstate q ≤ 1)
    && !(s.quadOf q).takeover && !s.pendingOf (s.chanterOf q) && !s.halted && !s.inStartup && s.block != blockDeep

/-! ### Reads that find their LUN busy (R360, R361, R365) -/

/-- FIRST of the operation running on a LUN. -/
def State.firstTime (s : State) (g : Nat) (o : Op) : Nat :=
  if o.isErase then s.geo (GEO_DK_TERASE.T_EFIRST (s.kind g)) else s.geo (GEO_DK_TPROG.T_PFIRST (s.kind g))
def State.suspBudget (s : State) (g : Nat) (o : Op) : Nat :=
  if o.isErase then s.geo (GEO_DK_SUSP.SUSP_ERASE (s.kind g)) else s.geo (GEO_DK_SUSP.SUSP_PROG (s.kind g))

/-- A committed program pass or erase runs on the LUN. -/
def State.passRuns (s : State) (g : Nat) : Bool :=
  let l := s.lunOf g
  l.committed && !l.suspended && !l.resetting && (l.cur.isProg || l.cur.isErase)

/-- Orders 2 and 3 of Table 10.3 but for SINCE. -/
def State.maySuspend (s : State) (g : Nat) : Bool :=
  let l := s.lunOf g
  s.passRuns g && s.on BRD_CTRL.SUSP_EN && s.geo (GEO_DK_CTRL.SUSP (s.kind g)) == 1 && decide (l.suspCount < s.suspBudget g l.cur)
    && !s.on TET_PWRFAIL.LATCH

/-- The suspend request reaches the LUN's routine. -/
def State.suspend (s : State) (g : Nat) : State :=
  let n := lunChan g
  let c := s.ctxOf n
  if c.state != 0 && c.lun == g then s.modCtx n (fun c => c.request 1) else s.requestPark g 1

/-- The first band-0 read that waits for a LUN. -/
def State.nextRead (s : State) (g : Nat) : Option Op := s.firstOp (s.ops.filter (fun o => o.loc.lun == g && s.isBandRead o))

/-- Reconstruct-around for the tag of a read, once (R365, moment 1). -/
def State.lookAround (s : State) (o : Op) : State :=
  match o.readId.bind s.readOf with
  | some r => match r.owner with
    | .tag t =>
      if r.looked then s
      else
        { s with reads := s.reads.map (fun (x : PRead) => if x.owner == Owner.tag t then { x with looked := true } else x) }.goAround t
    | _ => s
  | none => s

/-- Table 10.3 for a LUN. -/
def State.suspendDecision (s : State) (g : Nat) : State :=
  match s.nextRead g with
  | none => s
  | some o =>
    let l := s.lunOf g
    if (s.chanOf (lunChan g)).training != 0 then (if o.member then s else s.lookAround o)
    else if !s.passRuns g then s
    else if s.firstTime g l.cur ≤ s.runTime g + s.get BRD_CTRL.WAIT_MAX then s
    else
      let since := s.us - l.since
      let min := s.geo (GEO_DK_SUSP.RESUME_MIN (s.kind g))
      if s.maySuspend g && decide (min ≤ since) then s.suspend g
      else if s.maySuspend g && decide (min - since ≤ s.get BRD_CTRL.WAIT_MAX) then s
      else if o.member then s else s.lookAround o

/-- RESUME_MIN has passed for a LUN whose read waited for it (order 3). -/
def State.resumeMin (s : State) (g : Nat) : State :=
  if s.maySuspend g && (s.nextRead g).isSome && decide (s.geo (GEO_DK_SUSP.RESUME_MIN (s.kind g)) ≤ s.us - (s.lunOf g).since) then s.suspend g else s

/-- A band-0 read or member read of the LUN waits where dispatch is not held, or runs (R362). -/
def State.readWants (s : State) (g : Nat) : Bool :=
  let n := lunChan g
  let l := s.lunOf g
  (!s.dispatchHeld n && !l.holdMaxed && !s.on TET_PWRFAIL.LATCH && s.ops.any (fun o => o.loc.lun == g && (s.isBandRead o || (s.isMemberRead o && o.isSense))))
    || (!s.on TET_PWRFAIL.LATCH && s.xferWaits g) || l.busy || ((s.ctxOf n).state != 0 && (s.ctxOf n).lun == g) || l.park.isSome

/-- RESUME of a suspended operation (R362): v4 is the suspended kind. -/
def State.resumeOp (s : State) (g : Nat) : State :=
  let l := s.lunOf g
  if !l.suspended || l.abortDie || s.ops.any (fun o => o.role == Role.resume && o.loc.lun == g) || s.readWants g then s
  else s.engineOp g rtResume .resume l.cur.kindCode

/-! ### The start of a routine -/

/-- The data that a pass takes into staging as it starts: parity from its accumulator, on chip or in its Pool buffer (R317, R321). -/
def State.passData (s : State) (o : Op) : Op × State :=
  match o.stripe with
  | some (sid, r, m) =>
    let spare := fun (j : Nat) => ((s.subOf j).map (fun x => x.kind != 2 && !s.pageReadable x.lun x.eb r)).getD false
    let par := match o.role with | .parity _ _ _ => true | .subst j => decide (m ≥ 32) && !o.isPad && (s.accOf sid r).isSome && spare j | .later => decide (m ≥ 32) && !o.isPad && o.data.isEmpty | _ => false
    if par then ({ o with data := (List.range (s.slotCws (s.stripeOf sid))).map (s.parityWord sid r m) }, s.readAcc sid r m) else (o, s)
  | none => (o, s)

/-- A data slot's code words are folded as its first pass starts; the row's first fold takes its accumulator (R319, R320). -/
def State.foldNow (s : State) (o : Op) : Op × State :=
  match o.stripe, o.role with
  | _, .subst _ => (o, s)
  | some (sid, r, m), _ =>
    if m ≥ 32 || o.folded || (s.stripeOf sid).state = 0 || ((s.rowOf sid r).map (·.noParity)).getD false then (o, s)
    else ({ o with folded := true }, ((s.needAcc sid r).foldSlot sid r m o.tag o.data).modRow sid r fun x => { x with folded := x.folded ||| 2 ^ m })
  | none, _ => (o, s)

/-- A program refused by the write-once checker (R25, R337). DESIGN CHOICE (log entry 81) for the passes that no descriptor names: a pad's
slot then never verifies, and its row gets no parity (R315); a parity pass counts as failed. A later pass whose record is gone is not made. -/
def State.onceRefused (s : State) (o : Op) : State :=
  match o.role with
  | .routine => match o.tag with
    | some t => s.later (.endTag t 0x12 0 0 0)
    | none => s
  | .first => match o.tag with
    | some t => s.later (.endTag t 0x12 0 0 0)
    | none => s
  | .subst j => s.subPassed j o (some (0x12, 0))
  | .parity _ _ _ => s.passFailed o false
  | .later => s
  | _ => match o.stripe with
    | some (sid, r, m) => if m < 32 then (s.modRow sid r fun x => { x with dead := true }).rowsPush sid else s
    | none => s

/-- R310 refuses a READ or COPY as its first sense is offered. -/
def State.readRefused (s : State) (o : Op) : Option (Nat × Nat) :=
  match o.role, o.readId.bind s.readOf with
  | .sense _, some r => match r.owner with
    | .tag t =>
      let l := s.lunOf o.loc.lun
      if r.raw || (s.tagOf t).sensed then none
      else if (l.suspErase.map (·.1)) == some o.loc.eb then some (t, 0x13)
      else match l.horizon with
        | some (e, h) => if e == o.loc.eb && decide (h ≤ o.loc.page) then some (t, 0x14) else none
        | none => none
    | _ => none
  | _, _ => none

/-- A sense of a tag's own read. -/
def State.ownSense (s : State) (t : Nat) (o : Op) : Bool := match o.role with
  | .sense id => ((s.readOf id).map (fun r => r.owner == .tag t)).getD false
  | _ => false

/-- The set of a sense that takes its band's default set, with the band in force as it starts (R182, R292). -/
def State.bandAgain (s : State) (o : Op) : Op × State :=
  match o.role with
  | .sense id => match s.readOf id with
    | some r =>
      let r0 := { r with tried := r.tried.erase r.set, counted := r.counted - r.step }
      let x := if r.step = 0 then s.defaultSet r.lun else (s.nextSet r0).getD r.set
      if r.raw || r.step ≥ 2 || r.predicted != (r.step == 1) || x = r.set then (o, s)
      else ({ o with v4 := BitVec.ofNat 32 x }, s.modRead id fun y => { y with set := x, set0 := if r.step = 0 then x else r.set0, tried := r0.tried ++ [x] })
    | none => (o, s)
  | _ => (o, s)

/-- The context starts a routine (R144). -/
def State.startRoutine (s : State) (o : Op) : State :=
  let g := o.loc.lun
  let n := lunChan g
  let q := chanQuad n
  let bank := s.bankOf (s.chanterOf q)
  let (o, s) := s.bandAgain o
  let (o, s) := if o.usesStage then
      ({ o with v7 := BitVec.ofNat 32 (s.chanOf n).nextHandle }, s.modChan n fun x => { x with nextHandle := x.nextHandle + 1 }) else (o, s)
  let s := if s.qstate q = 1 then s.quadBack q else s
  let s := match o.owner with
    | some t => if o.isEngine then s else s.modTag t fun x => { x with begun := true, started := x.started || s.ownOp t o, sensed := x.sensed || s.ownSense t o }
    | none => s
  let s := match o.readId with
    | some i =>
      let s := match s.readOf i with | some r => s.countSenses r r.unissued | none => s
      s.modRead i fun r => { r with started := true, unissued := 0 }
    | none => s
  match s.routineEntry o.routine bank with
  | none =>
    let s := s.evOpError n g (o.tag.getD 0xFFF) resBadArg ((s.chanOf n).stat.toNat + o.routine * 256)
    s.later (.opEnd o resBadArg 0 0)
  | some e =>
    let regs := s.startRegs o
    let s := s.modLun g fun l =>
      if o.role == .resetLun then { l with op := kindReset, tag := o.tag.getD 0xFFF, eb := o.loc.eb, page := o.loc.page, row := regs.getD 2 0 }
      else if l.suspended || o.isEngine then l
      else { l with op := o.kindCode, tag := o.tag.getD 0xFFF, eb := o.loc.eb, page := o.loc.page, row := regs.getD 2 0, cur := o, ran := 0, since := s.us, suspCount := 0, limitHit := false }
    s.modCtx n fun _ => Ctx.fresh o g o.routine e bank regs

/-- A program whose first pass R323 bars for good ends with nothing issued. DESIGN CHOICE (log entry 98): with ST_PROGRAM_FAIL, detail 0x00. -/
def State.firstRefused (s : State) (o : Op) : State := match o.tag with
  | some t => s.later (.endTag t 0x32 0 0 0)
  | none => s

/-- The write-once checker passes an operation: a first pass by the program frontier, a later pass by its page's record (R337). -/
def State.oncePass (s : State) (o : Op) : Bool :=
  if o.opens then s.onceOk o.loc.lun o.loc.eb o.loc.page o.loc.planes (o.refill || o.begun)
  else if o.isRawProg || o.role == .later then (s.recOf o.loc.lun o.loc.eb o.loc.page).isSome
  else true

/-- An ERASE of a tally pool block whose window has been established meanwhile (R343). -/
def State.poolRefused (s : State) (o : Op) : Option Nat :=
  if o.role == .erase && s.inPool o.loc.lun o.loc.eb && (s.tallyOf o.loc.lun).established then o.tag else none

/-- An operation is offered: the checks of its cycle, then its start. -/
def State.offerOp (s : State) (o : Op) : State :=
  let s := { s with ops := s.ops.erase o }
  match s.readRefused o, s.poolRefused o with
  | some (t, st), _ => s.later (.endTag t st 0 0 0)
  | none, some t => s.later (.endTag t 0x10 0x16 0 0)
  | none, none =>
    if !s.oncePass o then s.onceRefused o
    else if s.firstBarred o then s.firstRefused o
    else
      let (o, s) := s.passData o
      if o.isFirst then
        let (o, s) := s.foldNow { o with begun := true }
        (s.beginFirst o.loc.lun o.loc.eb o.loc.page).startRoutine o
      else if o.opens then (s.beginFirst o.loc.lun o.loc.eb o.loc.page).startRoutine { o with begun := true }
      else if o.isRawProg then (s.fineLine o.loc.lun o.loc.eb o.loc.page).startRoutine o
      else s.startRoutine o

/-- The held tag whose work an operation is, that of a substitution's copies too (R356). -/
def State.opWaiter (s : State) (o : Op) : Option Nat :=
  (o.owner <|> (match o.role with | .subst j => (s.subOf j).bind s.subTag | _ => none)).filter s.live'

/-- A held tag that waits on a pass that is no descriptor's first: a STRIPE_CLOSE or FLUSH of its stripe, a DURABLE program whose page the
pass brings to readability, an ERASE of its block, a program that the hand-over of the horizon, R323's second rule or a full record region
holds, a FLUSH with READABLE (R356). DESIGN CHOICE (log 89): of several such tags the first in this order gives the pass its band and
deadline, and keeps it. -/
def State.passWaiter (s : State) (o : Op) : Option Nat :=
  let g := o.loc.lun
  let e := o.loc.eb
  let l := s.lunOf g
  (o.stripe.bind (fun x => s.stripeWaiter x.1))
    <|> (l.recs.find? (fun r => r.eb == e && dDurable r.desc && decide (o.loc.page < s.padTop g r.page) && ((r.tag.map s.live').getD false))).bind (·.tag)
    <|> s.openTags.find? (fun u => dOp (s.tagOf u).desc == opErase && (s.tagOf u).phase == 0 && !(s.tagOf u).waitsOrder && dLun (s.tagOf u).desc == g && dEb (s.tagOf u).desc == e)
    <|> (if (l.horizon.map (·.1)) == some e then s.ops.findSome? (fun p => if p.loc.lun == g && p.loc.eb != e && p.opens then s.opWaiter p else none) else none)
    <|> (if s.twoPass g then s.ops.findSome? (fun p => if p.loc.lun == g && p.opens
        && (decide (8 ≤ l.recs.countP (!·.dead)) || (p.loc.eb == e && decide (o.loc.page / s.ppwl g + 2 ≤ p.loc.page / s.ppwl g))) then s.opWaiter p else none) else none)
    <|> s.openTags.find? (fun u => dOp (s.tagOf u).desc == opFlush && bit (s.tagOf u).desc 11 && (s.flushRecs u).any (fun x => x.1 == g && x.2.eb == e))

/-- Passes that a held tag has come to wait on take its band and deadline (R356). -/
def State.restamp (s : State) (n : Nat) : State :=
  let free := fun (o : Op) => lunChan o.loc.lun == n && o.tag.isNone && match o.role with | .pad => true | .parity _ _ _ => true | .later => true | _ => false
  if !s.ops.any free then s
  else { s with ops := s.ops.map fun o =>
    match (if free o then s.passWaiter o else none) with
    | some t => { o with tag := some t, cls := dClass (s.tagOf t).desc, due := (s.tagOf t).due }
    | none => o }

/-- The routines of a training run in order: number, target and v4, which for a read deskew is the receiver level (Table 3.17, Table 4.12,
R115, R118). DESIGN CHOICE (log 77): one routine for each step, level and target, targets ascending. -/
def State.trainPlan (s : State) (n : Nat) : List (Nat × Nat × Nat) :=
  let on := fun (r v4 : Nat) (ts : List Nat) => ts.map fun t => (r, t, v4)
  let ts := s.trainTargets n
  let st := s.get (CH_TRAIN_CTRL.STEPS n)
  if (s.chanOf n).training = 2 then on rtTrainRgate 0 (ts.take 1) ++ on rtTrainRdeskew (s.get (CH_RXVREF.LEVEL n)) (ts.take 1)
  else (if st.testBit 0 && s.ifNow n == 2 then on rtTrainDcc 0 ts else []) ++ (if st.testBit 1 then on rtTrainRgate 0 ts else [])
    ++ (if st.testBit 2 then [8, 10, 12, 14, 16, 18, 20, 22].flatMap (fun l => on rtTrainRdeskew l ts) else [])
    ++ (if st.testBit 3 then on rtTrainWdeskew 0 ts else [])

/-- A routine of the channel engine's training on a target. -/
def trainOp (n : Nat) (x : Nat × Nat × Nat) : Op :=
  { routine := x.1, loc := { lun := (targetLuns n x.2.1).headD 0 }, v4 := BitVec.ofNat 32 x.2.2, role := .train }

/-- The next routine of a training run whose wait is over (R114). -/
def State.trainNext (s : State) (n : Nat) : Option Op :=
  let off := s.padsHeld n || s.on TET_PWRFAIL.LATCH || s.on (CH_FLT_CTRL.FENCED n) || s.on (Q_FLT_CTRL.FENCED (chanQuad n))
  if (s.chanOf n).training = 0 || off || !s.trainClear n || s.trainRuns n then none
  else ((s.trainPlan n)[(s.chanOf n).trainAt]?).map (trainOp n)

/-- OFFER_ROUTINE: reads of busy LUNs are decided on, then the first operation that may start is offered (R145, R355), or the next routine
of a training run starts. -/
def State.offer (s : State) (n : Nat) : State :=
  let s := if s.halted || s.freset.busy || s.on TET_PWRFAIL.LATCH then s else s.each (chanLuns n) State.suspendDecision
  let s := s.restamp n
  if !s.ctxOpen n then s
  else match s.firstOp ((s.chanOps n).filter s.mayStart) with
    | some o => s.offerOp o
    | none => match s.trainNext n with
      | some o => (s.modChan n fun c => { c with trainAt := c.trainAt + 1 }).startRoutine o
      | none => s

end Sys2Proof.Machine
end

