-- ==== Sys2Proof/Machine/Power.lean ====
section
/-! DEFINITION. Power states (spec/14_power_clocks_startup.md): domains, quad states, DEEP and its wake, power-fail hold-up. -/

namespace Sys2Proof.Machine

/-! ### Domains (R79, R458 to R462, R467) -/

def State.release (s : State) (d : Nat) : State := if s.pins.pwrReq.getLsbD d && !s.halted then s.setReq d false else s

/-- A quad fenced with no locked PLL loses PD_Pq, and its pads take the safe state (R435). DEDUCED (log 56): also while its PLLs are still
relocking; a wake under way then ends with the quad ACTIVE. -/
def State.pllOff (s : State) (q : Nat) : State :=
  if s.on (PHY_STAT.LOCK q) || s.halted || !s.pins.pwrReq.getLsbD (pdP q) then s
  else
    let s := s.each (quadChans q) State.enterSafe
    let s := if (s.quadOf q).waking = 0 then s
      else (s.quadBack q).modQuad q fun x => { x with waking := 0, relocking := false, deepDown := false }
    s.release (pdP q)

/-- The top runs: powered, filled, and not in DEEP. -/
def State.topOn (s : State) : Bool := s.usable pdTop && s.block != blockDeep && !s.inStartup

/-- Every on-chip accumulator asks for its spill buffer. -/
def State.spillAll (s : State) : State :=
  (s.accs.filter (fun a => a.chip && !a.asked)).foldl (fun s a =>
    (s.modAcc a.stripe a.row fun x => { x with asked := true }).need (classFor (s.accBytes (s.stripeOf a.stripe))) (stripeOwner a.stripe) (.spill a.stripe a.row)) s

/-- PD_PAR follows PAR_GATE and the open stripes (R467). DEDUCED (log 60): it is released once the accumulators that still lie in it, which
R319 keeps to their rows' last parity passes, have been moved to Pool buffers as in R321. A wake under the latch does not power it (R474). -/
def State.updPar (s : State) : State :=
  if !s.topOn || s.tet.topOnly || decide (s.tet.sleepStep ≥ 5) then s
  else if !s.on TET_PWR_CTRL.PAR_GATE || s.stripes.any (fun e => e.2.state == 1) then s.powerUp pdPar
  else if s.accs.any (·.chip) then s.spillAll
  else s.release pdPar

/-- Acknowledges; a quad whose two domains have fallen is off. -/
def State.ackRise (s : State) (d : Nat) : State :=
  if s.pins.pwrReq.getLsbD d && !s.pins.pwrAck.getLsbD d then
    { s with pins := { s.pins with pwrAck := putBit s.pins.pwrAck d true }, tet := { s.tet with late := putBit s.tet.late d false } }
  else s

def State.quadFell (s : State) (q : Nat) : State :=
  if s.qstate q = 3 && (s.quadOf q).waking = 0 && !s.pins.pwrAck.getLsbD (pdQ q) && !s.pins.pwrAck.getLsbD (pdP q) then s.setQstate q 2 else s

def State.ackFall (s : State) (d : Nat) : State :=
  if !s.pins.pwrReq.getLsbD d && s.pins.pwrAck.getLsbD d then
    let s := { s with pins := { s.pins with pwrAck := putBit s.pins.pwrAck d false }, tet := { s.tet with late := putBit s.tet.late d false } }
    s.each (List.range 8) State.quadFell
  else s

/-- A domain's stores are filled and its outputs unclamped. DESIGN CHOICE (log 61): in a wake from DEEP, PD_TOP's first report says that
banks 35 and 36 are filled, its second that bank 32 is (R473). -/
def State.filled (s : State) (d : Nat) : State :=
  if s.powered d && !s.tet.starting then
    { s with tet := { s.tet with usable := putBit s.tet.usable d true, bank32 := s.tet.bank32 || (d == pdTop && s.tet.usable.getLsbD pdTop) } }
  else s

/-! ### Quads (R463 to R466) -/

/-- The conditions of R463; an operation that may not start yet does not keep a quad awake. -/
def State.quadAsleep (s : State) (q : Nat) : Bool :=
  s.quadQuiet q && (quadChans q).all (fun n => (s.chanOf n).training == 0 && (chanLuns n).all (fun g => !(s.lunOf g).busy) && !(s.chanOps n).any s.mayStart) && (s.quadOf q).apply == 0
    && !s.on (ZQ_STAT.BUSY q) && !(s.quadOf q).takeover && !(s.quadOf q).switching

def State.quadIdle (s : State) (q : Nat) : State :=
  if s.qstate q = 0 && s.on (TET_QPOL.IDLE_EN q) && !s.on (TET_QPOL.ON q) && s.quadAsleep q && s.topOn then s.setQstate q 1 else s

/-- PD_Pq and PD_Qq are released; the pads take the safe state, trained values stay. -/
def State.quadDown (s : State) (q : Nat) : State :=
  let s := (s.switchTold q).each (quadChans q) State.enterSafe
  let s := ((s.put (PHY_STAT.LOCK q) 0).put (PHY_STAT.STBY_LOCK q) 0).modQuad q fun x => { x with calDone := false, locked := 0, relocking := false, waking := 0 }
  let s := ((s.release (pdP q)).release (pdQ q)).setQstate q 3
  s.quadFell q

def State.quadOff (s : State) (q : Nat) : State :=
  if !s.halted && s.qstate q = 1 && s.on (TET_QPOL.OFF_EN q) && !s.on (TET_QPOL.ON q) && s.quadAsleep q then s.quadDown q else s

/-- A quad that is off is powered again; its PLLs relock and a long calibration runs. -/
def State.quadUp (s : State) (q why : Nat) : State :=
  if s.qstate q != 2 then s
  else ((((s.powerUp (pdQ q)).powerUp (pdP q)).setQstate q 3).put (ZQ_STAT.BUSY q) 1).modQuad q fun x => { x with waking := why, relocking := true, calDone := false }

/-- The last step of a quad's wake: the pads are handed back and dispatch resumes. -/
def State.quadAwake (s : State) (q : Nat) : State :=
  if s.qstate q = 3 && (s.quadOf q).waking != 0 && s.usable (pdQ q) && s.usable (pdP q) && s.on (PHY_STAT.LOCK q) && (s.quadOf q).calDone then
    let deep := (s.quadOf q).waking == 2
    let s := (s.quadBack q).modQuad q fun x => { x with waking := 0 }
    s.each (quadChans q) fun s n =>
      let s := s.leaveSafe n
      if deep && (s.chanOf n).training == 0 then s.refresh n else s
  else s

/-- What wakes a quad: an operation to offer, a training run, ON, a take-over (R466); nothing after a wake under the latch (R474). -/
def State.quadWanted (s : State) (q : Nat) : Bool :=
  !s.tet.topOnly && (s.on (TET_QPOL.ON q) || (s.quadOf q).takeover || (quadChans q).any (fun n => (s.chanOf n).training != 0)
    || (quadChans q).any (fun n => (s.chanOps n).any s.holdupOk))

/-- QUAD_OFF ends by wanted work or ON = 1. -/
def State.quadWake (s : State) (q : Nat) : State :=
  if s.topOn && !s.halted && decide (s.tet.sleepStep < 5) && s.qstate q == 2 && s.quadWanted q then s.quadUp q 1 else s

/-- ON or an operation that may start ends QUAD_IDLE (R463, R465); a drift period starts again from zero then (R468). -/
def State.quadActive (s : State) (q : Nat) : State :=
  if s.qstate q = 1 && (s.on (TET_QPOL.ON q) || (!s.halted && (quadChans q).any (fun n => (s.chanOps n).any s.mayStart))) then s.quadBack q else s

/-- ON keeps a quad ACTIVE (R465); a wake whose steps have ended hands the pads back; an abandoned DEEP entry powers again what it has
released, once the acknowledges have fallen (R471, R79). -/
def State.quadPolicy (s : State) (q : Nat) : State :=
  let s := s.quadAwake q
  let s := if (s.quadOf q).deepDown && s.tet.sleepStep == 0 && s.block == blockActive && s.qstate q == 2 then
      (s.quadUp q 2).modQuad q fun x => { x with deepDown := false } else s
  s.quadActive q

/-! ### DEEP (R469 to R474) -/

/-- The first failing condition of Table 14.4, codes 0x01 to 0x05 and 0x07. -/
def State.sleepBad (s : State) : Option Nat :=
  let units := (List.range 32).map CH_FLT_FIRST.adr ++ (List.range 8).map Q_FLT_FIRST.adr ++ (List.range 18).map BLW_FLT_FIRST.adr ++ (List.range 6).map BAL_FLT_FIRST.adr
  if !s.heldTags.isEmpty || !s.cos.isEmpty then some 1
  else if (List.range 128).any (fun i => !(s.sqOf i).slot.isEmpty || (s.on (SQ_STAT.ENABLED i) && !s.native i && s.sqHead i != s.sqTail i)) then some 2
  else if s.luns.any (fun e => e.2.busy || e.2.suspended || !e.2.recs.isEmpty) then some 3
  else if (List.range 8).any (fun q => (s.quadOf q).apply != 0) || s.checking.isSome || (List.range 32).any (fun n => (s.chanOf n).training != 0)
      || s.freset.busy || s.on PAT_STAT.ACT_PENDING then some 4
  else if s.on TET_PWRFAIL.LATCH || s.halted || s.reg BAL_FATAL.adr != 0 then some 5
  else if units.any (fun a => s.on (fltRecovering a)) || (List.range 8).any (fun q => s.on (Q_FLT_CTRL.SPARE_SERVING q)) then some 7
  else none

def State.setBlock (s : State) (b : Nat) : State := s.put TET_PWR_STAT.BLOCK b

/-- Quads with a channel enabled in force come back (R473). -/
def State.quadsUp (s : State) : State :=
  s.each ((List.range 8).filter (fun q => (quadChans q).any (fun n => bit (s.chanOf n).mode 0))) fun s q => s.quadUp q 2

/-- The entry is abandoned with a reason of Table 14.4. -/
def State.sleepAbandon (s : State) (reason : Nat) : State :=
  if s.tet.sleepStep = 0 then s
  else
    let step := s.tet.sleepStep
    let cause := ((List.range 32).find? (fun j => s.tet.prepCause.getLsbD j)).getD 0
    let wake := s.tet.prepWake
    let s := { s with tet := { s.tet with sleepStep := 0, prepCause := 0, prepWake := false } }
    let s := ((s.setBlock blockActive).put TET_SLEEP_STAT.REASON reason).bump TET_SLEEP_STAT.ABORTS 1
    let s := s.each (List.range 8) State.quadFell
    s.raise 280 0 (cause + wake.toNat * 2 ^ 5 + step * 2 ^ 6 + reason * 2 ^ 16)

/-- WAKE write. -/
def State.wakeWrite (s : State) : State :=
  if s.block = blockPreparing || s.block = blockDeep then { s with tet := { s.tet with prepWake := true } } else s

/-- DEEP write; in any other block state only a WAKE in the same write counts (R469, R471). -/
def State.sleepStart (s : State) (wake : Bool) : State :=
  if s.block != blockActive then (if wake then s.wakeWrite else s)
  else ({ s with tet := { s.tet with sleepStep := 1, prepCause := 0, prepWake := wake } }).setBlock blockPreparing

def State.wakeAsked (s : State) : Bool := s.tet.prepWake || s.tet.prepCause != 0

/-- What is not retained in DEEP restarts (R472): the RO counters, credit balances, the row tracker and the tenants' bus times. -/
def State.dropCounters (s : State) : State :=
  let zero := fun (s : State) (a : Nat) => s.setReg a 0
  let s := [BLW_CNT_BF.adr, BLW_CNT_MS.adr, BLW_CNT_FAIL.adr, BLW_CNT_MISCORR.adr, BLW_CNT_ERASED.adr,
    GEO_RLHC_HIT.adr, GEO_RLHC_MISS.adr, GEO_RLHC_LATE.adr, GEO_RLHC_WB.adr, BRD_CNT_SUSP.adr, BRD_CNT_RAC_WON.adr, BRD_CNT_RAC_LOST.adr,
    BRD_CNT_MISSED.adr, EV_CNT.adr, EV_CNT.adr + 0x1000, DMA_ERR_CNT.adr, DMA_LATE_CNT.adr, DMA_POOL_CNT.adr, TOP_WR_PADS.adr, TOP_WR_EVICT.adr].foldl zero s
  let s := s.each (List.range 8) fun s q => zero (zero s (BRD_CRED_CNT.adr q)) (CHT_CNT.adr q)
  let s := s.each (List.range 128) fun s i => zero s (SQ_CNT.adr i)
  let s := { s with ballast := { s.ballast with tracker := [] } }
  let s := s.each (s.chans.map (·.1)) fun s n => s.modChan n fun c => { c with d0 := [], vt := [] }
  let s := s.each (List.range 8) fun s q => s.modQuad q fun x => { x with drawn := [], deepDown := false }
  s.each (List.range 8) fun s q => (s.put (BRD_CRED_BAL.BALANCE q) (s.burst q)).modQuad q fun x => { x with credAt := s.now, credRest := 0 }

/-- One step boundary of Table 14.5. DESIGN CHOICE (log entry 94): lines that are still dirty when a VALIDATE puts EN = 0 or another base in
force are written back to the base then in force. -/
def State.sleepNext (s : State) : State :=
  let setStep := fun (s : State) (k : Nat) => { s with tet := { s.tet with sleepStep := k } }
  if s.tet.sleepStep = 0 then s
  else if s.wakeAsked then s.sleepAbandon 9
  else match (if s.tet.sleepStep = 1 then none else s.sleepBad) with
  | some r => s.sleepAbandon r
  | none =>
    match s.tet.sleepStep with
    | 1 => setStep s 2
    | 2 =>
      let s := (setStep s 3).spillAll
      s.dirtyLines.foldl (fun s l => if s.wbOut l then s else s.writeBack l) s
    | 3 => if s.accs.any (·.chip) || !s.dirtyLines.isEmpty || !s.rlh.wbq.isEmpty || !s.rlh.pooled.isEmpty || !s.ready.isEmpty || !s.flying.isEmpty then s else setStep s 4
    | 4 =>
      let left := fun (r : Nat) => !((s.ringOf r).queue.isEmpty && (s.ringOf r).late.isEmpty && (s.ringOf r).out.isEmpty)
      if left 0 || left 1 then s
      else
        let s := (setStep s 5).each ((List.range 8).filter (fun q => s.qstate q != 2)) fun s q =>
          let told := s.qstate q != 3 || (s.quadOf q).waking != 0
          (s.quadDown q).modQuad q fun x => { x with deepDown := x.deepDown || told }
        s.each (List.range 28) fun s d => if d = pdTop then s else s.release d
    | 5 => if (List.range 28).any (fun d => d != pdTop && s.pins.pwrAck.getLsbD d) then s else setStep s 6
    | _ =>
      let s := (setStep s 0).dropCounters
      let s := { s with rlh := {}, tet := { s.tet with bank32 := false }, pins := { s.pins with cclkReq := false } }
      ((s.setReq pdTop false).setBlock blockDeep).put TET_SLEEP_STAT.REASON 0

/-- A wake request in DEEP; it waits while an acknowledge of the entry is still high (R49, R79). -/
def State.deepWakeUp (s : State) (ret : Option (BitVec 12)) : State :=
  if s.block != blockDeep || s.halted || !s.wakeAsked || s.pins.pwrAck.getLsbD pdTop || s.pins.cclkAck then s
  else
    let s := { s with tet := { s.tet with prepCause := 0, prepWake := false }, pins := { s.pins with cclkReq := true } }
    let s := (s.powerUp pdTop).setBlock blockWaking
    let s := if s.on TET_PWRFAIL.LATCH then { s with tet := { s.tet with topOnly := true } } else s.quadsUp
    match ret with
    | none => s
    | some row => (s.capture (.top 5) 2 3 row.toNat false).fatal fatalRetention

/-- The wake from DEEP ends with BLOCK = ACTIVE, bank 32 filled (Table 14.6). -/
def State.wakeDone (s : State) : State :=
  if s.block = blockWaking && s.usable pdTop && s.tet.bank32 && s.pins.cclkAck && (List.range 8).all (fun q => (s.quadOf q).waking != 2) then s.setBlock blockActive else s

/-! ### Power-fail hold-up (R478 to R481) -/

/-- Committed operations still running (`TET_PWRFAIL.LEFT`). -/
def State.holdLeft (s : State) : Nat :=
  let fin := s.on TET_HOLDUP.FINISH
  (s.luns.map fun (_, l) =>
    l.committed.toNat + (if fin then l.recs.countP (fun r => !r.raw && !r.dead && match r.stripe with | some (_, _, m) => decide (m < 32) || r.isPad | none => true) else 0)
      + (match l.tally.cur with | some (.clear _ _ _) => 1 | _ => 0) + l.tally.queue.countP (fun w => match w with | .clear _ _ _ => true | _ => false)).sum

def State.evPwrfail (s : State) (code : Nat) : State :=
  s.raise 278 2 (code + s.holdLeft % 65536 * 4 + s.get TET_HOLDUP.TIME * 2 ^ 18)

/-- Hold-up expires: every channel enters the safe state until RESET_N. -/
def State.holdExpire (s : State) : State :=
  if !s.on TET_PWRFAIL.HOLDUP then s
  else
    let s := ((s.put TET_PWRFAIL.HOLDUP 0).put TET_PWRFAIL.EXPIRED 1).evPwrfail 2
    let s := { s with tet := { s.tet with heldSafe := true } }
    (s.each (List.range 8) State.cutApply).allSafe

/-- The latch sets. -/
def State.latchSet (s : State) : State :=
  let s := (s.put TET_PWRFAIL.LATCH 1).put TET_PWRFAIL.HOLDUP 1
  let s := (s.fireSlot 2).evPwrfail 1
  let s := s.sleepAbandon 5
  let s := s.each (s.ctxs.map (·.1)) fun s n =>
    let c := s.ctxOf n
    if c.state != 0 && !c.committed && !c.op.isEngine then s.modCtx n (fun c => c.request 0) else s
  let s := s.each (s.luns.map (·.1)) fun s g =>
    match (s.lunOf g).park with
    | some c => if c.committed || c.op.isEngine then s else s.requestPark g 0
    | none => s
  if s.get TET_HOLDUP.TIME = 0 || s.holdLeft = 0 then s.holdExpire else s

/-- The latch has been cleared. DESIGN CHOICE (log 61): after a wake from DEEP that powered PD_TOP only, the quads of R473 then come
back. -/
def State.latchGone (s : State) : State :=
  let s := if s.tet.topOnly then { s with tet := { s.tet with topOnly := false } }.quadsUp else s
  s.racs.foldl (fun s k => s.racReady k.id) s

/-- Software writes 1 to LATCH (R481): the end of hold-up, or of the state after its expiry; while PWRFAIL_N is low the latch sets again
at once. -/
def State.latchClear (s : State) (pinHigh : Bool) : State :=
  if !s.on TET_PWRFAIL.LATCH then s
  else if s.on TET_PWRFAIL.HOLDUP then
    (if pinHigh then (((s.put TET_PWRFAIL.LATCH 0).put TET_PWRFAIL.HOLDUP 0).evPwrfail 3).latchGone else s.latchSet)
  else
    let s := (s.put TET_PWRFAIL.LATCH 0).put TET_PWRFAIL.EXPIRED 0
    if pinHigh then s.latchGone else s.latchSet

/-- Pads that hold-up with FINISH = 1 needs for the later passes of the pages that count as committed (R479). -/
def State.holdPads (s : State) : State :=
  if !s.on TET_HOLDUP.FINISH then s
  else s.luns.foldl (fun s (g, l) => l.recs.foldl (fun s r =>
    let par := match r.stripe with | some (_, _, m) => decide (m ≥ 32) && !r.isPad | none => !r.kept.isEmpty
    if par || r.dead || r.running || r.reading || s.fineMay g r.eb r.page then s else s.padBlock g r.eb r.page r.planes) s) s

/-- Hold-up goes on: suspended operations resume; LEFT = 0 ends it. -/
def State.holdPush (s : State) : State :=
  if !s.on TET_PWRFAIL.HOLDUP then s
  else
    let s := (s.each ((s.luns.filter (fun e => e.2.suspended)).map (·.1)) State.resumeOp).holdPads
    let s := s.put TET_PWRFAIL.LEFT s.holdLeft
    if s.holdLeft = 0 then s.holdExpire else s

end Sys2Proof.Machine
end

