-- ==== Sys2Proof/Machine/Freset.lean ====
section
/-! DEFINITION. Function reset (R382 to R385, R227). -/

namespace Sys2Proof.Machine

def State.modFreset (s : State) (f : Freset → Freset) : State := { s with freset := f s.freset }

/-! ### The post-reset list (Table 10.7) -/

/-- An entry: kind, LUN, erase block, page, SQ, stripe, host tag. -/
def listEntry (kind g e q sq sid host : Nat) : List Byte :=
  natLe 4 (kind * 2 ^ 28 + g) ++ natLe 4 (e * 2 ^ 20 + q) ++ natLe 4 (sq * 2 ^ 24 + sid) ++ natLe 4 host

def noSq : Nat := 0x7F
def noStripe : Nat := 0xFFF
def noHost : Nat := 0xFFFF
def stripeNo (x : Option (Nat × Nat × Nat)) : Nat := (x.map (·.1)).getD noStripe
def isParity (x : Option (Nat × Nat × Nat)) : Bool := (x.map (fun y => decide (y.2.2 ≥ 32))).getD false

/-- Same LUN, erase block and page. -/
def samePlace (a b : List Byte) : Bool := leNat (a.take 4) % 1024 == leNat (b.take 4) % 1024 && (a.drop 4).take 4 == (b.drop 4).take 4

def State.listAdd (s : State) (e : List Byte) : State :=
  if s.freset.list.any (samePlace e) then s else s.modFreset fun f => { f with list := f.list ++ [e] }

/-- The entry of an operation that the reset cuts, none for one that leaves no page or block unknown. -/
def State.cutEntry (s : State) (o : Op) : Option (List Byte) :=
  let g := o.loc.lun
  let own := match o.tag with | some t => if (s.tagOf t).held then some (s.tagOf t) else none | none => none
  let sq := (own.map (·.sq)).getD noSq
  let host := (own.map (fun t => dHostTag t.desc)).getD noHost
  let sid := stripeNo o.stripe
  if o.isErase then some (listEntry 4 g o.loc.eb 0 (if o.tag.isSome then sq else noSq) noStripe (if o.tag.isSome then host else noHost))
  else if o.isTallyProg then some (listEntry 5 g o.loc.eb o.loc.page noSq noStripe noHost)
  else if !o.isProg then none
  else if isParity o.stripe && !o.isPad then some (listEntry 3 g o.loc.eb o.loc.page noSq sid noHost)
  else
    let kind := if o.role == .later || o.v4 == 2 then 6 else 1
    match o.role, s.recOf g o.loc.eb o.loc.page with
    | .first, _ => some (listEntry kind g o.loc.eb o.loc.page sq sid host)
    | .routine, _ => some (listEntry kind g o.loc.eb o.loc.page sq sid host)
    | _, some r => some (listEntry kind g o.loc.eb o.loc.page r.sq sid r.hostTag)
    | _, none => some (listEntry kind g o.loc.eb o.loc.page noSq sid noHost)

/-! ### The start (R382, R383 steps 1 to 3) -/

/-- START acts while the top is on, no function reset runs and no fatal bit is set (R382, R438), after a start-up that failed too. -/
def State.fresetMay (s : State) : Bool :=
  !s.freset.busy && s.topOn && s.reg BAL_FATAL.adr == 0

/-- RESET LUN of a LUN, unless hold-up forbids it (R381) or one is under way; what its operation leaves is listed. -/
def State.fresetLun (s : State) (g : Nat) : State :=
  let l := s.lunOf g
  if s.on TET_PWRFAIL.LATCH then s
  else
    let n := lunChan g
    let run := s.runOf n g
    let cut := if l.hung.isSome then l.hung
      else if l.committed || l.suspended then some (if l.cur == {} then ((run.map (·.op)).getD {}) else l.cur) else none
    let s := match cut.bind s.cutEntry with | some e => s.listAdd e | none => s
    if l.resetting then s
    else
    let s := if (s.ctxOf n).state != 0 && (s.ctxOf n).lun == g then s.freeCtx n g else s
    let s := s.dropOps (fun o => o.isEngine && o.loc.lun == g)
    let s := s.modLun g fun l => { l with resetting := true, busy := true }
    (s.dropPark g).engineOp g rtResetLun .resetLun 0

/-- LUNs with a committed or suspended operation. -/
def State.fresetTargets (s : State) : List Nat :=
  (s.luns.filter (fun e => e.2.committed || e.2.suspended)).map (·.1)

/-- What the reset discards at its start. -/
def State.fresetDiscard (s : State) : State :=
  let held := s.heldTags
  let keep := held.filter fun t => (s.tagOf t).committed && !(s.tagOf t).inserted
  let keepSpool := fun (r : Spool) => match r.cont with
    | .event _ _ => true
    | .rlhWb _ _ => true
    | .rlhPool _ _ => true
    | _ => false
  let s := { s with held := [], cos := [], parked := [], sqs := [], reads := [], racs := [], subs := [], jobs := [] }
  let s := s.each (s.slices.map (·.1)) fun s i => s.modSlice i fun x => { x with job := x.job.map (fun (j : Job) => { j with dead := true }) }
  let s := { s with ops := s.ops.filter (·.isEngine), ready := s.ready.filter keepSpool }
  let s := { s with pool := { s.pool with send := s.pool.send.filter (fun r => r.op == poolDrop || r.op == poolFree), empty := [] } }.emptyOver
  let s := { s with rlh := { s.rlh with fills := [], late := [], updates := [] } }
  let s := s.each (s.cqs.map (·.1)) fun s c => s.modCq c fun q => { q with waiting := [], retry := false }
  let s := { s with tags := s.tags.filter (fun e => keep.contains e.1) }
  let s := s.each (s.luns.map (·.1)) fun s g =>
    if (s.lunOf g).committed && (s.lunOf g).cur.isTallyProg then s.modTally g fun t => { t with queue := t.poolWork.filter (t.cur != some ·) }
    else s.modTally g fun t => { t with queue := t.poolWork, cur := none, phase := 0 }
  (s.request 0 (fun o => !o.isEngine && !s.pastCommit o))

/-- START. -/
def State.fresetStart (s : State) (immediate : Bool) : State :=
  if !s.fresetMay then s
  else
    let now := immediate || s.halted
    let s := ((s.put TOP_FRESET_STAT.BUSY 1).put TOP_FRESET_STAT.MODE now.toNat).put TOP_FRESET_STAT.DROPPED s.cosUsed
    let s := (s.put TOP_FRESET_STAT.ENTRIES 0).put TOP_FRESET_STAT.OVERFLOW 0
    let s := { s.fresetDiscard with freset := { busy := true, immediate := now, step := 3 }, halted := false, tet := { s.tet with waiting := none, shadow := [] } }
    if now then s.each s.fresetTargets State.fresetLun else s

/-- BOUND µs have passed in GRACEFUL mode. -/
def State.fresetBound (s : State) : State :=
  if !s.freset.busy || s.freset.immediate || s.freset.step != 3 then s
  else s.each ((s.luns.filter (fun e => e.2.busy || e.2.suspended)).map (·.1)) State.fresetLun

/-! ### Ends of operations meanwhile -/

/-- The end of a Tally program or pool erase in step 3: the window keeps what it says of the medium (R348, R350); the records it would have
led to are not written. -/
def State.fresetTally (s : State) (o : Op) (step r : Nat) : State :=
  let g := o.loc.lun
  let t := s.tallyOf g
  if step = 4 then
    match t.flight.find? (fun f => !t.known.contains f.1 && match f.1 with | .pool i => s.poolEb g i == o.loc.eb | _ => false) with
    | some (.pool i, _) =>
      let s := s.modTally g fun t => { t with flight := t.flight.filter (fun f => f.1 != .pool i) }
      if r = resDone then s.modTally g fun t => { t with ready := some i }
      else if !resBad r then s.modTally g fun t => { t with queue := s.poolIntent g i :: t.queue }
      else
        let s := (s.modTally g fun t => { t with failed := t.failed ++ [i] }).evTally g i 1
        match (if (s.poolUsable g).length < 3 then none else s.poolAfter g i) with
        | some k => s.modTally g fun t => { t with queue := s.poolIntent g k :: t.queue }
        | none => s.tallyStop g i
    | _ => s
  else if r = resDone then s.opEnd o r 0 0
  else if !resBad r then s
  else if step = 3 then
    (s.evTally g (if t.onW0 then t.w0.getD 0 else t.w1) 0).modTally g fun t => { t with phase := 0, full := true, cur := none, queue := t.poolWork }
  else if t.first then (s.evTally g t.w1 0).modTally g fun t => { t with phase := 0 }
  else
    let i := t.ready.getD 0
    ((s.evTally g i 0).modTally g fun t => { t with phase := 0, ready := none, failed := t.failed ++ [i] }).tallyStop g i

/-- Only an operation that verified leaves its mark on the medium's records (R383 step 3); one that failed, hung or was reset leaves its
place unknown (R385). A substitution's copy that verified is coarse only on a two-pass spare (KIND 2). -/
def State.fresetOpEnd (s : State) (o : Op) (r v6 v7 : Nat) : State :=
  let listed := fun (s : State) => match s.cutEntry o with | some e => s.listAdd e | none => s
  if resBad r then (match o.role with | .tally k => if o.isTallyProg || k = 4 then (listed s).fresetTally o k r else listed s | _ => listed s)
  else if r != resDone then s
  else if o.role == .routine then s.routineMark o r
  else if o.isErase then
    (match o.role with
    | .tally k => s.fresetTally o k r
    | _ => if s.inPool o.loc.lun o.loc.eb then s else s.frontMake o.loc.lun o.loc.eb o.loc.planes)
  else if o.isPass then (match o.role with
    | .later => s.passEnd o r
    | .subst _ => s.firstVerified (if (o.tag.map (fun t => (s.tagOf t).held)).getD false then o else { o with tag := none })
    | _ => s.firstVerified o)
  else if o.isTallyProg then s.opEnd o r v6 v7
  else s

/-! ### Steps 4 to 7 -/

/-- No routine but the channel engine's training runs (R384) and no operation is in flight; under the latch committed operations run on (R482). -/
def State.fresetQuiet (s : State) : Bool :=
  let latch := s.on TET_PWRFAIL.LATCH
  let goes := fun (c : Ctx) => c.op.role == Role.train || latch && (c.op.isEngine || s.pastCommit c.op)
  !s.ctxs.any (fun e => e.2.state != 0 && !goes e.2)
    && s.luns.all (fun (_, l) => (latch && l.committed || !l.inFlight && !l.suspended) && (l.park.map goes).getD true)
    && !s.flying.any (fun r => match r.cont with | .event _ _ => false | .rlhWb _ _ => false | .rlhPool _ _ => false | _ => true)
    && !s.slices.any (fun e => e.2.job.isSome) && s.pool.out.isEmpty

/-- Committed operations that hold-up left running are listed as cut. -/
def State.fresetLeft (s : State) : State :=
  s.each s.fresetTargets fun s g => match s.cutEntry (s.lunOf g).cur with | some e => s.listAdd e | none => s

/-- Step 5 for one stripe; parity that a stopped stripe still owes is never programmed either. -/
def State.fresetStripe (s : State) (sid : Nat) : State :=
  let st := s.stripeOf sid
  let hasAcc := s.accs.any (fun a => a.stripe == sid)
  let hasRec := s.luns.any (fun e => e.2.recs.any (fun r => stripeNo r.stripe == sid))
  if st.state = 0 || !(hasAcc || hasRec) then s
  else
    let open' := s.rows.filter (fun x => x.stripe == sid && x.verified != 0)
    let s := open'.foldl (fun s x => (List.range st.npar).foldl (fun s k =>
      if x.parLast.testBit k then s
      else s.listAdd (listEntry 3 (memberLun st (32 + k)) (memberEb st (32 + k)) x.row noSq sid noHost)) s) s
    let s := s.modStripe sid fun x => { x with state := 2, closing := false, parityLost := x.parityLost || hasAcc }
    { s with rows := s.rows.filter (fun x => x.stripe != sid) }

/-- Every pass record goes: its page is coarse only. -/
def State.fresetRecs (s : State) : State :=
  s.each (s.luns.map (·.1)) fun s g =>
    let s := (s.lunOf g).recs.foldl (fun s r =>
      s.listAdd (if isParity r.stripe && !r.isPad then listEntry 3 g r.eb r.page noSq (stripeNo r.stripe) noHost
        else listEntry 2 g r.eb r.page r.sq (stripeNo r.stripe) r.hostTag)) s
    s.modLun g fun l => { l with recs := [] }

/-- Step 5: stripes, accumulators, records and buffers. -/
def State.fresetRelease (s : State) : State :=
  let s := (s.stripes.map (·.1)).foldl State.fresetStripe s.fresetLeft
  let s := s.fresetRecs
  let s := { s with accs := [] }
  s.pool.bufs.foldl (fun s b => b.owners.foldl (fun s o => s.releaseBuf o b.addr) s) s

/-- The next list entry is written, or the list is complete (R385). -/
def State.fresetWrite (s : State) : State :=
  let f := s.freset
  let base := (s.reg TOP_FRESET_LIST_HI.adr).toNat * 2 ^ 32 + (s.reg TOP_FRESET_LIST_LO.adr).toNat / 16 * 16
  let n := min f.list.length (s.get TOP_FRESET_LIST_N.CAP)
  if f.writing then s
  else if f.written < n && !f.stoppedList then
    (s.modFreset fun f => { f with writing := true }).ask (spoolWrite 0 37 (base + 16 * f.written) (f.list.getD f.written []) .list)
  else s.modFreset fun f => { f with step := 7 }

/-- The response of a list write: the next goes out, or the list stops at an error (Table 11.5). -/
def State.fresetWrote (s : State) (ok : Bool) : State :=
  (if ok then s else s.put TOP_FRESET_STAT.OVERFLOW 1).modFreset fun f => { f with writing := false, written := f.written + 1, stoppedList := f.stoppedList || !ok }

/-- RLH lines not written back. -/
def State.rlhDirty (s : State) : Bool := !s.dirtyLines.isEmpty || !s.rlh.wbq.isEmpty || !s.rlh.pooled.isEmpty

/-- Progress between commands. -/
def State.fresetPush (s : State) : State :=
  if !s.freset.busy then s
  else
    let s := if s.freset.step = 3 && s.fresetQuiet then
        s.dirtyLines.foldl (fun s l => if s.wbOut l then s else s.writeBack l) (s.modFreset fun f => { f with step := 4 }) else s
    let s := if s.freset.step = 4 && !s.rlhDirty then
        let s := s.fresetRelease
        let n := s.freset.list.length
        ((s.put TOP_FRESET_STAT.ENTRIES (min n 8191)).put TOP_FRESET_STAT.OVERFLOW (decide (n > s.get TOP_FRESET_LIST_N.CAP)).toNat).modFreset
          fun f => { f with step := 6 } else s
    if s.freset.step = 6 then s.fresetWrite else s

/-- BUSY falls. -/
def State.fresetFree (s : State) : State := { s with freset := {} }.put TOP_FRESET_STAT.BUSY 0

/-- The agent at the reset's end: the window stands, and the erase of a pool block that is still owed is done again (R348). -/
def State.tallyReset (s : State) (g : Nat) : State :=
  s.modTally g fun t =>
    let owed := t.flight.filterMap (fun f => match f.1 with | .pool i => if t.known.contains f.1 then none else some (s.poolIntent g i) | _ => none)
    { t with queue := t.poolWork ++ owed, cur := none, phase := 0, flight := [], known := [], redo := none, opening := t.opening && !(t.poolWork ++ owed).isEmpty }

/-- Nothing is left that a record of a ring could release (R228). -/
def State.unhold (s : State) (ring : Nat) : State :=
  s.modRing ring fun q => { q with late := q.late.map (fun r => { r with holder := none }) }

/-- Operations that hold-up lets run on keep no tag (R482). The reset ends with the queues and tags as R227 gives, and EV_FRESET_DONE; BUSY falls once its record has room
(R419). -/
def State.fresetEnd (s : State) : State :=
  if !s.freset.busy || s.freset.step != 7 then s
  else
    let s := (s.tags.map (·.1)).foldl State.untag s
    let s := s.each (List.range 128) fun s q => (((s.put (SQ_STAT.ENABLED q) 0).put (SQ_HEAD.INDEX q) 0).put (SQ_TAIL.INDEX q) 0)
    let s := s.each (List.range 32) fun s c => (((s.put (CQ_STAT.ENABLED c) 0).put (CQ_HEAD.INDEX c) 0).put (CQ_TAIL.INDEX c) 0)
    let s := s.each (s.luns.map (·.1)) fun s g => s.tallyReset g
    let s := { s with sqs := [], cqs := [], tags := [], cos := [], parked := [], rlh := { s.rlh with pooled := [], wbq := [], fills := [], late := [], updates := [] } }
    let s := { s with ballast := { s.ballast with waits := s.ballast.waits.filter (fun w => w.1 == 34), cosHighTold := false } }
    let s := s.each (List.range 32) State.updChanRec
    let s := (s.updTopRec 0).updTopRec 3
    let s := (s.unhold 0).unhold 1
    let s := s.raise 277 0 (s.get TOP_FRESET_STAT.ENTRIES + s.get TOP_FRESET_STAT.DROPPED * 2 ^ 16 + s.get TOP_FRESET_STAT.MODE * 2 ^ 29 + s.get TOP_FRESET_STAT.OVERFLOW * 2 ^ 30) (some .freset)
    if s.holds .freset then s.modFreset fun f => { f with step := 8 } else s.fresetFree

end Sys2Proof.Machine
end

