-- ==== Sys2Proof/Machine/Queue.lean ====
section
/-! DEFINITION. The Push port: the write window (Table 2.4), discards (R57, R204, Table 6.6), doorbells (R213, R417, Table 6.7), the slot
buffers (R206), and the doorbell shadow (R32, R59, R60). -/

namespace Sys2Proof.Machine

/-! ### Beats -/

/-- Strobes and value of the aligned 4-byte group k of a beat (R56). -/
def grpStrb (b : Beat) (k : Nat) : Nat := fld b.strb (4 * k + 3) (4 * k)
def grpVal (b : Beat) (k : Nat) : Nat := fld b.data (32 * k + 31) (32 * k)
/-- Groups wholly enabled; groups partly enabled. -/
def rung (b : Beat) : List Nat := (List.range 16).filter (fun k => grpStrb b k == 15)
def partly (b : Beat) : List Nat := (List.range 16).filter (fun k => grpStrb b k != 15 && grpStrb b k != 0)

/-- Regions of the Push port window by PSH_ADDR[15:6] (Table 2.4). -/
inductive PushRegion where
  | inline | cqHead | evHead | sqTail | reserved
deriving DecidableEq, Repr

def pushRegion (a : Nat) : PushRegion :=
  if a < 512 then .inline else if a = 512 || a = 513 then .cqHead else if a = 576 then .evHead
  else if 640 ≤ a && a < 648 then .sqTail else .reserved

/-- Beats are consecutive, and the last carries PSH_LAST (R54). -/
def wholeWrite : List Beat → Bool
  | [] => false
  | [b] => b.last
  | a :: b :: l => !a.last && b.addr.toNat == a.addr.toNat + 1 && wholeWrite (b :: l)

/-! ### Events (Table 12.6) -/

def noSqNo : Nat := 0x7F

/-- A write is discarded whole: EV_PUSH_DISCARD, and BAD of the SQ it concerns (R57, R214). -/
def State.pushDiscard (s : State) (reason addr : Nat) (sq : Option Nat) : State :=
  let s := match sq with | some q => s.bump (SQ_CNT.BAD q) 1 | none => s
  s.raise 260 0 (reason + addr * 2 ^ 8 + sq.getD noSqNo * 2 ^ 18)

/-- A doorbell is ignored: EV_DOORBELL_BAD, and BAD of an SQ (R213, R214). -/
def State.doorbellBad (s : State) (reason addr : Nat) (sq : Option Nat) (kind v : Nat) : State :=
  let s := match sq with | some q => s.bump (SQ_CNT.BAD q) 1 | none => s
  s.raise 261 0 (reason + addr * 2 ^ 8 + sq.getD noSqNo * 2 ^ 18 + kind * 2 ^ 25 + v % 2 ^ 17 * 2 ^ 40)

/-! ### Doorbells -/

/-- The reason that ignores a value v: bits [31:17], POS, then the count given. -/
def ixReason (n v : Nat) (fits : Bool) : Nat :=
  if v ≥ 2 ^ 17 then 1 else if v % 65536 ≥ n then 2 else if fits then 0 else 3

/-- Tail doorbell of SQ q (R209, R213). -/
def State.sqDoorbell (s : State) (addr q v : Nat) : State :=
  let n := s.sqN q
  let r := if !s.on (SQ_STAT.ENABLED q) then 4
    else ixReason n v (decide (ixCount n (s.sqTail q) v ≤ n - ixCount n (s.sqHead q) (s.sqTail q)))
  if r = 0 then s.put (SQ_TAIL.INDEX q) v else s.doorbellBad r addr (some q) 0 v

/-- Head doorbell of CQ c (R213, R222, R223, R225, R226). -/
def State.cqDoorbell (s : State) (addr c v : Nat) : State :=
  let n := s.cqN c
  let r := if !s.cqEnabled c then 4 else ixReason n v (decide (ixCount n (s.cqHead c) v ≤ s.cqCount c))
  if r = 0 then
    let s := s.put (CQ_HEAD.INDEX c) v
    s.modCq c fun q => { q with posted := false, retry := false, stallTold := q.stallTold && s.cqFull c }
  else s.doorbellBad r addr none 1 v

/-- Head doorbell of an event ring (R417, R418, R423). -/
def State.evDoorbell (s : State) (addr r v : Nat) : State :=
  let n := s.evN r
  let h := s.get (evF r EV_HEAD.INDEX)
  let e := ixReason n v (decide (ixCount n h v ≤ ixCount n h (s.get (evF r EV_TAIL.INDEX))))
  if e = 0 then
    let s := s.put (evF r EV_HEAD.INDEX) v
    s.modRing r fun x => { x with halted := false, holdoff := if v = h then x.holdoff else s.get (evF r EV_IRQ.HOLDOFF) != 0 }
  else s.doorbellBad e addr none (2 + r) v

/-! ### Taking a write in -/

/-- The write of an inline slot; none while it must be held for its slot buffer (R204, R206). -/
def State.takeInline (s : State) (b : Beat) (l : List Beat) : Option State :=
  let a := b.addr.toNat
  let q := a / 4
  let bad := fun (r : Nat) => some (s.pushDiscard r a (some q))
  if !wholeWrite l || decide (l.length > 4) then bad 1
  else if a % 4 != 0 || l.any (fun x => x.strb != BitVec.allOnes 64) then bad 2
  else if !s.on (SQ_STAT.ENABLED q) || !s.native q then bad 5
  else if !(s.sqOf q).slot.isEmpty then none
  else
    let n := s.sqN q
    if l.length > n - ixCount n (s.sqHead q) (s.sqTail q) then bad 7
    else some ((s.modSq q fun x => { x with slot := l.map (·.data) }).put (SQ_TAIL.INDEX q) (ixAdd n (s.sqTail q) l.length))

/-- A doorbell write. DESIGN CHOICE (log entry 95): of several groups that offend the lowest names the SQ. -/
def State.takeDoorbells (s : State) (reg : PushRegion) (b : Beat) (l : List Beat) : State :=
  let a := b.addr.toNat
  let sq0 := fun (k : Nat) => 16 * (a - 640) + k
  let beyond := (List.range 16).any (fun k => decide (k ≥ 2) && grpStrb b k != 0)
  if !wholeWrite l || decide (l.length > 1) then s.pushDiscard 1 a none
  else if reg == .evHead && beyond then s.pushDiscard 3 a none
  else match partly b with
    | k :: _ => s.pushDiscard 4 a (if reg == .sqTail then some (sq0 k) else none)
    | [] =>
      match reg with
      | PushRegion.sqTail =>
        match (rung b).find? (fun k => s.on (SQ_STAT.ENABLED (sq0 k)) && s.native (sq0 k)) with
        | some k => s.pushDiscard 6 a (some (sq0 k))
        | none => s.each (rung b) fun s k => s.sqDoorbell a (sq0 k) (grpVal b k)
      | .cqHead => s.each (rung b) fun s k => s.cqDoorbell a (16 * (a - 512) + k) (grpVal b k)
      | _ => s.each (rung b) fun s k => s.evDoorbell a k (grpVal b k)

/-- The queue engine takes a write in; none while the write must be held. -/
def State.takeWrite (s : State) (l : List Beat) : Option State :=
  match l with
  | [] => some s
  | b :: _ =>
    match pushRegion b.addr.toNat with
    | .inline => s.takeInline b l
    | .reserved => some (s.pushDiscard (if wholeWrite l then 3 else 1) b.addr.toNat none)
    | r => some (s.takeDoorbells r b l)

/-! ### The input stage and the shadow (R32, R59, R60) -/

/-- Writes go to the shadow while the top is off, from step 2 of a DEEP entry, and behind writes that are in it. -/
def State.toShadow (s : State) : Bool := !s.topOn || decide (s.tet.sleepStep ≥ 2) || !s.tet.shadow.isEmpty

def State.shadowBeats (s : State) : Nat := (s.tet.shadow.map List.length).sum

/-- A write is offered; none while it is held. DESIGN CHOICE (log 87): a write that the shadow's free space cannot take, one of more than 64
beats too, is held with PSH_READY low and fires no wake slot: another source has to wake the block (R59 sizes the shadow only). -/
def State.pushOffer (s : State) (l : List Beat) : Option State :=
  if s.toShadow then
    if s.shadowBeats + l.length > 64 then none
    else
      let s := if s.tet.shadow.isEmpty then s.fireSlot 0 else s
      some { s with tet := { s.tet with shadow := s.tet.shadow ++ [l] } }.sawWork
  else (s.takeWrite l).map State.sawWork

/-- A write at the Push port: discarded before READY and in a function reset (R58, R227); another one waits while one is held. -/
def State.pushPort (s : State) (l : List Beat) : State :=
  if !s.isReady || s.freset.busy || s.tet.waiting.isSome then s
  else (s.pushOffer l).getD { s with tet := { s.tet with waiting := some l } }

/-- A held write looks again. -/
def State.pushRetry (s : State) : State :=
  match s.tet.waiting with
  | none => s
  | some l => match s.pushOffer l with
    | some t => { t with tet := { t.tet with waiting := none } }
    | none => s

/-- The queue engine takes in the shadow's writes in their order, until one must wait (R32). -/
def State.drainShadow : Nat → State → State
  | 0, s => s
  | n + 1, s => match s.tet.shadow with
    | [] => s
    | l :: r => match s.takeWrite l with
      | some t => State.drainShadow n { t with tet := { t.tet with shadow := r } }
      | none => s

/-- PSH_READY (R59, R206). -/
def State.pshReady (s : State) : Bool := s.tet.waiting.isNone && decide (s.shadowBeats < 64)

end Sys2Proof.Machine
end

