-- ==== Sys2Proof/Machine/Stores.lean ====
section
/-! DEFINITION. Uncorrectable reads of on-chip stores (R322, R439 to R441, Table 13.8) and the staging reads of a data input burst. -/

namespace Sys2Proof.Machine

/-! ### What an uncorrectable read acts on -/

/-- An accumulator, or its spill data, is uncorrectable: no row of the stripe serves rebuilds; the append whose fold met the error ends
ST_STRIPE_DEGRADED, and without one EV_STRIPE_DEGRADED is raised (R322). -/
def State.accBad (s : State) (sid r : Nat) (tag : Option Nat) : State :=
  if (s.stripeOf sid).state = 0 then s
  else
    let s := (s.modStripe sid fun st => { st with parityLost := true }).fault (.top 2) 1 2 sid
    match tag.filter (fun t => s.openTag t && match (s.tagOf t).slot with | some (i, q, _) => i == sid && q == r | none => false) with
    | none => s.evStripeDegraded sid 1 (some (.stripe sid))
    | some t => s.modTag t fun x => { x with status := 0x36 }

/-- What a poisoned stripe leaves undone ends: its parity, its accumulators, its held appends. -/
def State.stripePoisoned (s : State) (sid : Nat) : State :=
  let s := s.dropOps (fun o => match o.role, o.stripe with
    | .parity i _ _, _ => i == sid
    | .later, some (i, _, m) => i == sid && decide (m ≥ 32) && !o.isPad && !o.pooled
    | _, _ => false)
  let s := { s with rows := s.rows.map (fun (x : Row) => if x.stripe = sid then { x with parWanted := true, noParity := true } else x) }
  let s := ((s.accs.filter (fun a => a.stripe == sid)).map (·.row)).foldl (fun s r => s.releaseAcc sid r) s
  let lost := fun (r : PassRec) => match r.stripe with | some (i, _, m) => i == sid && decide (m ≥ 32) && !r.pool && !r.isPad | none => false
  let s := s.each ((s.luns.filter (fun e => e.2.recs.any lost)).map (·.1)) fun s g => s.modLun g fun l => { l with recs := l.recs.filter (fun r => !lost r) }
  (s.openTags.filter (fun t => ((s.tagOf t).slot.map (·.1)) == some sid)).foldl (fun s t => s.later (.endTag t 0x35 4 0 0)) s

/-- A Stripe Table entry is uncorrectable: the stripe closes, its accumulators go without parity, its held appends are poisoned. -/
def State.stripePoison (s : State) (sid : Nat) : State :=
  if (s.stripeOf sid).state = 0 then s
  else
    let s := (s.modStripe sid fun st => { st with state := 2, degraded := true, parityLost := true, closing := false, stopped := true }).fault (.top 2) 2 2 sid
    ((s.recWait 34 sid).evStripeDegraded sid 3 (some (.stripe sid))).andThen (.stripe sid) (.poisoned sid) (·.stripePoisoned sid)

/-- A COS entry is uncorrectable: its completion is written with ST_DATA_POISON, detail 0x04, and no information. -/
def State.cosBad (s : State) (t : Nat) : State :=
  { s with cos := s.cos.map (fun e => if e.1 = t then (t, { e.2 with status := 0x35, detail := 4, info0 := 0, info1 := 0 }) else e) }

/-- The RLH line of a row of bank 36 is dropped with its dirty entries. -/
def State.lineBad (s : State) (row : Nat) : State :=
  { s with rlh := { s.rlh with lines := s.rlh.lines.filter (fun l => !(rlhSet l.line * 8 + l.way + queueRows == row)) } }

/-- What lies in a row: the COS has four entries a row, the Stripe Table two rows an entry, an on-chip accumulator 4,096 rows in the order
of their allocation, bank 36 the tag table and queues and then the RLH lines by set and way (Table 13.8). Answers whether the read was
uncorrectable. -/
def State.storeRead (s : State) (r : SramRead) (job : Option Nat) : Bool × State :=
  let b := r.bank.val
  if b = 35 then
    let t := [0, 1, 2, 3].findSome? (fun i => if s.cos.any (fun e => e.1 == 4 * r.row + i) then some (4 * r.row + i) else none)
    let (bad, s) := s.sramRead r t
    (bad, match t with | some t => if bad then s.cosBad t else s | none => s)
  else
    let (bad, s) := s.sramRead r (if b = 32 || b < 32 then job else none)
    if !bad then (false, s)
    else if b = 33 then
      (true, match (s.accs.filter (·.chip))[r.row / 4096]? with | some a => s.accBad a.stripe a.row job | none => s)
    else if b = 34 then (true, s.stripePoison (r.row / 2))
    else if b = 36 then (true, s.lineBad r.row)
    else (true, s)

/-! ### Staging read for a data input burst (R440) -/

/-- The store reads of a burst on channel n in order; whether one of its own staging bank was uncorrectable. A read of an accumulator is that
of the fold of the burst's page (R322). -/
def State.dinReads (s : State) (n : Nat) (owner : Option Nat) : List SramRead → Bool × State
  | [] => (false, s)
  | r :: l =>
    let (bad, s) := s.storeRead r (if r.bank.val = n || r.bank.val = 33 then owner else none)
    let (more, s) := s.dinReads n owner l
    ((bad && r.bank.val == n) || more, s)

/-- Poisoned data: the routine on LUN g ends before its COMMIT, so its pass is not confirmed. -/
def State.notConfirmed (s : State) (n g : Nat) : State :=
  match s.runOf n g with
  | none => s
  | some c =>
    if c.committed then s
    else if (s.ctxOf n).state != 0 && (s.ctxOf n).lun == g then s.routineEnd n resPoison
    else (s.dropPark g).later (.opEnd c.op resPoison 0 0)

/-- A data input burst with the store reads that met an error: poisoned staging data ends its routine. -/
def State.dinBurst (s : State) (n : Nat) (reads : List SramRead) : State :=
  match s.laneFront n .din with
  | none => s
  | some e =>
    let (bad, s) := s.dinReads n ((s.runOf n e.lun).bind (fun c => if c.op.role == .later then none else c.op.tag)) reads
    let s := s.laneDin n
    if bad && e.xfer = 0 then s.notConfirmed n e.lun else s

end Sys2Proof.Machine
end

