-- ==== Sys2Proof/Machine/Landing.lean ====
section
/-! DEFINITION. What the ends of transfers that serve no tag's data bring about: entries of the submission rings (R211), completion
writes (R222), RLH lines (R303, R306 to R308), Pool buffers and the post-reset list (Table 11.2, R400), and the wait of a failed one for
room for its event (R419). -/

namespace Sys2Proof.Machine

/-! ### Entries of the submission rings -/

/-- An entry carries the phase of its lap (R197). -/
def fresh (i : Nat) (d : Desc) : Bool := dPhase d == ixPhase i

/-- A descriptor that carries the wrong phase for an index: what a failed fetch leaves (Table 11.2). -/
def staleDesc (i : Nat) : Desc := if ixPhase i then 0 else BitVec.ofNat 512 (2 ^ 31)

/-- Entry i of an SQ enters its fetch buffer in ring order. -/
def State.insFetched (s : State) (q i : Nat) (d : Desc) : State :=
  let n := s.sqN q
  let h := s.sqHead q
  s.modSq q fun x => { x with fetched := x.fetched.filter (fun e => decide (ixCount n h e.1 < ixCount n h i)) ++ [(i, d)] ++ x.fetched.filter (fun e => decide (ixCount n h i < ixCount n h e.1)) }

/-- Descriptor k of read data. -/
def descAt (data : List Byte) (k : Nat) : Desc := BitVec.ofNat 512 (leNat ((data.drop (64 * k)).take 64))

/-- The data of a fetch of n entries from index i, none when it met an error. -/
def State.fetchedData (s : State) (q i n : Nat) (data : Option (List Byte)) : State :=
  if s.freset.busy then s
  else
    let s := s.modSq q fun x => { x with fetching := x.fetching - n }
    s.each (List.range n) fun s k =>
      let j := ixAdd (s.sqN q) i k
      s.insFetched q j (match data with | some b => descAt b k | none => staleDesc j)

/-- The data of a refetch: a fresh entry ends the wait (R211). -/
def State.refetchedData (s : State) (q i : Nat) (data : Option (List Byte)) : State :=
  if s.freset.busy then s
  else
    let d := match data with | some b => descAt b 0 | none => staleDesc i
    let s := s.insFetched q i d
    if fresh i d then s.modSq q fun x => { x with refetching := false, tries := 0 } else s

/-! ### Completion writes -/

def State.cosOf (s : State) (t : Nat) : Cpl := tabGet (fun _ => {}) s.cos t

/-- A tag's completion has been written: its COS entry goes, and the tag once its writes are answered (R222, R414). -/
def State.cplDone (s : State) (t : Nat) : State :=
  let s := { s with cos := tabDrop t s.cos }
  let s := if s.cosUsed < 2048 then { s with ballast := { s.ballast with cosHighTold := false } } else s
  ((s.recDone (fun p => p.1 == 35 && p.2 == t)).modTag t fun x => { x with phase := 99 }).tryFree t

/-- The head advance of a completion that was not written is taken back (R205). -/
def State.cplUnhead (s : State) (t : Nat) : State :=
  let c := s.cosOf t
  if c.status = 0x15 || !s.native c.sq then s else s.put (SQ_HEAD.INDEX c.sq) (ixSub (s.sqN c.sq) (s.sqHead c.sq) 1)

/-- The response of a completion write; an error takes the tail and the heads back and waits for a head doorbell (R205, R222). -/
def State.cplResponse (s : State) (c : Nat) (ok : Bool) : State :=
  if s.freset.busy then s
  else
    let ts := (s.cqOf c).issued
    if ok then ts.foldl State.cplDone (s.modCq c fun q => { q with issued := [] })
    else
      let n := s.cqN c
      let back := ixSub n (s.cqTail c) ts.length
      let s := (ts.foldl State.cplUnhead (s.put (CQ_TAIL.INDEX c) back)).modCq c fun q => { q with retry := true }
      s.modCq c fun q => { q with stallTold := q.stallTold && s.cqFull c }

/-! ### RLH lines (R303, R306 to R308) -/

/-- Staged lines go out to the table one at a time as the write-back queue has room (R307). -/
def State.poolLineNext (s : State) : State :=
  if s.rlh.wbq.length ≥ 32 || s.rlh.pooled.any (fun p => p.stage == 2) then s
  else match s.rlh.pooled.find? (fun p => p.stage == 1) with
  | none => s
  | some p =>
    { s with rlh := { s.rlh with pooled := s.rlh.pooled.map (fun (x : PoolLine) => if x = p then { x with stage := 2 } else x) } }.ask
      (spoolRead 1 36 (s.bufAddr (.rlhEvict p.tag) + 64 * p.slot) 64 (.rlhPool p.tag p.line.line))

/-- A staged line leaves its buffer, which is freed with its last line. -/
def State.poolLineDrop (s : State) (tag line : Nat) : State :=
  let s := { s with rlh := { s.rlh with pooled := s.rlh.pooled.filter (fun p => !(p.tag == tag && p.line.line == line)) } }
  if s.rlh.pooled.any (fun p => p.tag == tag) then s else s.freeUse (.rlhEvict tag)

/-- A staged line has reached its buffer or come back from it; an error loses it (Table 11.2). -/
def State.poolLineMoved (s : State) (tag line : Nat) (data : Option (List Byte)) (ok : Bool) : State :=
  if !ok then ((s.poolLineDrop tag line).syncLine line).poolLineNext
  else
    let mine := fun (p : PoolLine) => p.tag == tag && p.line.line == line
    match data, s.rlh.pooled.find? mine with
    | some b, some p =>
      let l := { p.line with entries := (List.range 16).map fun i => BitVec.ofNat 32 (leNat ((b.drop (4 * i)).take 4)) }
      ({ s with rlh := { s.rlh with pooled := s.rlh.pooled.map (fun (x : PoolLine) => if mine x then { x with stage := 3, line := l } else x) } }.bump GEO_RLHC_WB.COUNT 1).ask (wbRequest s.rlhBase l)
    | _, _ => { s with rlh := { s.rlh with pooled := s.rlh.pooled.map (fun (x : PoolLine) => if mine x then { x with stage := 1 } else x) } }.poolLineNext

/-- The response of a write-back: the entries it carried become clean, unless they changed since (R306, R308); a function reset or a DEEP
entry writes such a line again. -/
def State.lineWritten (s : State) (line mask : Nat) : State :=
  let s := match s.rlh.pooled.find? (fun p => p.stage == 3 && p.line.line == line) with
    | some p => s.poolLineDrop p.tag line
    | none => match s.rlh.wbq.find? (fun (l : RlhLine) => l.line == line && l.dirty.toNat == mask) with
      | some l => { s with rlh := { s.rlh with wbq := s.rlh.wbq.erase l } }
      | none => s.modLine line fun l => { l with dirty := l.dirty &&& (~~~ BitVec.ofNat 16 mask ||| l.again) }
  let s := if (s.freset.busy && s.freset.step == 4 || s.tet.sleepStep == 3) && !s.wbOut line then s.writeBack line else s
  (s.syncLine line).poolLineNext

/-- A fill has returned: the line waits for its way, or its readers go on with the default set (R303). -/
def State.fillLanded (s : State) (line : Nat) (data : Option (List Byte)) : State :=
  match data with
  | some b => { s with rlh := { s.rlh with landed := s.rlh.landed ++ [(line, b)] } }
  | none =>
    let ids := (s.rlh.fills.filter (fun f => f.1 == line)).map (·.2)
    let s := { s with rlh := { s.rlh with fills := s.rlh.fills.filter (fun f => f.1 != line), late := s.rlh.late.filter (fun f => f.1 != line), updates := s.rlh.updates.filter (fun u => u.index / 16 != line) } }
    ids.foldl (fun s id => s.fillEnds id false) s

/-! ### Other untagged traffic (Table 11.2) -/

/-- Spill traffic of a row met an error: as an uncorrectable accumulator (Table 11.2); a DEEP entry that spills is abandoned (Table 14.4). -/
def State.spillBad (s : State) (sid r : Nat) (tag : Option Nat) : State :=
  let s := if s.tet.sleepStep = 3 then s.sleepAbandon 8 else s
  s.accBad sid r tag

/-- A piece of a soft-read buffer was not written or read back (R295). -/
def State.softLost (s : State) (id cw : Nat) : State :=
  match s.readOf id with
  | none => s
  | some r =>
    if r.ended || !r.xfers.contains cw then s
    else if s.softOut id cw then s.modRead id fun r => r.modCw cw (fun c => { c with lost := true })
    else s.softFail id cw

/-- A page's record buffer was not written whole: its later pass counts as one with a digest mismatch (R326). -/
def State.recordLost (s : State) (g e q : Nat) : State :=
  { s with ops := s.ops.map (fun (o : Op) => if o.pooled && o.loc.lun == g && o.loc.eb == e && o.loc.page == q then { o with digest := 1 } else o) }

/-- EV_DMA_ERROR of traffic whose tag is no longer held (R400). -/
def State.dmaError (s : State) (r : Spool) (err : Nat) (h : Option Holder) : State := s.dmaErrorEvent r err false 0xFFF h

/-- A Block Substitution record could not be read or written: as with no qualifying entry (R192). -/
def State.subRecordLost (s : State) (j : Nat) : State :=
  match s.subOf j with
  | some x => if x.phase = 1 || x.phase = 2 then s.subNoSpare j true else s
  | none => s

/-- A piece of a page's data has come back for its later pass, under key k. -/
def State.recPiece (s : State) (g e q k : Nat) (data : Option (List Byte)) : State :=
  let s := s.modRec g e q fun r => { r with left := r.left - 1, bad := r.bad || data.isNone, got := match data with | some b => tabIns k b (tabDrop k r.got) | none => r.got }
  match s.recOf g e q with
  | some r => if r.reading && r.left = 0 then s.recRead g e q else s
  | none => s

/-- What a failed transfer of traffic that carries no tag's data brings about (Table 11.2, R222, R303, R308). -/
def State.workLost (s : State) (c : Cont) : State :=
  match c with
  | .cpl c _ => s.cplResponse c false
  | .fetch q i n => s.fetchedData q i n none
  | .refetch q i => s.refetchedData q i none
  | .rlhFill line _ => s.fillLanded line none
  | .rlhWb line mask => s.lineWritten line mask
  | .rlhPool t line => s.poolLineMoved t line none false
  | .spill sid row t => s.spillBad sid row t
  | .stageSoft id cw => s.softLost id cw
  | .stageRac id cw => s.racBad id cw
  | .record g e q => s.recordLost g e q
  | .list => if s.freset.busy then s.fresetWrote false else s
  | .later g e q off _ _ => s.recPiece g e q off none
  | .laterMeta g e q off _ _ => s.recPiece g e q (metaKey + off) none
  | .bstRead j => s.subRecordLost j
  | .bstWrite j _ _ => s.subRecordLost j
  | _ => s

/-- The tag that an error on such traffic names: the held tag whose page is read again for its later pass. -/
def State.contTag (s : State) (c : Cont) : Nat :=
  let own := fun (g e q : Nat) => (((s.recOf g e q).bind (·.tag)).filter (fun t => (s.tagOf t).held && !(s.tagOf t).inserted)).getD 0xFFF
  match c with
  | .later g e q _ _ _ => own g e q
  | .laterMeta g e q _ _ _ => own g e q
  | _ => 0xFFF

/-- Such a transfer has failed: its event is raised, and what follows waits where the event does (R419). -/
def State.transferLost (s : State) (r : Spool) (err : Nat) : State :=
  let s := s.dmaErrorEvent r err false (s.contTag r.cont) (some (.work r.cont))
  if s.holds (.work r.cont) then s else s.workLost r.cont

/-- Traffic whose failure workLost carries out. -/
def Cont.own (c : Cont) : Bool := match c with
  | .cpl _ _ => true | .fetch _ _ _ => true | .refetch _ _ => true | .rlhFill _ _ => true | .rlhWb _ _ => true | .rlhPool _ _ => true
  | .later _ _ _ _ _ _ => true | .laterMeta _ _ _ _ _ _ => true | .bstRead _ => true | .bstWrite _ _ _ => true
  | .spill _ _ _ => true | .stageSoft _ _ => true | .stageRac _ _ => true | .record _ _ _ => true | .list => true | _ => false

end Sys2Proof.Machine
end

