-- ==== Sys2Proof/Machine/Settle.lean ====
section
/-! DEFINITION. What every command ends with: the consequences that fall due within it are carried out, work that waited
looks again, and the interrupt pins and PSH_READY follow (R423, R206). `live` is the frame of every command's meaning (R89). -/

namespace Sys2Proof.Machine

/-- A buffer has been granted: its need goes on, or it is given back where nothing wants it any more. -/
def State.granted (s : State) (u : PoolUse) : State :=
  if s.freset.busy then s.freeUse u
  else match u with
  | .soft id cw => match s.readOf id with
    | some r =>
      if r.ended || !r.xfers.contains cw then s.freeUse u
      else s.softGo id
    | none => s.freeUse u
  | .recon id cw => match s.racOf id with
    | some _ => if cw = 0x100 then (s.modRac id fun k => { k with sharing := false }).racReady id else s.racGranted id
    | none => s.freeUse u
  | .rlhEvict t => if s.openTag t || s.rlh.pooled.any (fun p => p.tag == t) then s else s.freeUse u
  | .spill sid r => s.spillGranted sid r
  | .record g e q => s.recordGranted g e q

/-- One consequence. -/
def State.doTodo (s : State) (t : Todo) : State :=
  match t with
  | .inserted t => if s.freset.busy then s else s.onInserted t
  | .lunFenced g => s.fenceWork g false false
  | .chanFenced n => s.chanFenceWork n (s.untrained n)
  | .quadFenced q => (s.quadFenceWork q).pllOff q
  | .spareRow b r bad => s.spareRow b r bad
  | .endTag t st d a b => s.endTag t st d a b
  | .poisoned sid => if s.freset.busy then s else s.stripePoisoned sid
  | .stopped sid r m => if s.freset.busy then s else s.stopEnds sid r m
  | .passOver g e q halt => if s.freset.busy then s else s.passOver g e q halt
  | .halted g e => if s.freset.busy then s else s.haltOver g e
  | .lostOver j => s.lostOver j
  | .subDone j deg tags => s.subDone j deg tags
  | .released h => let s := s.unholdWork h; match h with
    | .tag t => s.tryFree t
    | .freset => if s.freset.busy && s.freset.step = 8 then s.fresetFree else s
    | .work c => s.workLost c
    | _ => s
  | .readDone id => s.readDone id
  | .racEnd id => s.racEnd id
  | .racGo id => s.racPush id
  | .step4 id => s.step4 id
  | .granted u => s.granted u
  | .tagCheck t => s.tagPush t
  | .eraseGo g w => if s.freset.busy then s else s.eraseGo g w
  | .eraseOver g w ok => if s.freset.busy then s else s.eraseOver g w ok
  | .intentBad g w => if s.freset.busy then s else s.intentBad g w
  | .subSourced j bad => s.subSourced j bad
  | .scanned t b => s.scanSend t b
  | .opEnd o r a b => if s.freset.busy then s.fresetOpEnd o r a b else s.opEnd o r a b

/-- Consequences in order, while fuel lasts. -/
def State.doTodos : Nat → State → State
  | 0, s => s
  | n + 1, s => match s.todo with
    | [] => s
    | t :: l => State.doTodos n ({ s with todo := l }.doTodo t)

/-! ### Work that waits -/

/-- Lines that wait for a way of the cache. -/
def State.fillsLand (s : State) : State :=
  s.rlh.landed.foldl (fun s (line, data) =>
    let ids := (s.rlh.fills.filter (fun f => f.1 == line)).map (·.2)
    let tags := ids.filterMap (fun i => (s.readOf i).bind (·.tag)) ++ (s.rlh.late.filter (fun f => f.1 == line)).map (·.2)
    let (ok, s) := s.rlhInstall line (tags.find? s.openTag) data
    if !ok then s
    else
      let s := { s with rlh := { s.rlh with landed := s.rlh.landed.filter (fun x => x.1 != line), fills := s.rlh.fills.filter (fun f => f.1 != line), late := s.rlh.late.filter (fun f => f.1 != line) } }
      ids.foldl (fun s id => s.fillEnds id false) (s.rlhUpdates line)) s

/-- Lines that are wanted and neither cached nor on their way are asked for as miss slots come free (R305). -/
def State.fillsAsk (s : State) : State :=
  let want := s.rlh.fills.map (·.1) ++ s.rlh.updates.map (·.index / 16)
  want.foldl (fun s line =>
    if (s.rlhLine line).isSome || s.rlh.landed.any (fun x => x.1 == line) then s else s.askFill line) s

/-- Substitutions that take their turn, or are done. -/
def State.subsPush (s : State) : State :=
  s.subs.foldl (fun s x =>
    if x.phase = 0 then s.subStart x.id else if x.phase = 6 && !s.holds (.sub x.id) then s.subFinish x.id else s) s

/-- First passes that may start and fold but find no on-chip accumulator free: one is spilled, or a buffer asked for (R321). -/
def State.accsPush (s : State) : State :=
  s.ops.foldl (fun s o => match o.stripe with
    | some (sid, r, m) =>
      if m < 32 && o.isFirst && !o.isSubst && !o.folded && !s.accFree && s.oncePass o && s.mayStartBut o && (s.stripeOf sid).state != 0 && !((s.rowOf sid r).map (·.noParity)).getD false then s.needAcc sid r else s
    | none => s) s

/-- LUNs whose agent or pass records may go on. -/
def State.lunsPush (s : State) : State :=
  if s.freset.busy then s
  else s.luns.foldl (fun s (g, l) =>
    let shut := s.isFenced g || s.deadChan (lunChan g)
    let s := if (l.tally.cur.toList ++ l.tally.queue).all (fun w => shut && w.isPool) then s else s.tallyGo g
    if l.recs.isEmpty then s else (s.stopPads g).passPush g) s

/-- A stripe entry's recovery lasts until the stripe is closed (Table 13.5). DEDUCED (log 86): once its held appends have ended (R441). -/
def State.stripeRec (s : State) : State :=
  s.recDone (fun w => w.1 == 34 && (s.stripeOf w.2).state != 1 && !s.openTags.any (fun t => ((s.tagOf t).slot.map (·.1)) == some w.2))

/-- EV_PWR_ACK_LATE of the handshakes that PD_TOP itself waited for (R80). -/
def State.tellLate (s : State) : State :=
  s.tet.lateTold.foldl (fun s info => s.raise 281 1 info) { s with tet := { s.tet with lateTold := [] } }

/-- Everything that waits looks again, while the top runs and has not halted. -/
def State.house (s : State) : State :=
  if !s.topOn || s.halted then s
  else
    let s := s.tellLate
    let s := s.retryParked.sweepDead.fillsLand.fillsAsk.pushRetry
    let s := (s.each (List.range 8) State.zqBegin).each (s.chans.map (·.1)) State.zqLook
    let s := if s.freset.busy then s else ((s.openTags.foldl State.tagPush s).subsPush.accsPush)
    let s := (s.lunsPush.each (List.range 8) State.quadPolicy).updPar.updPairs
    (s.wakeDone.holdPush.fresetPush).stripeRec

/-- Interrupt r is asserted (R423). -/
def State.irq (s : State) (r : Nat) : Bool :=
  let p := ixCount (s.evN r) (s.get (evF r EV_HEAD.INDEX)) (s.get (evF r EV_TAIL.INDEX))
  let c := s.get (evF r EV_IRQ.COUNT)
  s.usable pdTop && decide (p > 0) && (!(s.ringOf r).holdoff || (c != 0 && decide (p ≥ c)))

def State.setIrqs (s : State) : State :=
  { s with pins := { s.pins with irqN := !s.irq 0, irqF := s.irq 1, pshReady := s.pshReady } }

def State.settleLoop : Nat → State → State
  | 0, s => s
  | n + 1, s =>
    let s := (State.doTodos 4096 s).house
    if s.todo.isEmpty then s else State.settleLoop n s

/-- The requests that became ready in the command go behind the older ones, in ascending stream ID (R395). DESIGN CHOICE (log 7): what one
command brings about falls in one cycle. -/
def State.spoolSort (s : State) : State :=
  let new := s.ready.filter (·.fresh)
  { s with ready := s.ready.filter (!·.fresh) ++ new.foldl (fun l r => insBy Spool.sid { r with fresh := false } l) [] }

/-- The end of a command. -/
def State.settle (s : State) : State := (State.settleLoop 64 (State.doTodos 4096 s).house).spoolSort.snapAll.setIrqs

/-! ### The frame of a command -/

/-- A functional command: none while TEST_MODE is high (R89); while RESET_N is low it finds the block in reset (R50). -/
def live (s : State) (f : State → State) : Host.Outcome State Fault Refusal :=
  if s.pins.testMode then .fault .testMode else .next (if s.pins.resetN then (f s).settle else s)

/-- A command of the controller top, which is off in DEEP and before its stores are filled (R460, R471). -/
def liveTop (s : State) (f : State → State) : Host.Outcome State Fault Refusal :=
  live s (fun s => if s.topOn then f s else s)

end Sys2Proof.Machine
end

