-- ==== Sys2Proof/Machine/Startup.lean ====
section
/-! DEFINITION. Reset, start-up (R475 to R477), the fuse port (R81 to R83), power and clock handshakes (R49, R79, R80), the wake
slots (R426, R427) and the power-fail latch. -/

namespace Sys2Proof.Machine

/-! ### RESET_N (R50) -/

/-- RESET_N falls: everything takes its reset value; the levels that others drive stay. -/
def State.resetAssert (s : State) : State :=
  { State.reset with pending := s.pending, freeCount := s.freeCount, pins := { testMode := s.pins.testMode, pwrfailN := s.pins.pwrfailN, wakeN := s.pins.wakeN, pwrAck := s.pins.pwrAck, cclkAck := s.pins.cclkAck } }

/-- TEST_MODE and RESET_N are high: every PWR_REQ[10 + q] is raised (R79) and no other, and the pads stay safe (R90). -/
def State.testPower (s : State) : State :=
  if s.pins.testMode && s.pins.resetN then
    (s.each (List.range 8) fun s q => if s.pins.pwrReq.getLsbD (pdP q) || s.pins.pwrAck.getLsbD (pdP q) then s else s.setReq (pdP q) true).allSafe
  else s

/-- The boundary-scan chain of quad q can be accessed (R90). -/
def State.chainOpen (s : State) (q : Nat) : Bool :=
  s.pins.testMode && s.pins.resetN && s.pins.pwrReq.getLsbD (pdP q) && s.pins.pwrAck.getLsbD (pdP q)

/-- RESET_N rises: FAULT_N rises, and start-up begins, but for TEST_MODE (R90). -/
def State.resetDeassert (s : State) : State :=
  if s.pins.resetN then s
  else if s.pins.testMode then { s with pins := { s.pins with resetN := true, faultN := true } }.testPower
  else ({ s with pins := { s.pins with resetN := true, faultN := true }, tet := { s.tet with starting := true } }).put TET_STARTUP.STEP 1

/-- RESET_N_ASSERT. -/
def execResetNAssert (s : State) : Host.Outcome State Fault Refusal := .next s.resetAssert

/-- RESET_N_DEASSERT. -/
def execResetNDeassert (s : State) : Host.Outcome State Fault Refusal := .next s.resetDeassert

/-! ### The Trim Row (R81 to R83) -/

def State.trimWord (s : State) (w : Nat) : Word32 := s.tet.trim.getD w 0

/-- Repair entries as (word, bank, row). -/
def State.repairs (s : State) : List (Nat × Nat × Nat) :=
  ((List.range 13).map (· + 18)).filterMap fun w =>
    if bit (s.trimWord w) 31 then some (w, fld (s.trimWord w) 30 25, fld (s.trimWord w) 19 0) else none

/-- The failing word of the check, 0xFF for CHECK; none when the row is good. -/
def State.trimFault (s : State) : Option Nat :=
  let bytes := (s.tet.trim.take 31).flatMap (fun (w : Word32) => natLe 4 w.toNat)
  let r := s.repairs
  if crc32c bytes != s.trimWord 31 then some 0xFF
  else if fld (s.trimWord 0) 7 0 != 1 then some 0
  else match r.find? (fun x => decide (x.2.1 > 36)) with
    | some x => some x.1
    | none => (r.zipIdx.find? (fun (x, i) => decide ((r.take (i + 1)).countP (fun y => y.2.1 == x.2.1) > 16))).map (·.1.1)

/-- The load or its check fails: TRIM_BAD, and start-up ends; FUSE_REQ stays as it is (Table 2.13). -/
def State.trimBad (s : State) (ctx : Nat) : State :=
  let s := { s with tet := { s.tet with starting := false } }
  ((s.capture (.top 5) 1 3 ctx false).put TET_STARTUP.FAILED 1).fatal fatalTrim

/-- Factory repairs take the spare rows in entry order, and the read DQS delays their trims. -/
def State.trimApply (s : State) : State :=
  let s := s.repairs.foldl (fun s (_, b, row) =>
    let k := s.get (BAL_BANK.USED b)
    { s.put (BAL_BANK.USED b) (k + 1) with ballast := { s.ballast with rowMap := s.ballast.rowMap ++ [(b, row, k)] } }) s
  s.each (List.range 32) fun s n => s.put (CH_RDQS.DLY n) (fld (s.trimWord (9 + n / 4)) (8 * (n % 4) + 7) (8 * (n % 4)))

def State.fuseWord (s : State) (data : Word32) : State :=
  if !s.pins.fuseReq || !s.tet.starting then s
  else
    let s := { s with tet := { s.tet with trim := s.tet.trim ++ [data] } }
    if s.pins.fuseAddr < 31 then { s with pins := { s.pins with fuseAddr := s.pins.fuseAddr + 1 } }
    else
      let s := { s with pins := { s.pins with fuseReq := false } }
      match s.trimFault with
      | some x => s.trimBad x
      | none => s.trimApply

/-- FUSE_ACK. -/
def execFuseAck (data : Word32) (s : State) : Host.Outcome State Fault Refusal := live s (·.fuseWord data)

/-- FUSE_TIMEOUT: a word not acknowledged fails the load. -/
def execFuseTimeout (s : State) : Host.Outcome State Fault Refusal :=
  live s fun s => if s.pins.fuseReq && s.tet.starting then s.trimBad s.pins.fuseAddr else s

/-! ### Start-up steps (R475, Table 14.7) -/

/-- The requests that step 4 raises: every domain whose acknowledge is low, none before PD_TOP's, no PD_Pq before PD_Qq's (R79, R460). -/
def Pins.asks (p : Pins) : BitVec 28 :=
  let all := p.pwrReq ||| ~~~p.pwrAck
  if all.getLsbD pdTop then p.pwrReq ||| (~~~p.pwrAck &&& (0xFFC03FF#28 ||| ((all &&& 0x3FC#28) <<< 8))) else p.pwrReq

/-- Step 4: every domain and CCLK are asked for, one whose acknowledge is still high once it has fallen (R49, R79). -/
def State.powerAll (s : State) : State :=
  { s with pins := { s.pins with pwrReq := s.pins.asks, cclkReq := s.pins.cclkReq || !s.pins.cclkAck } }

/-- Step 4 asks again as acknowledges fall. -/
def State.powerMore (s : State) : State :=
  if s.tet.starting && s.get TET_STARTUP.STEP = 4 then s.powerAll else s

/-- Step 5 ends: PLLs and long calibrations; SDR counts as trained. -/
def State.startPhy (s : State) (r : StartupReport) : State :=
  let s := r.cal.zipIdx.foldl (fun s (c, q) => if q < 8 then ((s.pllLock q).calCodes q c) else s) s
  s.each (List.range 32) fun s n => s.put (CH_MODE_STAT.TRAINED n) 1

/-- Step 7: the SRAM checkers (R444). -/
def State.checkBanks (s : State) (r : StartupReport) : State :=
  r.banksBad.foldl (fun s (b, res) =>
    if h : b.val < 32 then
      ((s.capture (.chan ⟨b.val, h⟩) 0x0A 2 res.toNat false).fenceChan b.val).evSramUe (b.val / 4) b.val 0 0xFFF true false
    else (s.capture (.top 4) 3 3 b.val false).fatal fatalSelftest) s

/-- Step 8: the decoder slices (R29, R30, R445). -/
def State.checkSlices (s : State) (r : StartupReport) : State :=
  let en := (List.range 18).filter (fun i => (s.trimWord 17).getLsbD i)
  let bad := r.slicesBad.filter (fun x => en.contains x.1.val)
  let s := bad.foldl (fun s (sl, v, cnt) => (s.capture (.slice sl) 0x10 2 v.toNat false).evSlice sl.val 1 (v.toNat + cnt % 256 * 2 ^ 8)) s
  let ok := en.filter (fun i => !bad.any (fun x => x.1.val == i))
  let s := s.each (ok.take 16) fun s i => s.modSlice i fun x => { x with st := sliceActive }
  let s := s.each (ok.drop 16) fun s i => s.modSlice i fun x => { x with st := sliceSpare }
  if ok.isEmpty then (s.capture (.top 3) 2 3 0 false).fatal fatalNoDecoder else s

/-- Step 9: the Chanters' stores (R156, R449, R451). -/
def State.checkChanters (s : State) (r : StartupReport) : State :=
  let bad : BitVec 9 := if romOk then r.romBad else BitVec.allOnes 9
  let (crc, s) := if r.romBad.getLsbD 0 then s.draw else (romCrc, s)
  let s := (s.put PAT_STAT.ROMCHK_FAIL bad.toNat).setReg PAT_ROM_CRC.adr crc
  let s := { s with ballast := { s.ballast with spcOk := !bad.getLsbD 8 } }
  ([0, 1, 2, 3, 4, 5, 6, 7] : List (Fin 8)).foldl (fun s q => if bad.getLsbD q.val then s.declareChanter q 16 else s) s

/-- Step 10: READY with its reports (R30, R451, R477), or FAILED (R476). -/
def State.startEnd (s : State) : State :=
  let s := ({ s with tet := { s.tet with starting := false } }).put TET_STARTUP.TIME (min s.us 65535)
  if s.reg BAL_FATAL.adr != 0 then s.put TET_STARTUP.FAILED 1
  else
    let s := (s.put TET_STARTUP.READY 1).put TET_PWR_STAT.BLOCK blockActive
    let s := if (s.sliceIds sliceActive).length < 16 then s.evSpareExhausted 2 0 else s
    let s := if s.ballast.spcOk then s else s.evSpareExhausted 3 8
    if s.ballast.spcQuad.isSome then s else s.release pdSpc

/-- The step in progress ends and the next begins. -/
def State.startStep (s : State) (r : StartupReport) : State :=
  let go := fun (s : State) (k : Nat) => s.put TET_STARTUP.STEP k
  if !s.tet.starting then s
  else match s.get TET_STARTUP.STEP with
  | 1 => go s 2
  | 2 => go { s with pins := { s.pins with fuseReq := true, fuseAddr := 0 } } 3
  | 3 => if s.tet.trim.length = 32 then go s.powerAll 4 else s
  | 4 => if s.pins.pwrReq &&& s.pins.pwrAck = BitVec.allOnes 28 ∧ (s.pins.cclkReq && s.pins.cclkAck) = true then go s 5 else s
  | 5 => go (s.startPhy r) 6
  | 6 => go { s with tet := { s.tet with usable := BitVec.allOnes 28 } } 7
  | 7 => go (s.checkBanks r) 8
  | 8 => go (s.checkSlices r) 9
  | 9 => (go (s.checkChanters r) 10).startEnd
  | _ => s

/-- STARTUP_STEP. -/
def execStartupStep (r : StartupReport) (s : State) : Host.Outcome State Fault Refusal := live s (·.startStep r)

/-! ### Handshakes (R49, R79, R80) -/

/-- PWR_ACK_RISE; in TEST_MODE it opens a quad's chain (R90). -/
def execPwrAckRise (d : Fin 28) (s : State) : Host.Outcome State Fault Refusal :=
  if s.pins.testMode then .next (s.ackRise d.val).setIrqs else live s (·.ackRise d.val)

/-- PWR_ACK_FALL: while RESET_N is low the SoC takes its levels back too; in TEST_MODE a request that waited for it is raised. -/
def execPwrAckFall (d : Fin 28) (s : State) : Host.Outcome State Fault Refusal :=
  .next (if s.pins.testMode then (s.ackFall d.val).testPower
    else if s.pins.resetN then (s.ackFall d.val).powerMore.settle else s.ackFall d.val)

def State.cclkRise (s : State) : State :=
  if s.pins.cclkReq && !s.pins.cclkAck then
    { s with pins := { s.pins with cclkAck := true }, tet := { s.tet with late := putBit s.tet.late 28 false } } else s
def State.cclkFall (s : State) : State :=
  if !s.pins.cclkReq && s.pins.cclkAck then { s with pins := { s.pins with cclkAck := false } } else s

/-- CCLK_ACK_RISE. -/
def execCclkAckRise (s : State) : Host.Outcome State Fault Refusal := live s State.cclkRise

/-- CCLK_ACK_FALL. -/
def execCclkAckFall (s : State) : Host.Outcome State Fault Refusal :=
  if s.pins.testMode then .fault .testMode else .next (if s.pins.resetN then s.cclkFall.powerMore.settle else s.cclkFall)

/-- An acknowledge is later than R80: told once per handshake, once PD_TOP takes records. -/
def State.ackLate (s : State) (i excess : Nat) : State :=
  let waits := if i = 28 then s.pins.cclkReq && !s.pins.cclkAck else s.pins.pwrReq.getLsbD i && !s.pins.pwrAck.getLsbD i
  if !waits || s.tet.late.getLsbD i then s
  else
    let s := { s with tet := { s.tet with late := putBit s.tet.late i true } }
    let s := (s.bump TET_ACK_CNT.LATE 1).capture (.top 5) 3 1 i false
    let info := i % 28 + (i / 28) * 2 ^ 5 + min excess 65535 * 2 ^ 16
    if s.topOn then s.raise 281 1 info else { s with tet := { s.tet with lateTold := s.tet.lateTold ++ [info] } }

/-- PWR_ACK_LATE. -/
def execPwrAckLate (i : Fin 29) (excess : Nat) (s : State) : Host.Outcome State Fault Refusal := live s (·.ackLate i.val excess)

/-- STORE_FILL_DONE. -/
def execStoreFillDone (d : Fin 28) (s : State) : Host.Outcome State Fault Refusal := live s (·.filled d.val)

/-! ### TEST_MODE (R89, R90) -/

/-- TEST_MODE rises (R90): the requests and the safe state of `testPower` while RESET_N is high. -/
def execTestModeHigh (s : State) : Host.Outcome State Fault Refusal := .next { s with pins := { s.pins with testMode := true } }.testPower

/-! ### WAKE_N and the wake timer (R426, R427) -/

def State.wakeFall (s : State) : State :=
  let s := { s with pins := { s.pins with wakeN := false } }
  let near := match s.tet.lastWake with | some t => decide ((s.now - t) * 16 < s.get TET_WAKEN_CTRL.GAP * 25) | none => false
  if s.on TET_WAKEN_STAT.MASKED || near then s.bump TET_WAKEN_STAT.IGNORED 1
  else ({ s with tet := { s.tet with lastWake := some s.now, windows := s.tet.windows ++ [false] } }).fireSlot 1

/-- IDLE_WIN of the oldest accepted edge ends. -/
def State.wakeWindow (s : State) : State :=
  match s.tet.windows with
  | [] => s
  | seen :: l =>
    let s := { s with tet := { s.tet with windows := l } }
    if seen then s.put TET_WAKEN_STAT.IDLE 0
    else
      let k := min (s.get TET_WAKEN_STAT.IDLE + 1) 15
      let s := s.put TET_WAKEN_STAT.IDLE k
      if decide (s.get TET_WAKEN_CTRL.IDLE_MAX ≤ k) && !s.on TET_WAKEN_STAT.MASKED then (s.put TET_WAKEN_STAT.MASKED 1).raise 279 1 k else s

/-- WAKE_N_FALL. -/
def execWakeNFall (s : State) : Host.Outcome State Fault Refusal := live s State.wakeFall

/-- WAKE_N_IDLE_WINDOW. -/
def execWakeNIdleWindow (s : State) : Host.Outcome State Fault Refusal := live s State.wakeWindow

/-- WAKE_TIMER_FIRE: Tether time reaches TET_WAKE_TIMER. -/
def execWakeTimerFire (s : State) : Host.Outcome State Fault Refusal := live s (·.fireSlot 3)

/-! ### Power-fail (R478 to R480) -/

/-- PWRFAIL_LATCH: PWRFAIL_N low sets the latch. -/
def execPwrfailLatch (s : State) : Host.Outcome State Fault Refusal :=
  live s fun s =>
    let s := { s with pins := { s.pins with pwrfailN := false } }
    if s.on TET_PWRFAIL.LATCH then s else s.latchSet

/-- HOLDUP_EXPIRY. -/
def execHoldupExpiry (s : State) : Host.Outcome State Fault Refusal := live s State.holdExpire

end Sys2Proof.Machine
end

