-- ==== Sys2Proof/Machine/Setup.lean ====
section
/-! DEFINITION. The setup port (R15 to R18, R51 to R53, R484 to R487): what a write stores, by access code and by the rules of
single fields; patch writes (R157, R158, R163); and what a read returns. -/

namespace Sys2Proof.Machine

/-! ### Which registers answer -/

/-- The domain that holds a register; none for PD_TET. -/
def regDomain (a : Nat) : Option Nat :=
  if 0x1000 ≤ a ∧ a < 0x2000 then none
  else if 0x10000 ≤ a ∧ a < 0x90000 then some (pdQ (a / 0x10000 - 1))
  else some pdTop

/-- The access reaches a register whose domain is on (R52, R53). -/
def State.answers (s : State) (a : Nat) : Bool :=
  s.pins.resetN && (match regRow a, regDomain a with
    | some _, some d => s.powered d
    | some _, none => true
    | none, _ => false)

/-! ### The stored word -/

def State.locked (s : State) : Bool := s.on TOP_CTRL.LOCK

/-- A write by the access codes of Table 0.3. -/
def codedWord (r : RegRow) (lock : Bool) (old w : Word32) : Word32 :=
  let m := BitVec.ofNat 32 (if lock then r.rw else r.rw + r.rwl)
  (sel m w old &&& ~~~ (w &&& BitVec.ofNat 32 r.w1c)) ||| (w &&& BitVec.ofNat 32 r.w1s)

/-- Field f keeps its old value when the written one is not allowed. -/
def keepIf (f : Fld) (bad : Nat → Bool) (old new : Word32) : Word32 :=
  if bad (fld new f.hi f.lo) then putFld new f.hi f.lo (fld old f.hi f.lo) else new

/-- An address of a repeated register. -/
def isReg (a base stride n : Nat) : Bool := decide (base ≤ a) && (a - base) % stride == 0 && decide ((a - base) / stride < n)
def inQuad (a : Nat) : Nat := if 0x10000 ≤ a ∧ a < 0x90000 then a % 0x10000 else 0
def regQuad (a : Nat) : Nat := a / 0x10000 - 1
/-- Offset within a channel block, 0xFFFF elsewhere; the channel. -/
def inChan (a : Nat) : Nat := if 0x4000 ≤ inQuad a ∧ inQuad a < 0x8000 then inQuad a % 0x1000 else 0xFFFF
def regChan (a : Nat) : Nat := 4 * regQuad a + (inQuad a - 0x4000) / 0x1000

/-- Rules of single fields. -/
def State.fieldRules (s : State) (a : Nat) (old new : Word32) : Word32 :=
  if a = TOP_FRESET_LIST_N.adr then keepIf TOP_FRESET_LIST_N.CAP (fun v => decide (v > 4096)) old new
  else if a = TET_PWR_CTRL.adr then keepIf TET_PWR_CTRL.B_MIN (fun v => v == 0 || decide (v > 8)) old new
  else if a = TET_HOLDUP.adr then keepIf TET_HOLDUP.TIME (fun v => decide (v > 10000)) old new
  else if a = TET_PWRFAIL.adr then putFld new 31 31 (fld old 31 31)
  else if isReg a 0x1060 4 8 then keepIf (TET_QPOL.IDLE_DLY 0) (· == 0) old new
  else if a = TET_WAKEN_CTRL.adr then keepIf TET_WAKEN_CTRL.IDLE_MAX (· == 0) old new
  else if isReg a 0x2100 4 10 then sel (BitVec.ofNat 32 (if a = 0x2120 then 0x84000000 else if a = 0x2124 then 1 else 0)) old new
  else if a = 0x2000 ∨ a = 0x2004 ∨ a = 0x2008 then (if s.on EV_STAT.ENABLED then old else new)
  else if a = 0x3000 ∨ a = 0x3004 ∨ a = 0x3008 then (if s.on FEV_STAT.ENABLED then old else new)
  else if 0x4000 ≤ a ∧ a < 0x5000 then (if s.on (SQ_STAT.ENABLED ((a - 0x4000) / 0x20)) && decide (a % 0x20 < 0xC) then old else new)
  else if 0x5000 ≤ a ∧ a < 0x5400 then
    (if !s.on (CQ_STAT.ENABLED ((a - 0x5000) / 0x20)) || decide (a % 0x20 ≥ 0xC) then new
    else if a % 0x20 = 0 then sel (BitVec.ofNat 32 (2 ^ 30)) new old else old)
  else if isReg a 0x8100 0x10 8 then keepIf (BRD_CRED_CTRL.RATE_PCT 0) (fun v => decide (v > 100)) old new
  else if isReg a 0x8400 4 64 then keepIf (BRD_SHARE.D0_PCT 0) (fun v => v == 0 || decide (v > 100)) old new
  else if a = DMA_POOL_CTRL.adr then keepIf DMA_POOL_CTRL.RETRY (· == 0) old new
  else if a = BAL_FATAL.adr then old
  else if a = BAL_ROW_CTRL.adr then keepIf BAL_ROW_CTRL.LIMIT (· == 0) old (keepIf BAL_ROW_CTRL.WINDOW (· == 0) old new)
  else if a = BLW_CTRL.adr then keepIf BLW_CTRL.SOFT_MAX (fun v => v == 0 || decide (v > 16)) old new
  else if isReg a 0xC8000 4 4 then keepIf (GEO_LAD.STEP_MAX 0) (fun v => decide (v > 4)) old new
  else if a = GEO_RLHC_CTRL.adr then
    keepIf GEO_RLHC_CTRL.MISS_WAIT (· == 0) old (keepIf GEO_RLHC_CTRL.EPOCH_SHIFT (fun v => decide (v < 20) || decide (v > 40)) old new)
  else if inQuad a = 0x210 then keepIf (Q_FLT_CTRL.CHT_LIMIT 0) (· == 0) old new
  else if 0x48 ≤ inChan a ∧ inChan a < 0x70 then (if s.on (CH_TRAIN_STAT.BUSY (regChan a)) then old else new)
  else if inChan a = 0x114 then old
  else new

/-- CFG_SERR of an access: RESET_N low, or a register whose domain is off (R15, R52, R53). -/
def State.cfgError (s : State) (a : Nat) : Bool := !s.pins.resetN || ((regRow a).isSome && !s.answers a)

/-- The setup port's response (Table 2.2). -/
def State.respond (s : State) (data : Word32) (err : Bool) : State := { s with pins := { s.pins with cfgSdata := data, cfgSerr := err } }

/-- A write is taken with its normal response, whether it is ignored or not (R17); before a new rate or burst the balance takes what
the old ones have earned. -/
def State.portTake (s : State) (a : Nat) : State :=
  let s := s.respond 0 false
  if isReg a 0x8100 0x10 8 then s.keepCredit ((a - 0x8100) / 0x10) else s

/-- The register as the write leaves it. -/
def State.storeReg (s : State) (a : Nat) (w : Word32) : State :=
  let s := s.portTake a
  match regRow a with
  | none => s
  | some r => let old := s.reg a; s.setReg a (s.fieldRules a old (codedWord r s.locked old w))

/-! ### The patch window (R157, R158, R163) -/

def State.pendBank (s : State) : Bool := s.on PAT_STAT.PEND_BANK
def State.pending' (s : State) : PatBank := s.patBank s.pendBank
def State.setPending (s : State) (f : PatBank → PatBank) : State := s.setPatBank s.pendBank (f s.pending')

/-- A patch write goes to the pending bank, or is refused. -/
def State.patWrite (s : State) (f : State → State) : State := if s.patWritable then f s else s.put PAT_STAT.WR_REFUSED 1

/-- The injection of R446 in the next row or word committed. -/
def State.patInject (s : State) : Nat × State := (s.get PAT_INJECT.MODE, s.put PAT_INJECT.MODE 0)

/-- The write of a row's high word commits it. -/
def State.rowCommit (s : State) (j : Nat) (w : Word32) : State :=
  s.patWrite fun s =>
    let (inv, s) := s.patInject
    s.setPending fun p => { p with row := tabPut (fun _ => 0) p.row j (w ++ tabGet (fun _ => 0) p.rowWord j), rowOk := tabPut (fun _ => false) p.rowOk j true, rowInv := tabPut (fun _ => 0) p.rowInv j inv }

/-- The write of a nano-word's last word commits it. -/
def State.nanoCommit (s : State) (i : Nat) (w : Word32) : State :=
  s.patWrite fun s =>
    let (inv, s) := s.patInject
    let k := fun x => tabGet (fun _ => (0 : Word32)) s.pending'.nanoWord (8 * i + x)
    let v : BitVec 192 := w ++ k 4 ++ k 3 ++ k 2 ++ k 1 ++ k 0
    s.setPending fun p => { p with nano := tabPut (fun _ => 0) p.nano i v, nanoOk := tabPut (fun _ => false) p.nanoOk i true, nanoInv := tabPut (fun _ => 0) p.nanoInv i inv }

/-- CLEAR: rows and words unwritten, EN = 0 in match and entry registers (R163). -/
def State.patClear (s : State) : State :=
  s.patWrite fun s => s.setPending fun p =>
    { p with rowOk := [], nanoOk := [], mtch := p.mtch.foldl (fun t e => tabPut (fun _ => 0) t e.1 (putBit e.2 31 false)) [], entry := p.entry.foldl (fun t e => tabPut (fun _ => 0) t e.1 (putBit e.2 31 false)) [] }

/-- Writes of the banked registers; `PAT_BANK_IDb` is writable while b is the pending bank. -/
def State.patReg (s : State) (a : Nat) (w : Word32) : State :=
  if isReg a 0xA0010 4 2 then
    s.patWrite fun s => if ((a - 0xA0010) / 4 == 1) == s.pendBank then s.setPending (fun p => { p with ident := w }) else s.put PAT_STAT.WR_REFUSED 1
  else if isReg a 0xA0100 4 32 then s.patWrite (·.setPending fun p => { p with mtch := tabPut (fun _ => 0) p.mtch ((a - 0xA0100) / 4) (w &&& 0xFFFF3FFF#32) })
  else if isReg a 0xA0200 4 32 then s.patWrite (·.setPending fun p => { p with entry := tabPut (fun _ => 0) p.entry ((a - 0xA0200) / 4) (w &&& 0x80003FFF#32) })
  else if isReg a 0xA8000 4 1024 then
    let j := (a - 0xA8000) / 8
    (if a % 8 = 0 then s.patWrite (·.setPending fun p => { p with rowWord := tabPut (fun _ => 0) p.rowWord j w }) else s.rowCommit j w)
  else if isReg a 0xAC000 4 1024 && decide (a % 32 < 24) then
    let i := (a - 0xAC000) / 32
    (if a % 32 < 20 then s.patWrite (·.setPending fun p => { p with nanoWord := tabPut (fun _ => 0) p.nanoWord (8 * i + a % 32 / 4) w }) else s.nanoCommit i w)
  else s

/-- A banked patch register. -/
def isPat (a : Nat) : Bool := isReg a 0xA0010 4 2 || (decide (0xA0100 ≤ a) && decide (a < 0xB0000))

/-! ### Reads -/

/-- One bit per index for which p holds. -/
def maskOf (n : Nat) (p : Nat → Bool) : Nat := ((List.range n).map (fun i => if p i then 2 ^ i else 0)).sum

/-- A Stripe Table entry's byte image as words (Table 5.12). -/
def stripeBytes (st : Stripe) : List Byte :=
  natLe 4 (st.tenant * 2 ^ 24 + st.planes * 2 ^ 16 + st.npar * 2 ^ 8 + st.ndata)
    ++ natLe 4 (st.state * 2 ^ 30 + st.degraded.toNat * 2 ^ 29 + st.parityLost.toNat * 2 ^ 28 + st.nextMember * 2 ^ 13 + st.nextRow)
    ++ natLe 4 st.opened.toNat ++ natLe 4 0
    ++ (List.range 34).flatMap (fun m => let (x, g, e) := memberAt st m; natLe 3 (x.toNat * 2 ^ 23 + g * 2 ^ 12 + e)) ++ natLe 10 0
def stripeWord (st : Stripe) (w : Nat) : Word32 := BitVec.ofNat 32 (leNat (((stripeBytes st).drop (4 * w)).take 4))

def State.heldOn (s : State) (p : Tag → Bool) : Nat := s.tags.countP (fun e => e.2.held && p e.2)

/-- Tags that no quota reserves and that are free (R218). -/
def State.sharedFree (s : State) : Nat :=
  let reserved := (((List.range 128).filter (fun q => s.on (SQ_STAT.ENABLED q) && s.native q)).map s.sqN).sum
  4096 - min 4096 (reserved + s.heldOn (·.shared))

/-- A descriptor of SQ q finds a tag: native ones in their reserve of N, the others in the shared pool within their CQ's quota (R218, R219).
DESIGN CHOICE (log 87): a native SQ whose N tags are all held, since R396 keeps some past their completion, waits. -/
def State.tagOk (s : State) (q : Nat) : Bool :=
  let c := s.get (SQ_CFG.CQ q)
  let depth := (((List.range 128).filter (fun i => s.on (SQ_STAT.ENABLED i) && s.native i && s.get (SQ_CFG.CQ i) == c)).map s.sqN).sum
  if s.native q then decide (s.heldOn (fun t => !t.shared && t.sq == q) < s.sqN q) else (s.sharedFree != 0 && decide (s.heldOn (fun t => t.shared && t.cq == c) + depth < s.get (CQ_CFG.QUOTA_M1 c) + 1))

def State.portOut (s : State) (p : Nat) : Nat := s.flying.countP (fun r => r.port == p)
def State.poolHeld (s : State) (c : Nat) : Nat := s.pool.bufs.countP (fun b => b.cls == c)
def State.softRun (s : State) : Nat := s.slices.countP (fun e => match e.2.job with | some j => j.mode != .bf | none => false)

/-- Registers whose value follows other state. -/
def State.view (s : State) (a : Nat) : Word32 :=
  let w := s.reg a
  if a = TOP_TAGS.adr then BitVec.ofNat 32 (s.sharedFree * 2 ^ 16 + s.heldOn (fun _ => true))
  else if a = TOP_COS.adr then putFld w 12 0 s.cosUsed
  else if a = TOP_WR_STAT.adr then BitVec.ofNat 32 (s.accs.countP (·.chip) * 2 ^ 16 + s.accs.countP (fun x => !x.chip))
  else if a = TET_TIME_LO.adr then s.time32
  else if isReg a 0x8104 0x10 8 then BitVec.ofNat 32 (s.creditNow ((a - 0x8104) / 0x10))
  else if a = TET_DOM_STAT.adr then BitVec.ofNat 32 (maskOf 28 s.powered + (s.pins.cclkReq && s.pins.cclkAck).toNat * 2 ^ 28)
  else if a = TET_PWRFAIL.adr then putFld w 15 0 (if s.on TET_PWRFAIL.HOLDUP then s.holdLeft else s.get TET_PWRFAIL.LEFT)
  else if a = 0x2000 then putBit w 31 (s.on EV_STAT.ENABLED)
  else if a = 0x3000 then putBit w 31 (s.on FEV_STAT.ENABLED)
  else if a = 0x200C ∨ a = 0x300C then
    let r := (a - 0x200C) / 0x1000
    let full := !s.on (evF r EV_STAT.ENABLED) || ixCount (s.evN r) (s.get (evF r EV_HEAD.INDEX)) (s.get (evF r EV_TAIL.INDEX)) == s.evN r
    putFld (putBit (putBit w 30 full) 28 ((s.ringOf r).late.any (fun x => sourceHeld x.src))) 6 0 (s.ringOf r).queue.length
  else if 0x4000 ≤ a ∧ a < 0x5000 then
    let q := (a - 0x4000) / 0x20
    if a % 0x20 = 0 then putBit w 31 (s.on (SQ_STAT.ENABLED q))
    else if a % 0x20 = 0xC then
      let waits := !(s.sqOf q).slot.isEmpty || (s.on (SQ_STAT.ENABLED q) && !s.native q && s.sqHead q != s.sqTail q)
      putBit (putBit w 30 (waits && !s.tagOk q)) 29 (s.sqOf q).refetching
    else if a % 0x20 = 0x1C then BitVec.ofNat 32 (s.heldOn (fun t => t.sq == q))
    else w
  else if 0x5000 ≤ a ∧ a < 0x5400 then
    let c := (a - 0x5000) / 0x20
    if a % 0x20 = 0 then putBit w 31 (s.cqEnabled c)
    else if a % 0x20 = 0xC then putFld (putBit w 30 (s.cqFull c)) 12 0 (s.heldOn (fun t => t.cq == c))
    else if a % 0x20 = 0x18 then BitVec.ofNat 32 (s.cqWait c)
    else w
  else if a = DMA_STAT.adr then BitVec.ofNat 32 (s.portOut 1 * 2 ^ 16 + s.portOut 0)
  else if a = DMA_POOL_HELD0.adr then BitVec.ofNat 32 (s.poolHeld 1 * 2 ^ 16 + s.poolHeld 0)
  else if a = DMA_POOL_HELD1.adr then BitVec.ofNat 32 (s.poolHeld 3 * 2 ^ 16 + s.poolHeld 2)
  else if a = DMA_POOL_WAIT.adr then BitVec.ofNat 32 s.needsWaiting
  else if a = BAL_SPARE.adr then
    BitVec.ofNat 32 (min (s.sliceIds sliceSpare).length 15 * 2 ^ 28 + (s.ballast.spcOk && s.ballast.spcQuad.isNone).toNat * 2 ^ 27
      + (List.range 8).countP (fun q => s.on (Q_FLT_CTRL.SPARE_SERVING q)) * 2 ^ 26 + s.ballast.spcQuad.getD 0 * 2 ^ 23
      + maskOf 8 (fun q => s.on (PHY_STAT.STBY_LOCK q)) * 2 ^ 8)
  else if a = BAL_ROW_STAT.adr then putFld w 22 16 s.ballast.tracker.length
  else if a = BLW_STAT.adr then BitVec.ofNat 32 (s.jobs.length * 2 ^ 16 + s.softRun * 2 ^ 8 + (s.sliceIds sliceActive).length)
  else if a = BLW_SLICE_MAP.adr then BitVec.ofNat 32 (maskOf 18 (fun i => (s.sliceOf i).st == sliceActive))
  else if a = GEO_RLHC_STAT.adr then BitVec.ofNat 32 (s.dirtyLines.length * 2 ^ 16 + s.fillsOut)
  else if a = GEO_RLHC_EPOCH.adr then BitVec.ofNat 32 (epochNow s)
  else if a = PAT_QUAD_PATCH_STATE.adr then w ||| BitVec.ofNat 32 (maskOf 27 (fun i => i % 3 == 2 && s.oldBusy (i / 3)))
  else if isReg a 0xA0010 4 2 then (s.patBank ((a - 0xA0010) / 4 == 1)).ident
  else if isReg a 0xA0100 4 32 then tabGet (fun _ => 0) s.pending'.mtch ((a - 0xA0100) / 4)
  else if isReg a 0xA0200 4 32 then tabGet (fun _ => 0) s.pending'.entry ((a - 0xA0200) / 4)
  else if isReg a 0xA8000 4 1024 then -- DESIGN CHOICE (log 78): the row or nano-word last committed
    let v := tabGet (fun _ => 0) s.pending'.row ((a - 0xA8000) / 8)
    if a % 8 = 0 then v.setWidth 32 else (v >>> 32).setWidth 32
  else if isReg a 0xAC000 4 1024 then (tabGet (fun _ => 0) s.pending'.nano ((a - 0xAC000) / 32) >>> (8 * (a % 32))).setWidth 32
  else if 0x1010 ≤ inQuad a ∧ inQuad a < 0x1020 then
    let c := s.ctxOf (4 * regQuad a + (inQuad a - 0x1010) / 4)
    let st := s.ctxState (4 * regQuad a + (inQuad a - 0x1010) / 4)
    if st = 0 then 0 else BitVec.ofNat 32 (st * 2 ^ 30 + c.bank.toNat * 2 ^ 29 + c.routine % 256 * 2 ^ 16 + c.pc % 2 ^ 14)
  else if inChan a = 0x114 then BitVec.ofNat 32 (maskOf 32 (fun l => (s.lunOf (32 * regChan a + l)).fenced))
  else w

/-- A setup port read: the word, and CFG_SERR. -/
def State.readReg (s : State) (a : Nat) : Word32 × Bool :=
  (if s.answers a then s.view a else 0, s.cfgError a)

/-- TET_TIME_LO_READ: a read of the low word holds the high word for the read that follows. -/
def State.timeLoRead (s : State) : State :=
  (s.setReg TET_TIME_HI.adr ((s.tet.time >>> 32).setWidth 32)).respond (s.readReg TET_TIME_LO.adr).1 (s.cfgError TET_TIME_LO.adr)

end Sys2Proof.Machine
end

