-- ==== Sys2Proof/Machine/SetupX.lean ====
section
/-! DEFINITION. The actions of setup port writes and the commands that make them. -/

namespace Sys2Proof.Machine

/-! ### Queues and event rings (R201 to R203, R416) -/

def aligned (base n : Nat) : Bool := base % min n 4096 == 0

/-- Depths of the enabled native SQs that satisfy p. -/
def State.nativeDepth (s : State) (p : Nat → Bool) : Nat :=
  (((List.range 128).filter (fun i => s.on (SQ_STAT.ENABLED i) && s.native i && p i)).map s.sqN).sum

/-- Table 6.2. -/
def State.sqCheck (s : State) (q : Nat) : Nat :=
  let k := s.get (SQ_CFG.LOG2N q)
  let c := s.get (SQ_CFG.CQ q)
  let base := (s.reg (SQ_BASE_HI.adr q)).toNat * 2 ^ 32 + (s.reg (SQ_BASE_LO.adr q)).toNat
  if k < 4 || k > 16 then 1
  else if s.native q && k > 12 then 2
  else if !s.cqEnabled c then 3
  else if !s.native q && !aligned base (64 * s.sqN q) then 4
  else if s.native q && s.nativeDepth (fun _ => true) + s.sqN q > 4096 then 5
  else if s.native q && s.get (CQ_CFG.QUOTA_M1 c) + 1 < s.nativeDepth (fun i => s.get (SQ_CFG.CQ i) == c) + s.sqN q then 6
  else if s.freset.busy then 7 else 0

def State.sqEnable (s : State) (q : Nat) (w : Word32) : State :=
  if !bit w 31 || s.on (SQ_STAT.ENABLED q) then s
  else
    let r := s.sqCheck q
    let s := s.put (SQ_STAT.REASON q) r
    if r != 0 then s else ((s.put (SQ_HEAD.INDEX q) 0).put (SQ_TAIL.INDEX q) 0).put (SQ_STAT.ENABLED q) 1

/-- Table 6.4. -/
def State.cqCheck (s : State) (c : Nat) : Nat :=
  let k := s.get (CQ_CFG.LOG2N c)
  let base := (s.reg (CQ_BASE_HI.adr c)).toNat * 2 ^ 32 + (s.reg (CQ_BASE_LO.adr c)).toNat
  if k < 4 || k > 16 then 1 else if !aligned base (16 * s.cqN c) then 2 else if s.freset.busy then 3 else 0

def State.cqEnable (s : State) (c : Nat) (w : Word32) : State :=
  if !bit w 31 || s.cqEnabled c then s
  else
    let r := s.cqCheck c
    let s := s.put (CQ_STAT.REASON c) r
    if r != 0 then s else ((s.put (CQ_HEAD.INDEX c) 0).put (CQ_TAIL.INDEX c) 0).put (CQ_STAT.ENABLED c) 1

def evBase (s : State) (r : Nat) : Nat := (s.reg (0x2008 + 0x1000 * r)).toNat * 2 ^ 32 + (s.reg (0x2004 + 0x1000 * r)).toNat

def State.evCheck (s : State) (r : Nat) : Nat :=
  let k := s.get (evF r EV_CFG.LOG2N)
  if k < 4 || k > 16 then 1 else if !aligned (evBase s r) (16 * s.evN r) then 2 else 0

/-- DISABLE, which wins over EN: at once, or after the writes already issued. -/
def State.evDisable (s : State) (r : Nat) : State :=
  if !s.on (evF r EV_STAT.ENABLED) then s
  else if !s.ready.any (fun q => match q.cont with | .event x _ => x == r | _ => false) && !s.flying.any (fun q => match q.cont with | .event x _ => x == r | _ => false) then s.put (evF r EV_STAT.ENABLED) 0 else s.modRing r fun x => { x with disabling := true }

def State.evEnable (s : State) (r : Nat) (w : Word32) : State :=
  if bit w 30 then s.evDisable r
  else if !bit w 31 || s.on (evF r EV_STAT.ENABLED) then s
  else
    let c := s.evCheck r
    let s := s.put (evF r EV_STAT.REASON) c
    if c != 0 then s else ((s.put (evF r EV_HEAD.INDEX) 0).put (evF r EV_TAIL.INDEX) 0).put (evF r EV_STAT.ENABLED) 1

/-! ### Geometry (R166, R167, R188) -/

def State.validateStart (s : State) : State :=
  if s.on GEO_STAT.BUSY then s
  else if !s.heldTags.isEmpty || (List.range 8).any (fun q => s.on (PHY_STAT.APPLY_BUSY q)) then (s.put GEO_STAT.REASON 1).put GEO_STAT.INDEX 0
  else { s.put GEO_STAT.BUSY 1 with checking := some s.geoNow }

/-- T_RST of R380: the highest among the valid kinds. -/
def tRstMax (t : Tab Word32) : Nat :=
  ((List.range 4).map (fun k => if geoGet t (GEO_DK_CTRL.VALID k) = 1 then geoGet t (GEO_DK_TPOLL.T_RST k) else 0)).foldl max 0

/-- The check ends: the first failure is recorded, or the captured values come into force. -/
def State.validateDone (s : State) : State :=
  match s.checking with
  | none => s
  | some t =>
    let s := { s with checking := none }.put GEO_STAT.BUSY 0
    match s.geoVerdict t with
    | some (c, i) => (s.put GEO_STAT.REASON c).put GEO_STAT.INDEX i
    | none =>
      let s := (({ s with force := t }.put GEO_STAT.VALID 1).put GEO_STAT.REASON 0).put GEO_STAT.INDEX 0
      let s := s.put TOP_ABORT_BOUND.BOUND (max 20 (tRstMax t + 50))
      s.each (List.range 16) State.updateHold

/-- The view takes a Stripe Table entry. -/
def State.stripeSel (s : State) : State :=
  let st := s.stripeOf (s.get GEO_STRIPE_SEL.ID)
  s.each (List.range 32) fun s w => s.setReg (GEO_STRIPE_VIEW.adr w) (stripeWord st w)

/-! ### Ballast (R431, R435 to R438, R442, R446, R447) -/

/-- Writing 1 to VALID. -/
def State.validClear (s : State) (a : Nat) (w : Word32) : State :=
  if !bit w 31 || s.on (fltRecovering a) then s else (s.put (fltValid a) 0).put (fltMulti a) 0

/-- BAL_FATAL: a cause that persists is set again; with none left FAULT_N rises. -/
def State.fatalClear (s : State) (w persist : Word32) : State :=
  let old := s.reg BAL_FATAL.adr
  let new := (old &&& ~~~ w) ||| (old &&& (persist ||| 0x21#32))
  let s := s.setReg BAL_FATAL.adr new
  if old != 0 && new == 0 then { s with pins := { s.pins with faultN := true } } else s

def State.repairGo (s : State) (w : Word32) : State :=
  let b := fld w 29 24
  if bit w 31 && decide (b ≤ 36) && decide (fld w 19 0 < bankRows b) then s.spareRow b (fld w 19 0) false else s

/-- What an uncorrectable test read captures: unit, code and class of a functional read of the bank (Table 13.4). -/
def testCapture (b : Nat) : FltUnit × Nat × Nat :=
  if b < 32 then (bankUnit b, 6, 2) else if b = 32 then (.top 3, 1, 2) else if b = 33 then (.top 2, 1, 2)
  else if b = 34 then (.top 2, 2, 2) else if b = 35 then (.top 0, 1, 2) else (.top 0, 2, 3)

/-- The context that a test read captures, laid out as Table 13.4 has it. DESIGN CHOICE (log 58): no tag; the stripe ID is that of what the
row holds, 0xFFF where it holds no accumulator. An RLH line has no code in the table: it is captured in no unit. -/
def State.testCtx (s : State) (b row : Nat) : Nat :=
  if b < 32 then row + 0xFFF * 2 ^ 12
  else if b = 33 then (((s.accs.filter (·.chip))[row / 4096]?).map (·.stripe)).getD 0xFFF
  else if b = 34 then row / 2
  else if b = 36 then row
  else 0xFFF

/-- TESTREAD: Ballast reads the row; `errs` check bits are wrong beside the injected ones. -/
def State.testread (s : State) (errs : Nat) : State :=
  let b := s.get BAL_INJECT.BANK
  let row := s.get BAL_INJECT.ROW
  let on := match bankDomain b with | some d => s.usable d | none => true
  if b > 36 || row ≥ bankRows b || !on then s
  else
    let res := min 3 (s.get BAL_INJECT.MODE + errs)
    let s := ((s.put BAL_INJECT.MODE 0).put BAL_INJECT_STAT.DONE 1).put BAL_INJECT_STAT.RESULT res
    if res = 0 then s
    else if res < 3 then s.bump (BAL_BANK.CORR b) 1
    else
      let s := if b = 36 && queueRows ≤ row then s else s.fault (testCapture b).1 (testCapture b).2.1 (testCapture b).2.2 (s.testCtx b row) false true
      if b < 32 then s.evSramUe (b / 4) b row 0xFFF false true else s.evTopSramUe b row 0xFFF 0 true

def State.balInject (s : State) (w : Word32) (errs : Nat) : State :=
  let s := if fld w 31 30 != 0 then s.put BAL_INJECT_STAT.DONE 0 else s
  if bit w 23 then s.testread errs else s

def State.blwInject (s : State) (w : Word32) : State :=
  if bit w 8 then { s with ballast := { s.ballast with sliceArmed := some (fld w 4 0) } } else s

/-- Software fences (R435). -/
def State.lunFenceWrite (s : State) (n : Nat) (w : Word32) : State :=
  (onesOf 32 w.toNat).foldl (fun s l =>
    let g := 32 * n + l
    if (s.lunOf g).fenced then s
    else
      let s := s.fenceLun g
      if h : n < 32 then s.fault (.chan ⟨n, h⟩) 9 2 l else s) s

def State.lunUnfenceWrite (s : State) (n : Nat) (w : Word32) : State :=
  (onesOf 32 w.toNat).foldl (fun s l =>
    let g := 32 * n + l
    if (s.reg (CH_FLT_LUNS.adr n)).getLsbD l || (s.lunOf g).resetting || s.untrained n || s.on (CH_FLT_CTRL.FENCED n)
      || s.on (Q_FLT_CTRL.FENCED (chanQuad n)) || !(s.lunOf g).fenced then s
    else (s.modLun g fun x => { x with fenced := false }).pollAgain g) s

def State.chanFenceWrite (s : State) (n : Nat) (w : Word32) : State :=
  if !bit w 1 || s.on (CH_FLT_CTRL.FENCED n) then s
  else
    let s := s.fenceChan n
    if h : n < 32 then s.fault (.chan ⟨n, h⟩) 9 2 (2 ^ 31) else s

def State.chanUnfenceWrite (s : State) (n : Nat) (w : Word32) : State :=
  let a := CH_FLT_FIRST.adr n
  if !bit w 0 || s.on (fltValid a) || s.on (fltRecovering a) || s.untrained n then s
  else (chanLuns n).foldl State.pollAgain (s.put (CH_FLT_CTRL.FENCED n) 0)

def State.quadFenceWrite (s : State) (q : Nat) (w : Word32) : State :=
  if !bit w 1 || s.on (Q_FLT_CTRL.FENCED q) then s
  else
    let s := s.fenceQuad q
    if h : q < 8 then s.fault (.quad ⟨q, h⟩) 0x15 2 0 else s

def State.quadUnfenceWrite (s : State) (q : Nat) (w : Word32) : State :=
  let a := Q_FLT_FIRST.adr q
  let dead := s.on (Q_FLT_CTRL.CHT_FAULTED q) && !s.on (Q_FLT_CTRL.SPARE_SERVING q)
  if !bit w 0 || s.on (fltValid a) || s.on (fltRecovering a) || dead || !s.on (PHY_STAT.LOCK q) then s
  else ((quadChans q).flatMap chanLuns).foldl State.pollAgain (s.put (Q_FLT_CTRL.FENCED q) 0)

def State.declareWrite (s : State) (q : Nat) (w : Word32) : State :=
  if h : q < 8 then (if bit w 2 then s.declareChanter ⟨q, h⟩ 32 else s) else s

/-! ### PHY, counters, power and wake -/

/-- START of a long calibration. -/
def State.zqStart (s : State) (q : Nat) (w : Word32) : State :=
  if bit w 0 then (s.put (ZQ_STAT.BUSY q) 1).modQuad q fun x => { x with zqWanted := true } else s

/-- STUCK[t] written 1: the target's polls count anew. -/
def State.stuckClear (s : State) (n : Nat) (w : Word32) : State :=
  (onesOf 8 (fld w 31 24)).foldl (fun s t => s.modChan n fun x => { x with readyPolls := tabPut (fun _ => 0) x.readyPolls t 0 }) s

def State.blwClear (s : State) (w : Word32) : State :=
  if bit w 0 then [BLW_CNT_BF.adr, BLW_CNT_MS.adr, BLW_CNT_FAIL.adr, BLW_CNT_MISCORR.adr, BLW_CNT_ERASED.adr].foldl (fun s a => s.setReg a 0) s else s
def State.rlhcClear (s : State) (w : Word32) : State :=
  if bit w 24 then [GEO_RLHC_HIT.adr, GEO_RLHC_MISS.adr, GEO_RLHC_LATE.adr, GEO_RLHC_WB.adr].foldl (fun s a => s.setReg a 0) s else s

/-- DEEP and WAKE of TET_PWR_CTRL. -/
def State.pwrCtrl (s : State) (w : Word32) : State :=
  if bit w 31 && s.block = blockActive then s.sleepStart (bit w 30) else if bit w 30 then s.wakeWrite else s

/-- A wake timer already past fires at once. -/
def State.timerWrite (s : State) : State :=
  if (s.reg TET_WAKE_TIMER_HI.adr).toNat * 2 ^ 32 + (s.reg TET_WAKE_TIMER_LO.adr).toNat ≤ s.now then s.fireSlot 3 else s

/-- MASKED written 1. -/
def State.unmask (s : State) (w : Word32) : State := if bit w 31 then s.put TET_WAKEN_STAT.IDLE 0 else s

/-- ON = 1 wakes a quad in QUAD_OFF (R465). -/
def State.qpolWrite (s : State) (q : Nat) (w : Word32) : State := if bit w 31 then (s.quadWake q).quadActive q else s

/-! ### Every write -/

/-- The action of a write, beyond the value stored. -/
def State.regActs (s : State) (a : Nat) (w : Word32) : State :=
  if a = TOP_FRESET.adr then (if bit w 31 then s.fresetStart (bit w 0) else s)
  else if a = TET_PWR_CTRL.adr then s.pwrCtrl w
  else if a = TET_PWRFAIL.adr then (if bit w 31 then s.latchClear s.pins.pwrfailN else s)
  else if a = TET_WAKEN_STAT.adr then s.unmask w
  else if isReg a 0x1060 4 8 then s.qpolWrite ((a - 0x1060) / 4) w
  else if a = TET_WAKE_TIMER_LO.adr ∨ a = TET_WAKE_TIMER_HI.adr then s.timerWrite
  else if a = 0x2000 then s.evEnable 0 w
  else if a = 0x3000 then s.evEnable 1 w
  else if isReg a 0x4000 0x20 128 then s.sqEnable ((a - 0x4000) / 0x20) w
  else if isReg a 0x5000 0x20 32 then s.cqEnable ((a - 0x5000) / 0x20) w
  else if 0x6000 ≤ a ∧ a < 0x8000 then s.badRanges ((a - 0x6000) / 0x80)
  else if isReg a 0x8100 0x10 8 then s.giveCredit ((a - 0x8100) / 0x10) 0
  else if a = GEO_CTRL.adr then (if bit w 0 then s.validateStart else s)
  else if isReg a 0xA240 4 16 then s.updateHold ((a - 0xA240) / 4)
  else if a = GEO_STRIPE_SEL.adr then s.stripeSel
  else if a = BAL_FATAL.adr then s.fatalClear w 0
  else if a = BAL_FATAL_TEST.adr then (if bit w 0 then s.fatal fatalTestBit else s)
  else if a = BAL_REPAIR.adr then s.repairGo w
  else if a = BAL_INJECT.adr then s.balInject w 0
  else if isReg a 0xB100 0x10 6 || isReg a 0x90100 0x10 18 || inQuad a == 0x200 || inChan a == 0x100 then s.validClear a w
  else if inQuad a = 0x100 then (if bit w 0 then s.applyStart (regQuad a) else s)
  else if inQuad a = 0x110 then s.zqStart (regQuad a) w
  else if inQuad a = 0x210 then ((s.quadFenceWrite (regQuad a) w).quadUnfenceWrite (regQuad a) w).declareWrite (regQuad a) w
  else if inChan a = 0x40 then (if bit w 0 then s.trainStart (regChan a) else s)
  else if inChan a = 0x84 then s.stuckClear (regChan a) w
  else if inChan a = 0x114 then s.lunFenceWrite (regChan a) w
  else if inChan a = 0x118 then s.lunUnfenceWrite (regChan a) w
  else if inChan a = 0x11C then (s.chanFenceWrite (regChan a) w).chanUnfenceWrite (regChan a) w
  else if a = BLW_CTRL.adr then s.blwClear w
  else if a = BLW_INJECT.adr then s.blwInject w
  else if a = GEO_RLHC_CTRL.adr then s.rlhcClear w
  else if a = PAT_CTRL.adr then
    let s := if bit w 1 then s.patClear else s
    if bit w 0 then s.patActivate else s
  else if isPat a then s.patReg a w
  else s

/-- A write with a given action; one to a register that does not answer, or to none, is dropped with its response (R15, R52, R53). -/
def State.writeWith (s : State) (a : Nat) (w : Word32) (act : State → State) : State :=
  if s.answers a then act (s.storeReg a w) else s.respond 0 (s.cfgError a)

/-- A command on the setup port: while RESET_N is low it is answered with CFG_SERR = 1 and does nothing else (R53). -/
def onPort (s : State) (f : State → State) : Host.Outcome State Fault Refusal :=
  if s.pins.testMode then .fault .testMode else .next (if s.pins.resetN then (f s).settle else s.respond 0 true)

/-- A setup port write. -/
def State.setupWrite (s : State) (a : Nat) (w : Word32) : State := s.writeWith a w (·.regActs a w)

/-! ### The commands -/

/-- REGISTER_WRITE: the address names a word of the window. -/
def execRegisterWrite (addr : BitVec 18) (w : Word32) (s : State) : Host.Outcome State Fault Refusal := onPort s (·.setupWrite (4 * addr.toNat) w)
/-- APPLY. -/
def execApply (q : Fin 8) (w : Word32) (s : State) : Host.Outcome State Fault Refusal :=
  onPort s (·.writeWith (PHY_CTRL.adr q.val) w fun s => if bit w 0 then s.applyStart q.val else s)
/-- ZQ_START. -/
def execZqStart (q : Fin 8) (w : Word32) (s : State) : Host.Outcome State Fault Refusal :=
  onPort s (·.writeWith (ZQ_CTRL.adr q.val) w (·.zqStart q.val w))
/-- TRAIN_START. -/
def execTrainStart (ch : Fin 32) (w : Word32) (s : State) : Host.Outcome State Fault Refusal :=
  onPort s (·.writeWith (CH_TRAIN_CTRL.adr ch.val) w fun s => if bit w 0 then s.trainStart ch.val else s)
/-- STUCK_CLEAR. -/
def execStuckClear (ch : Fin 32) (w : Word32) (s : State) : Host.Outcome State Fault Refusal :=
  onPort s (·.writeWith (CH_RB_STAT.adr ch.val) w (·.stuckClear ch.val w))
/-- PATCH_ROW_COMMIT. -/
def execPatchRowCommit (j : Fin 512) (w : Word32) (s : State) : Host.Outcome State Fault Refusal :=
  onPort s (·.writeWith (PAT_ROW.adr j.val 1) w (·.rowCommit j.val w))
/-- NANO_WORD_COMMIT. -/
def execNanoWordCommit (i : Fin 128) (w : Word32) (s : State) : Host.Outcome State Fault Refusal :=
  onPort s (·.writeWith (PAT_NANO.adr i.val 5) w (·.nanoCommit i.val w))
/-- ACTIVATE. -/
def execActivate (w : Word32) (s : State) : Host.Outcome State Fault Refusal :=
  onPort s (·.writeWith PAT_CTRL.adr w fun s => if bit w 0 then s.patActivate else s)
/-- PAT_CLEAR. -/
def execPatClear (w : Word32) (s : State) : Host.Outcome State Fault Refusal :=
  onPort s (·.writeWith PAT_CTRL.adr w fun s => if bit w 1 then s.patClear else s)
/-- VALIDATE. -/
def execValidate (w : Word32) (s : State) : Host.Outcome State Fault Refusal :=
  onPort s (·.writeWith GEO_CTRL.adr w fun s => if bit w 0 then s.validateStart else s)
/-- VALIDATE_DONE. -/
def execValidateDone (s : State) : Host.Outcome State Fault Refusal := liveTop s State.validateDone
/-- STRIPE_SEL_WRITE. -/
def execStripeSelWrite (w : Word32) (s : State) : Host.Outcome State Fault Refusal :=
  onPort s (·.writeWith GEO_STRIPE_SEL.adr w State.stripeSel)
/-- TEMP_WRITE. -/
def execTempWrite (g : Fin 16) (w : Word32) (s : State) : Host.Outcome State Fault Refusal :=
  onPort s (·.writeWith (GEO_TEMP.adr g.val) w (·.updateHold g.val))
/-- SQ_ENABLE. -/
def execSqEnable (sq : Fin 128) (w : Word32) (s : State) : Host.Outcome State Fault Refusal :=
  onPort s (·.writeWith (SQ_CFG.adr sq.val) w (·.sqEnable sq.val w))
/-- CQ_ENABLE. -/
def execCqEnable (cq : Fin 32) (w : Word32) (s : State) : Host.Outcome State Fault Refusal :=
  onPort s (·.writeWith (CQ_CFG.adr cq.val) w (·.cqEnable cq.val w))
/-- EV_ENABLE. -/
def execEvEnable (r : Fin 2) (w : Word32) (s : State) : Host.Outcome State Fault Refusal :=
  onPort s (·.writeWith (ringBase r.val) w (·.evEnable r.val w))
/-- EV_DISABLE. -/
def execEvDisable (r : Fin 2) (w : Word32) (s : State) : Host.Outcome State Fault Refusal :=
  onPort s (·.writeWith (ringBase r.val) w fun s => if bit w 30 then s.evDisable r.val else s)
/-- FRESET_GRACEFUL: START = 1, IMMEDIATE = 0. -/
def execFresetGraceful (s : State) : Host.Outcome State Fault Refusal := onPort s (·.writeWith TOP_FRESET.adr 0x80000000#32 (·.fresetStart false))
/-- FRESET_IMMEDIATE: START = 1, IMMEDIATE = 1. -/
def execFresetImmediate (s : State) : Host.Outcome State Fault Refusal := onPort s (·.writeWith TOP_FRESET.adr 0x80000001#32 (·.fresetStart true))
/-- FRESET_BOUND_EXPIRY. -/
def execFresetBoundExpiry (s : State) : Host.Outcome State Fault Refusal := liveTop s State.fresetBound
/-- FRESET_DONE. -/
def execFresetDone (s : State) : Host.Outcome State Fault Refusal := liveTop s State.fresetEnd
/-- LOCK. -/
def execLock (w : Word32) (s : State) : Host.Outcome State Fault Refusal := onPort s (·.writeWith TOP_CTRL.adr w id)
/-- BLW_CLR. -/
def execBlwClr (w : Word32) (s : State) : Host.Outcome State Fault Refusal := onPort s (·.writeWith BLW_CTRL.adr w (·.blwClear w))
/-- RLHC_CLR. -/
def execRlhcClr (w : Word32) (s : State) : Host.Outcome State Fault Refusal := onPort s (·.writeWith GEO_RLHC_CTRL.adr w (·.rlhcClear w))
/-- FATAL_TEST. -/
def execFatalTest (w : Word32) (s : State) : Host.Outcome State Fault Refusal :=
  onPort s (·.writeWith BAL_FATAL_TEST.adr w fun s => if bit w 0 then s.fatal fatalTestBit else s)
/-- FATAL_CLEAR, with the causes that persist. -/
def execFatalClear (w persist : Word32) (s : State) : Host.Outcome State Fault Refusal :=
  onPort s (·.writeWith BAL_FATAL.adr w (·.fatalClear w persist))
/-- REPAIR. -/
def execRepair (w : Word32) (s : State) : Host.Outcome State Fault Refusal := onPort s (·.writeWith BAL_REPAIR.adr w (·.repairGo w))
/-- TESTREAD: the write of BAL_INJECT with TESTREAD. -/
def execTestread (w : Word32) (errs : Nat) (s : State) : Host.Outcome State Fault Refusal :=
  onPort s (·.writeWith BAL_INJECT.adr w (·.balInject w errs))
/-- BAL_INJECT_ARM. -/
def execBalInjectArm (w : Word32) (s : State) : Host.Outcome State Fault Refusal :=
  onPort s (·.writeWith BAL_INJECT.adr w fun s => if fld w 31 30 != 0 then s.put BAL_INJECT_STAT.DONE 0 else s)
/-- BLW_INJECT_ARM. -/
def execBlwInjectArm (w : Word32) (s : State) : Host.Outcome State Fault Refusal := onPort s (·.writeWith BLW_INJECT.adr w (·.blwInject w))
/-- PAT_INJECT_ARM: the stored MODE arms the next commit. -/
def execPatInjectArm (w : Word32) (s : State) : Host.Outcome State Fault Refusal := onPort s (·.writeWith PAT_INJECT.adr w id)
/-- LUN_FENCE. -/
def execLunFence (ch : Fin 32) (w : Word32) (s : State) : Host.Outcome State Fault Refusal :=
  onPort s (·.writeWith (CH_FENCE.adr ch.val) w (·.lunFenceWrite ch.val w))
/-- LUN_UNFENCE. -/
def execLunUnfence (ch : Fin 32) (w : Word32) (s : State) : Host.Outcome State Fault Refusal :=
  onPort s (·.writeWith (CH_UNFENCE.adr ch.val) w (·.lunUnfenceWrite ch.val w))
/-- CHANNEL_FENCE. -/
def execChannelFence (ch : Fin 32) (w : Word32) (s : State) : Host.Outcome State Fault Refusal :=
  onPort s (·.writeWith (CH_FLT_CTRL.adr ch.val) w (·.chanFenceWrite ch.val w))
/-- CHANNEL_UNFENCE. -/
def execChannelUnfence (ch : Fin 32) (w : Word32) (s : State) : Host.Outcome State Fault Refusal :=
  onPort s (·.writeWith (CH_FLT_CTRL.adr ch.val) w (·.chanUnfenceWrite ch.val w))
/-- QUAD_FENCE. -/
def execQuadFence (q : Fin 8) (w : Word32) (s : State) : Host.Outcome State Fault Refusal :=
  onPort s (·.writeWith (Q_FLT_CTRL.adr q.val) w (·.quadFenceWrite q.val w))
/-- QUAD_UNFENCE. -/
def execQuadUnfence (q : Fin 8) (w : Word32) (s : State) : Host.Outcome State Fault Refusal :=
  onPort s (·.writeWith (Q_FLT_CTRL.adr q.val) w (·.quadUnfenceWrite q.val w))
/-- DECLARE. -/
def execDeclare (q : Fin 8) (w : Word32) (s : State) : Host.Outcome State Fault Refusal :=
  onPort s (·.writeWith (Q_FLT_CTRL.adr q.val) w (·.declareWrite q.val w))
/-- FLT_VALID_CLEAR. -/
def execFltValidClear (u : FltUnit) (w : Word32) (s : State) : Host.Outcome State Fault Refusal :=
  onPort s (·.writeWith (fltAdr u) w (·.validClear (fltAdr u) w))
/-- DEEP. -/
def execDeep (w : Word32) (s : State) : Host.Outcome State Fault Refusal :=
  onPort s (·.writeWith TET_PWR_CTRL.adr w fun s => if bit w 31 then s.sleepStart (bit w 30) else s)
/-- WAKE. -/
def execWake (w : Word32) (s : State) : Host.Outcome State Fault Refusal :=
  onPort s (·.writeWith TET_PWR_CTRL.adr w fun s => if bit w 30 then s.wakeWrite else s)
/-- QUAD_ON: ON = 1 keeps the quad ACTIVE, or wakes it (R465). -/
def execQuadOn (q : Fin 8) (w : Word32) (s : State) : Host.Outcome State Fault Refusal :=
  onPort s (·.writeWith (TET_QPOL.adr q.val) w (·.qpolWrite q.val w))
/-- PWRFAIL_LATCH_CLEAR, with whether PWRFAIL_N has been high. -/
def execPwrfailLatchClear (w : Word32) (pinHigh : Bool) (s : State) : Host.Outcome State Fault Refusal :=
  onPort s (·.writeWith TET_PWRFAIL.adr w fun s =>
    let s := { s with pins := { s.pins with pwrfailN := pinHigh } }
    if bit w 31 then s.latchClear pinHigh else s)
/-- WAKE_N_UNMASK. -/
def execWakeNUnmask (w : Word32) (s : State) : Host.Outcome State Fault Refusal := onPort s (·.writeWith TET_WAKEN_STAT.adr w (·.unmask w))
/-- TET_TIME_LO_READ. -/
def execTetTimeLoRead (s : State) : Host.Outcome State Fault Refusal := onPort s State.timeLoRead

end Sys2Proof.Machine
end

