-- ==== Sys2Proof/Machine/PhyX.lean ====
section
/-! DEFINITION. The commands of the flash channel interface, of Ballast and of the power states that no bus carries: PLLs,
calibration, training, ready/busy inputs, spares, quad policy and DEEP (chapters 3, 13 and 14). -/

namespace Sys2Proof.Machine

/-! ### PLLs and the APPLY step (R99, R452, R453) -/

/-- The switch to the standby clock cuts the burst at a channel's pads: a read burst as the first PHY fault of its transfer (R125), a
data input burst with its routine's restart (R151, R452). -/
def State.burstCut (s : State) (n : Nat) : State :=
  if s.padsHeld n then s
  else match (s.chanOf n).lane with
  | e :: _ =>
    if e.op == .dout then (s.modChan n fun x => { x with repeated := true }).updChanRec n
    else if e.op == .din then s.runAgain n e.lun
    else s
  | [] => s
/-- The running PLL is lost; bursts are cut where the standby takes over. -/
def State.pllGone (s : State) (q : Fin 8) : State :=
  if s.powered (pdP q.val) && s.on (PHY_STAT.LOCK q.val) && s.on (PHY_STAT.STBY_LOCK q.val) then
    (s.pllLost q).each (quadChans q.val) State.burstCut
  else s.pllLost q
/-- PLL_LOCK_LOSS. -/
def execPllLockLoss (q : Fin 8) (s : State) : Host.Outcome State Fault Refusal := live s (·.pllGone q)
/-- PLL_RELOCK. -/
def execPllRelock (q : Fin 8) (locked : Bool) (s : State) : Host.Outcome State Fault Refusal := live s (·.pllRelock q.val locked)
/-- APPLY_DRAINED. -/
def execApplyDrained (q : Fin 8) (s : State) : Host.Outcome State Fault Refusal := live s (·.applyDrained q.val)

/-- The PLLs fail to lock in step 3: outcome 0x08. -/
def State.applyLate (s : State) (q : Nat) : State := if (s.quadOf q).apply = 3 then s.applyDead q 8 else s
/-- APPLY_PLL_LOCK_TIMEOUT. -/
def execApplyPllLockTimeout (q : Fin 8) (s : State) : Host.Outcome State Fault Refusal := live s (·.applyLate q.val)

/-- Relocking PLLs reach lock, in step 3 of an APPLY or in a wake; a long calibration runs. -/
def State.pllsLocked (s : State) (q : Nat) : State :=
  let x := s.quadOf q
  if x.apply = 3 && s.powered (pdP q) then (((s.pllLock q).put (ZQ_STAT.BUSY q) 1).modQuad q fun x => { x with apply := 4 })
  else if x.waking != 0 && x.relocking && s.powered (pdP q) then s.pllLock q else s
/-- PLL_LOCKED. -/
def execPllLocked (q : Fin 8) (s : State) : Host.Outcome State Fault Refusal := live s (·.pllsLocked q.val)

/-- A long calibration ends: in step 4 of an APPLY (outcome 0x09 beyond a code limit), in a wake, or after START. -/
def State.longCal (s : State) (q : Nat) (r : CalReport) : State :=
  let x := s.quadOf q
  if x.apply = 4 then
    let s := s.calCodes q r
    if r.puOver || r.pdOver || r.odtOver then s.applyDead q 9
    else
      let s := s.modQuad q fun x => { x with apply := 5 }
      let s := s.each (quadChans q) fun s n => (s.modChan n fun c => { c with applyBad := false }).leaveSafe n
      s.applyTrain q
  else if (x.waking != 0 || x.zqRuns) && s.powered (pdP q) then
    (if x.waking != 0 then s.calCodes q r else (quadChans q).foldl State.leaveSafe (s.calCodes q r)) else s
/-- LONG_CALIBRATION. -/
def execLongCalibration (q : Fin 8) (rep : CalReport) (s : State) : Host.Outcome State Fault Refusal := live s (·.longCal q.val rep)

/-- The 10 µs of step 5 have passed. -/
def State.applyHold (s : State) (q : Nat) : State :=
  if (s.quadOf q).applyHeld then (s.modQuad q fun x => { x with applyHeld := false }).applyTrain q else s
/-- APPLY_HOLD_EXPIRY. -/
def execApplyHoldExpiry (q : Fin 8) (s : State) : Host.Outcome State Fault Refusal := live s (·.applyHold q.val)

/-- A short-calibration period ends: none while PERIOD is 0 or the quad is not ACTIVE (R108, R468). -/
def State.shortPeriod (s : State) (q : Nat) (r : CalReport) : State :=
  if s.on (ZQ_CTRL.PERIOD q) && s.powered (pdP q) && (s.quadOf q).calDone && s.qstate q == 0 && !s.on (ZQ_STAT.BUSY q) then s.shortCal q r else s
/-- SHORT_CALIBRATION. -/
def execShortCalibration (q : Fin 8) (rep : CalReport) (s : State) : Host.Outcome State Fault Refusal := live s (·.shortPeriod q.val rep)

/-! ### Training and drift tracking -/

/-- The run's own routine leaves the context. -/
def State.trainStop (s : State) (n : Nat) : State :=
  (if s.trainRuns n then s.freeCtx n (s.ctxOf n).lun else s).modChan n fun c => { c with trainAt := 0 }
/-- A training run that has begun ends. -/
def State.trainEnd (s : State) (n : Nat) (r : TrainReport) : State :=
  if (s.chanOf n).training = 0 || !s.trainClear n then s else (s.trainStop n).trainDone n (s.chanOf n).training r
/-- TRAINING_DONE. -/
def execTrainingDone (ch : Fin 32) (rep : TrainReport) (s : State) : Host.Outcome State Fault Refusal := live s (·.trainEnd ch.val rep)
/-- DRIFT_PERIOD_END. -/
def execDriftPeriodEnd (ch : Fin 32) (rep : DriftReport) (s : State) : Host.Outcome State Fault Refusal := live s (·.driftEnd ch.val rep)

/-- A code word of class D0 waits for its transfer on the channel: in Bridle, or in a routine that runs, is parked or waits for staging. -/
def State.d0Waits (s : State) (n : Nat) : Bool :=
  let run := fun (c : Ctx) => c.op.cls == 0 && (c.op.routine == rtReadXfer || (c.op.readId.isSome && c.doutWait.isSome))
  (s.chanOps n).any (fun o => o.routine == rtReadXfer && o.cls == 0) || ((s.ctxOf n).state != 0 && run (s.ctxOf n))
    || (chanLuns n).any fun g => ((s.lunOf g).park.map run).getD false

/-- Conditions of a tracking burst (R121): a period without a read burst, a target in TGT_MASK with no LUN busy, an idle bus and context, which no
training run, calibration, APPLY step or safe state holds, no code word of class D0 waiting for transfer. -/
def State.mayTrack (s : State) (n t : Nat) : Bool :=
  s.on (CH_DRIFT_CTRL.PERIOD n) && s.ddr n && s.on (CH_MODE_STAT.TRAINED n) && s.qstate (chanQuad n) == 0
    && (s.trainTargets n).contains t && (targetLuns n t).all (fun g => !(s.lunOf g).busy) && (s.chanOf n).lane.isEmpty
    && (s.chanOf n).training == 0 && !s.padsHeld n && !s.d0Waits n && !(s.chanOf n).burst && s.ctxOpen n

/-- TRACK_BURST starts, and counts as the period's read burst. -/
def State.track' (s : State) (n t : Nat) : State :=
  if s.mayTrack n t then (s.modChan n fun c => { c with burst := true }).startRoutine (trainOp n (rtTrackBurst, t, 0)) else s
/-- TRACKING_BURST. -/
def execTrackingBurst (ch : Fin 32) (t : Fin 8) (s : State) : Host.Outcome State Fault Refusal := live s (·.track' ch.val t.val)

/-! ### Ready/busy inputs (R126, R127) -/

/-- A new level is accepted into DEB; busy to ready wakes the routines parked on the target's LUNs (R144). -/
def State.rbEdge (s : State) (n t : Nat) : State :=
  let ready := !s.on (rbDeb n t)
  let s := (s.put (rbDeb n t) ready.toNat).put (rbRaw n t) ready.toNat
  let s := s.modChan n fun c => { c with rbCount := tabMod (fun _ => 0) c.rbCount t (· + 1) }
  if ready && s.rbHonoured n t then s.each (targetLuns n t) State.wakePark else s
/-- RB_N_TRANSITION. -/
def execRbNTransition (ch : Fin 32) (t : Fin 8) (s : State) : Host.Outcome State Fault Refusal := live s (·.rbEdge ch.val t.val)

/-- A 1 ms window ends: the transitions accepted in it, and the next counts anew. DESIGN CHOICE (log 77): no finding is made while
RB_N[t] is not honoured, IGNORE included. -/
def State.rbWindow (s : State) (n : Fin 32) (t : Nat) : State :=
  let count := tabGet (fun _ => 0) (s.chanOf n.val).rbCount t
  let s := s.modChan n.val fun c => { c with rbCount := tabPut (fun _ => 0) c.rbCount t 0 }
  if count > s.get (CH_RB_CTRL.CHATTER n.val) && s.rbHonoured n.val t then s.rbFault n t 2 else s
/-- Channel c of quad q. -/
def chanAt (q : Fin 8) (c : Fin 4) : Fin 32 := ⟨4 * q.val + c.val, by omega⟩
/-- RB_CHATTER_WINDOW. -/
def execRbChatterWindow (q : Fin 8) (c : Fin 4) (t : Fin 8) (s : State) : Host.Outcome State Fault Refusal :=
  live s (·.rbWindow (chanAt q c) t.val)

/-! ### Fatal causes and the safe state (R133, R436) -/

/-- A fatal cause with the fault that Table 13.4 gives it: an uncorrectable tag table or Bridle queue row (bank 36) also acts as
Table 13.8 gives; a retention word met at any other time than the wake from DEEP is captured and reloaded; bit 6 of BAL_FATAL names no
cause. -/
def State.fatalCause (s : State) (b : Nat) (ctx : Word32) : State :=
  match b with
  | 0 => (s.capture (.top 5) 1 3 ctx.toNat false).fatal fatalTrim
  | 1 => s.fatal fatalEscalated
  | 2 => (s.sramRead { bank := 36, row := ctx.toNat % queueRows, bad := true } none).2
  | 3 => (s.capture (.top 4) 3 3 ctx.toNat false).fatal fatalSelftest
  | 4 =>
    let s' := s.capture (.top 5) 2 3 ctx.toNat false
    if s.block = blockDeep || s.block = blockWaking then s'.fatal fatalRetention else s'
  | 5 => (s.capture (.top 3) 2 3 0 false).fatal fatalNoDecoder
  | 7 => s.fatal fatalTestBit
  | _ => s
/-- FATAL_CAUSE. -/
def execFatalCause (cause : Fin 8) (ctx : Word32) (s : State) : Host.Outcome State Fault Refusal := live s (·.fatalCause cause.val ctx)

/-- SAFE_STATE_RELEASE. -/
def execSafeStateRelease (ch : Fin 32) (s : State) : Host.Outcome State Fault Refusal := live s (·.leaveSafe ch.val)

/-! ### Rows, slices, the spare Chanter, patch banks -/

/-- ROW_TRACK_EXPIRY. -/
def execRowTrackExpiry (bank : Fin 37) (row : Nat) (s : State) : Host.Outcome State Fault Refusal := live s (·.trackFree bank.val row)
/-- ROW_COPY_DONE. -/
def execRowCopyDone (bank : Fin 37) (s : State) : Host.Outcome State Fault Refusal := live s (·.rowCopied bank.val)
/-- SLICE_PAIR_POWER. -/
def execSlicePairPower (b : Fin 9) (s : State) : Host.Outcome State Fault Refusal := liveTop s (·.pairUp b.val)
/-- SLICE_PAIR_RELEASE. -/
def execSlicePairRelease (b : Fin 9) (s : State) : Host.Outcome State Fault Refusal := liveTop s (·.pairDown b.val)
/-- SLICE_SPARE_ACTIVE. -/
def execSliceSpareActive (sl : Fin 18) (fail : Option (BitVec 2 × Nat)) (s : State) : Host.Outcome State Fault Refusal :=
  liveTop s (·.spareTested sl fail)
/-- SPARE_TAKEOVER_DONE. -/
def execSpareTakeoverDone (s : State) : Host.Outcome State Fault Refusal := live s State.takeoverEnd

/-- A Chanter with activation pending is at an idle boundary, or its domain is off. -/
def State.patSwitch (s : State) (k : Nat) : State :=
  if s.chanterIdle k || !s.powered (chanterDomain k) then s.bankSwitch k else s
/-- PATCH_BANK_SWITCH. -/
def execPatchBankSwitch (k : Fin 9) (s : State) : Host.Outcome State Fault Refusal := live s (·.patSwitch k.val)

/-! ### Power states -/

/-- QUAD_IDLE_ENTRY. -/
def execQuadIdleEntry (q : Fin 8) (s : State) : Host.Outcome State Fault Refusal := live s (·.quadIdle q.val)
/-- QUAD_OFF_ENTRY. -/
def execQuadOffEntry (q : Fin 8) (s : State) : Host.Outcome State Fault Refusal := live s (·.quadOff q.val)
/-- QUAD_WAKE. -/
def execQuadWake (q : Fin 8) (s : State) : Host.Outcome State Fault Refusal := live s (·.quadWake q.val)
/-- DEEP_ENTRY_STEP. -/
def execDeepEntryStep (s : State) : Host.Outcome State Fault Refusal := live s State.sleepNext
/-- DEEP_EVENT_DRAIN_TIMEOUT: the queues cannot drain in step 4, reason 0x06. -/
def execDeepEventDrainTimeout (s : State) : Host.Outcome State Fault Refusal :=
  live s fun s => if s.tet.sleepStep = 4 then s.sleepAbandon 6 else s
/-- DEEP_WAKE. -/
def execDeepWake (ret : Option (BitVec 12)) (s : State) : Host.Outcome State Fault Refusal := live s (·.deepWakeUp ret)

end Sys2Proof.Machine
end

