-- ==== Sys2Proof/Machine/ChanterX.lean ====
section
/-! DEFINITION. The commands of Chanter: micro-words by their SEQ, faults, register operations, the op lane's actions, parks and
offers (chapter 4). The ROM image is not in the spec, so a register operation is also a command of its own. -/

namespace Sys2Proof.Machine

/-! ### Micro-words (R138 to R154) -/

/-- NEXT. -/
def execNextSeq (ch : Fin 32) (err : FetchErr) (s : State) : Host.Outcome State Fault Refusal := live s (·.runWord ch.val seqNext err)
/-- JUMP. -/
def execJump (ch : Fin 32) (err : FetchErr) (s : State) : Host.Outcome State Fault Refusal := live s (·.runWord ch.val seqJump err)
/-- BRANCH. -/
def execBranch (ch : Fin 32) (err : FetchErr) (s : State) : Host.Outcome State Fault Refusal := live s (·.runWord ch.val seqBranch err)
/-- CALL. -/
def execCallSeq (ch : Fin 32) (err : FetchErr) (s : State) : Host.Outcome State Fault Refusal := live s (·.runWord ch.val seqCall err)
/-- RET. -/
def execRet (ch : Fin 32) (err : FetchErr) (s : State) : Host.Outcome State Fault Refusal := live s (·.runWord ch.val seqRet err)
/-- YIELD. -/
def execYield (ch : Fin 32) (err : FetchErr) (s : State) : Host.Outcome State Fault Refusal := live s (·.runWord ch.val seqYield err)
/-- END. -/
def execEndSeq (ch : Fin 32) (err : FetchErr) (s : State) : Host.Outcome State Fault Refusal := live s (·.runWord ch.val seqEnd err)

/-- The word at a context's address raises the fault of its fetch or of its SEQ TRAP, 0x09 (R150); another word does not run here. -/
def State.trapWord (s : State) (n : Nat) (err : FetchErr) : State :=
  if !s.mayRun n then s
  else
    let f := s.fetchWord n err
    match f.bad with
    | some b => (s.takeTurn n f.corr).chanterFault n b
    | none => s
/-- TRAP. -/
def execTrap (ch : Fin 32) (err : FetchErr) (s : State) : Host.Outcome State Fault Refusal := live s (·.trapWord ch.val err)
/-- RUN_LIMIT_FAULT. -/
def execRunLimitFault (ch : Fin 32) (s : State) : Host.Outcome State Fault Refusal := live s (·.runLimit ch.val)
/-- WATCHDOG_FAULT. -/
def execWatchdogFault (ch : Fin 32) (s : State) : Host.Outcome State Fault Refusal := live s (·.watchdog ch.val)

/-! ### Offers, parks and timers (R144, R145, R355) -/

/-- OFFER_ROUTINE. -/
def execOfferRoutine (ch : Fin 32) (s : State) : Host.Outcome State Fault Refusal := liveTop s (·.offer ch.val)
/-- UNPARK. -/
def execUnpark (ch : Fin 32) (s : State) : Host.Outcome State Fault Refusal := live s (·.unpark ch.val)
/-- CHANTER_TIMER_EXPIRE. -/
def execChanterTimerExpire (g : Fin 1024) (s : State) : Host.Outcome State Fault Refusal := live s (·.timerExpire g.val)

/-! ### Parts of a micro-word on the running context -/

/-- The executing context of a channel changes; a free one holds no routine. -/
def State.onCtx (s : State) (n : Nat) (f : Ctx → Ctx) : State := if (s.ctxOf n).state = 0 then s else s.modCtx n f

/-- REQACK. -/
def execReqack (ch : Fin 32) (mask : BitVec 3) (s : State) : Host.Outcome State Fault Refusal := live s (·.onCtx ch.val (·.ack mask))

/-- The timer takes TIM16, or a register's low 16 bits. -/
def Ctx.loadTimer (c : Ctx) (src : TimerSrc) (unit : Nat) : Ctx :=
  match src with
  | .imm v => c.setTimer v.toNat unit
  | .reg r => c.setTimer ((c.reg r.val).toNat % 65536) unit
/-- TIMER_LOAD. -/
def execTimerLoad (ch : Fin 32) (src : TimerSrc) (unit : BitVec 2) (s : State) : Host.Outcome State Fault Refusal :=
  live s (·.onCtx ch.val (·.loadTimer src unit.toNat))

/-! ### Register operations (R141, R170, R180) -/

/-- MOV. -/
def execMov (ch : Fin 32) (rd : Fin 16) (imm : Word32) (s : State) : Host.Outcome State Fault Refusal := live s (·.onCtx ch.val (·.mov rd.val imm))
/-- MOVR. -/
def execMovr (ch : Fin 32) (rd rs : Fin 16) (s : State) : Host.Outcome State Fault Refusal := live s (·.onCtx ch.val (·.movr rd.val rs.val))
/-- ADD. -/
def execAdd (ch : Fin 32) (rd rs : Fin 16) (imm : Word32) (s : State) : Host.Outcome State Fault Refusal :=
  live s (·.onCtx ch.val (·.add rd.val rs.val imm))
/-- SUB. -/
def execSub (ch : Fin 32) (rd rs : Fin 16) (imm : Word32) (s : State) : Host.Outcome State Fault Refusal :=
  live s (·.onCtx ch.val (·.sub rd.val rs.val imm))
/-- AND. -/
def execAndOp (ch : Fin 32) (rd rs : Fin 16) (imm : Word32) (s : State) : Host.Outcome State Fault Refusal :=
  live s (·.onCtx ch.val (·.and rd.val rs.val imm))
/-- OR. -/
def execOrOp (ch : Fin 32) (rd rs : Fin 16) (imm : Word32) (s : State) : Host.Outcome State Fault Refusal :=
  live s (·.onCtx ch.val (·.or rd.val rs.val imm))
/-- SHR. -/
def execShr (ch : Fin 32) (rd rs : Fin 16) (imm : Word32) (s : State) : Host.Outcome State Fault Refusal :=
  live s (·.onCtx ch.val (·.shr rd.val rs.val imm))
/-- SHL. -/
def execShl (ch : Fin 32) (rd rs : Fin 16) (imm : Word32) (s : State) : Host.Outcome State Fault Refusal :=
  live s (·.onCtx ch.val (·.shl rd.val rs.val imm))
/-- DEC. -/
def execDec (ch : Fin 32) (rd : Fin 16) (s : State) : Host.Outcome State Fault Refusal := live s (·.onCtx ch.val (·.dec rd.val))
/-- CMP. -/
def execCmp (ch : Fin 32) (rs : Fin 16) (imm : Word32) (s : State) : Host.Outcome State Fault Refusal := live s (·.onCtx ch.val (·.cmp rs.val imm))
/-- LDK: the field of the die kind that v5 names. -/
def execLdk (ch : Fin 32) (rd : Fin 16) (imm : Word32) (s : State) : Host.Outcome State Fault Refusal :=
  live s fun s => s.onCtx ch.val fun c => c.load rd.val (BitVec.ofNat 32 (ldkField s.force c.kind (imm.toNat % 256)))
/-- LDX: four offsets of the retry set that v4 names. -/
def execLdx (ch : Fin 32) (rd rs : Fin 16) (s : State) : Host.Outcome State Fault Refusal :=
  live s fun s => s.onCtx ch.val fun c => c.load rd.val (BitVec.ofNat 32 (ldxWord s.force c.kind ((c.reg 4).toNat % 256) ((c.reg rs.val).toNat % 4)))
/-- LDS: the status latch, once the op lane has drained (R143). -/
def execLds (ch : Fin 32) (rd : Fin 16) (s : State) : Host.Outcome State Fault Refusal :=
  live s fun s => if (s.chanOf ch.val).lane.isEmpty then s.onCtx ch.val (·.load rd.val ((s.chanOf ch.val).stat.setWidth 32)) else s
/-- LDL: a word of the per-LUN state of the routine's LUN. -/
def execLdl (ch : Fin 32) (rd : Fin 16) (imm : Word32) (s : State) : Host.Outcome State Fault Refusal :=
  live s fun s => s.onCtx ch.val fun c => c.load rd.val (s.lunWord c.lun (imm.toNat % 8))

/-! ### Op-lane actions at the pads (Table 4.5) -/

/-- CE_ON. -/
def execCeOn (ch : Fin 32) (s : State) : Host.Outcome State Fault Refusal := live s (·.laneCeOn ch.val)
/-- CE_OFF. -/
def execCeOff (ch : Fin 32) (s : State) : Host.Outcome State Fault Refusal := live s (·.laneCeOff ch.val)
/-- CMD. -/
def execCmd (ch : Fin 32) (s : State) : Host.Outcome State Fault Refusal := live s (·.laneCmd ch.val)
/-- ADDR. -/
def execAddr (ch : Fin 32) (s : State) : Host.Outcome State Fault Refusal := live s (·.laneAddr ch.val)
/-- DIN. -/
def execDin (ch : Fin 32) (sram : List SramRead) (s : State) : Host.Outcome State Fault Refusal := live s (·.dinBurst ch.val sram)
/-- DOUT. -/
def execDout (ch : Fin 32) (burst : ReadBurst) (s : State) : Host.Outcome State Fault Refusal := live s (·.laneDout ch.val burst)
/-- STATUS. -/
def execStatus (ch : Fin 32) (st : Byte) (s : State) : Host.Outcome State Fault Refusal := live s (·.laneStatus ch.val st)
/-- TRN_RD. -/
def execTrnRd (ch : Fin 32) (data : List Byte) (s : State) : Host.Outcome State Fault Refusal := live s (·.laneTrnRd ch.val data)
/-- TRN_WR. -/
def execTrnWr (ch : Fin 32) (s : State) : Host.Outcome State Fault Refusal := live s (·.laneTrnWr ch.val)
/-- STAGING_RESERVED. -/
def execStagingReserved (ch : Fin 32) (s : State) : Host.Outcome State Fault Refusal := live s (·.reserve ch.val)

end Sys2Proof.Machine
end

