-- ==== Sys2Proof/Machine/LimitX.lean ====
section
/-! DEFINITION. Time limits of LUNs, suspension, deadlines, periods and padding (chapters 3, 8, 9 and 10). Each command stands for its
time having passed. -/

namespace Sys2Proof.Machine

/-! ### LUN limits (R128, R259, R361) -/

/-- LUN g has reached its time limit. With a routine on it COND LIMIT becomes true and its TIMEOUT leads to the reset; without one the
channel engine resets it at once. -/
def State.limit (s : State) (g : Nat) : State :=
  let l := s.lunOf g
  let n := lunChan g
  let run := s.runOf n g
  if !l.busy || l.resetting || l.limitHit || s.isFenced g || (run.map (fun c => c.op.role == Role.raw || c.op.role == Role.resetLun)).getD false then s
  else
    let own := (run.map (fun c => !c.op.isEngine || c.op.role == Role.resume || c.op.role == Role.finish)).getD false
    let o := match run with
      | some c => if c.op.isEngine then l.cur else c.op
      | none => l.cur
    let s := s.limitEvent g o
    if own then s.modLun g fun l => { l with limitHit := true } else s.hangReset g o
/-- LUN_TIME_LIMIT. -/
def execLunTimeLimit (g : Fin 1024) (s : State) : Host.Outcome State Fault Refusal := live s (·.limit g.val)

/-- tRST_max passes: the reset routine, if it still runs, is over. -/
def State.resetLate (s : State) (g : Nat) : State :=
  let n := lunChan g
  if !(s.lunOf g).resetting then s
  else
    let mine := fun (c : Ctx) => c.op.role == Role.resetLun
    let s := if (s.ctxOf n).state != 0 && (s.ctxOf n).lun == g && mine (s.ctxOf n) then s.freeCtx n g else s
    let s := if ((s.lunOf g).park.map mine).getD false then s.dropPark g else s
    (s.dropOps (fun o => o.role == Role.resetLun && o.loc.lun == g)).resetOver g false
/-- TRST_EXPIRY. -/
def execTrstExpiry (g : Fin 1024) (s : State) : Host.Outcome State Fault Refusal := live s (·.resetLate g.val)

/-- T_SUSP has passed after the suspend command of the LUN's program pass or erase. -/
def State.suspLate (s : State) (g : Nat) : State :=
  if s.passRuns g && (s.runOf (lunChan g) g).isSome && s.geo (GEO_DK_CTRL.SUSP (s.kind g)) == 1 then s.limit g else s
/-- SUSPEND_LIMIT. -/
def execSuspendLimit (g : Fin 1024) (s : State) : Host.Outcome State Fault Refusal := live s (·.suspLate g.val)

/-- The poll of a DIE_CMD reaches 2 ms: RAW_CMD ends TIMEOUT. -/
def State.rawLate (s : State) (g : Nat) : State :=
  let n := lunChan g
  match s.runOf n g with
  | none => s
  | some c =>
    if c.op.role != Role.raw then s
    else if (s.ctxOf n).state != 0 && (s.ctxOf n).lun == g then s.routineEnd n resTimeout
    else (s.dropPark g).routed g c.op resTimeout (c.reg 6).toNat (c.reg 7).toNat
/-- DIE_CMD_POLL_TIMEOUT. -/
def execDieCmdPollTimeout (g : Fin 1024) (s : State) : Host.Outcome State Fault Refusal := live s (·.rawLate g.val)

/-! ### Suspension (R360, R362) -/

/-- RESUME_MIN_WAIT. -/
def execResumeMinWait (g : Fin 1024) (s : State) : Host.Outcome State Fault Refusal := liveTop s (·.resumeMin g.val)
/-- RESUME. -/
def execResume (g : Fin 1024) (s : State) : Host.Outcome State Fault Refusal := liveTop s (·.resumeOp g.val)

/-- HOLD_MAX: no further read starts in the suspension, and RESUME follows the running transfers. -/
def State.holdMax (s : State) (g : Nat) : State :=
  if (s.lunOf g).suspended then (s.modLun g fun l => { l with holdMaxed := true }).resumeOp g else s
/-- HOLD_MAX_EXPIRY. -/
def execHoldMaxExpiry (g : Fin 1024) (s : State) : Host.Outcome State Fault Refusal := liveTop s (·.holdMax g.val)

/-! ### Deadlines and periods (R354, R359, R365, R368, R373) -/

/-- A tag's deadline passes: a READ or COPY source may be read around (moment 2); a write's has no effect but its band's order and its
detail (R375). -/
def State.deadline (s : State) (t : Nat) : State :=
  let tg := s.tagOf t
  if !s.openTag t || tg.past then s
  else
    (s.modTag t fun x => { x with past := true }).goAround t
/-- DEADLINE_PASS. -/
def execDeadlinePass (t : Fin 4096) (s : State) : Host.Outcome State Fault Refusal := liveTop s (·.deadline t.val)

/-- A 1 ms period ends: allowances and draws restart (R359, R369). -/
def State.periodEnd (s : State) : State :=
  let s := s.each (s.chans.map (·.1)) fun s n => s.modChan n fun c => { c with d0 := [] }
  s.each (List.range 8) fun s q => (s.modQuad q fun x => { x with drawn := [] }).keepCredit q
/-- D0_PERIOD_END. -/
def execD0PeriodEnd (s : State) : Host.Outcome State Fault Refusal := liveTop s State.periodEnd

/-- MISS_WAIT passes for the reads of a tag that wait for a fill; tag 0xFFF also names reads that serve no tag. -/
def State.missWait (s : State) (t : Nat) : State :=
  ((s.reads.filter (fun r => r.waitsRlh && (r.tag == some t || (r.tag == none && t == 0xFFF)))).map (·.id)).foldl (fun s id => s.fillEnds id true) s
/-- RLH_MISS_WAIT. -/
def execRlhMissWait (t : Fin 4096) (s : State) : Host.Outcome State Fault Refusal := liveTop s (·.missWait t.val)

/-! ### Padding after PAD_WAIT (R329, R331, R333, R342) -/

/-- A pass record's page is waited for: by a DURABLE program, by a first pass on another block than the horizon's, by an ERASE. -/
def State.padWanted (s : State) (g : Nat) (r : PassRec) : Bool :=
  (match r.tag with | some t => (s.tagOf t).held && !(s.tagOf t).inserted && dDurable r.desc | none => false)
    || (((s.lunOf g).horizon.map (·.1)) == some r.eb && s.ops.any (fun o => o.loc.lun == g && o.loc.eb != r.eb && o.opens))
    || s.ops.any (fun o => o.isErase && o.loc.lun == g && o.loc.eb == r.eb && s.rawEraseWaits o)
    || s.openTags.any (fun u => dOp (s.tagOf u).desc == opErase && (s.tagOf u).phase == 0 && !(s.tagOf u).waitsOrder && dLun (s.tagOf u).desc == g && dEb (s.tagOf u).desc == r.eb)

/-- The highest wanted page of each block without queued data is padded for. -/
def State.padWait (s : State) (g : Nat) : State :=
  let want := (s.lunOf g).recs.filter (fun r => !r.dead && s.padWanted g r && !s.fineMay g r.eb r.page)
  let tops := want.filter (fun r => !want.any (fun x => x.eb == r.eb && decide (r.page < x.page)))
  tops.foldl (fun s r => if s.dataQueued g r.eb then s else s.padBlock g r.eb r.page r.planes) s
/-- PAD_WAIT_EXPIRY. -/
def execPadWaitExpiry (g : Fin 1024) (s : State) : Host.Outcome State Fault Refusal := liveTop s (·.padWait g.val)

end Sys2Proof.Machine
end

