-- ==== Sys2Proof/Machine/Bellows.lean ====
section
/-! DEFINITION. Bellows: jobs, slices and the outcome of a decode (R38, R284 to R290, R298, R448), with the
on-chip store reads that a job reports (R439, R440). -/

namespace Sys2Proof.Machine

/-! ### Taking a job (R38, R288) -/

def Mode.soft (m : Mode) : Bool := m != .bf

/-- Slices that run min-sum jobs. -/
def State.softBusy (s : State) : Nat := s.slices.countP (fun e => (e.2.job.map (fun j => j.mode.soft)).getD false)

/-- The earliest deadline, then the earliest staging. -/
def firstJob : List Job → Option Job
  | [] => none
  | j :: l => match firstJob l with
    | none => some j
    | some k => if k.due < j.due || (k.due == j.due && decide (k.order < j.order)) then some k else some j

/-- The job that slice sl may take. -/
def State.nextJob (s : State) : Option Job :=
  firstJob (s.jobs.filter (fun j => !(j.mode.soft && decide (s.get BLW_CTRL.SOFT_MAX ≤ s.softBusy))))

/-- A free active slice of a powered pair takes its job, with the iteration limit in force (R290); after DEEP, once the decoder buffers are
filled (R473). -/
def State.jobStart (s : State) (sl : Nat) : State :=
  let x := s.sliceOf sl
  if x.st != sliceActive || x.job.isSome || !s.usable (pdB (sl / 2)) || !s.tet.bank32 || s.halted then s
  else match s.nextJob with
    | none => s
    | some j =>
      let n := if j.mode = .bf then s.get BLW_CTRL.ITER_BF_M1 + 1 else s.get BLW_CTRL.ITER_MS_M1 + 1
      { s with jobs := s.jobs.erase j }.modSlice sl fun x => { x with job := some { j with limit := n } }
/-- DECODE_JOB_START. -/
def execDecodeJobStart (sl : Fin 18) (s : State) : Host.Outcome State Fault Refusal := liveTop s (·.jobStart sl.val)

/-! ### The end of a job -/

def Job.tagNo (j : Job) : Nat := j.tag.getD 0xFFF

/-- A job goes back to the queue with its place kept. -/
def State.requeue (s : State) (j : Job) : State := if j.dead then s else s.addJob j (some j.order)

/-- A slice faults in the middle of its job (R289, R448). -/
def State.sliceFault (s : State) (sl : Fin 18) (code : Nat) (ctx : Job → Nat) : State :=
  match (s.sliceOf sl.val).job with
  | none => s
  | some j => (s.sliceLost sl code j.tagNo (ctx j)).requeue j

/-- Whether a job's word is a parity member's, which has no CRC (R317, R318). -/
def State.jobParity (s : State) (j : Job) : Bool :=
  match j.who with
  | .cw id _ => match s.readOf id with
    | some r => (match r.owner with | .tag _ => false | _ => true) && ((s.memberOf r.lun r.eb).map (fun m => s.parityPage m.1 r.page m.2)).getD false
    | none => false
  | .rebuilt r _ => ((s.racOf r).map (fun k => decide (k.member ≥ 32))).getD false

/-- A job has succeeded with a word. -/
def State.jobGood (s : State) (j : Job) (word : List Byte) : State :=
  let s := s.bump (if j.mode = .bf then BLW_CNT_BF.COUNT else BLW_CNT_MS.COUNT) 1
  let n := diffBits j.input word
  match j.who with
  | .cw id cw => s.cwGood id cw n j.set j.step word j.handle
  | .rebuilt r cw => s.racGood r cw n word

/-- A job has failed with a residual weight. -/
def State.jobBad (s : State) (j : Job) (weight : Nat) (miscorr : Bool) : State :=
  let s := s.bump BLW_CNT_FAIL.COUNT 1
  let s := if miscorr then s.bump BLW_CNT_MISCORR.COUNT 1 else s
  match j.who with
  | .cw _ _ => s.jobFailed j weight
  | .rebuilt r cw => s.racBad r cw

/-- An on-chip store error touched a job's data: ST_DATA_POISON for its code word (R298); a rebuilt word counts as not recovered. -/
def State.jobPoisoned (s : State) (j : Job) (detail : Nat) : State :=
  let s := s.bump BLW_CNT_FAIL.COUNT 1
  match j.who with
  | .cw id cw => ((((s.recountJobs id).cwEnd id cw (.poison detail)).recountJobs id).readGo id)
  | .rebuilt r cw => s.racBad r cw

/-- The store reads of a job in order; the detail of the first uncorrectable one that held its data. -/
def State.jobStores (s : State) (j : Job) : List SramRead → Option Nat × State
  | [] => (none, s)
  | r :: l =>
    let (bad, s) := s.storeRead r j.tag
    let (d, s) := s.jobStores j l
    (if bad && r.bank.val == j.ch then some 1 else if bad && r.bank.val == 32 then some 2 else d, s)

/-- A slice's job ends with a word. The spec fixes a min-sum job's input and messages (R286) but not its a-posteriori values, and not which bits
BF flips: the word is the report's, judged by R285; a report beyond the iteration limit, or of a min-sum job
that stops short of it with checks unsatisfied, is none that a slice gives (log entry 80). -/
def State.jobDone (s : State) (sl : Fin 18) (rep : DecodeReport) : State :=
  match (s.sliceOf sl.val).job with
  | none => s
  | some j =>
    let weight := ldpcWeight (s.ldpcM j.loc.lun) rep.word
    if j.limit < rep.iters then s
    else if s.ballast.sliceArmed == some sl.val then
      { s with ballast := { s.ballast with sliceArmed := none } }.sliceFault sl 1 (·.tagNo)
    else if rep.sliceErr = 1 || rep.sliceErr = 2 then s.sliceFault sl rep.sliceErr.toNat (·.tagNo)
    else if j.mode.soft && decide (rep.iters < j.limit) && weight != 0 then s
    else
      let s := s.modSlice sl.val fun x => { x with job := none }
      let (poison, s) := s.jobStores j rep.sram
      if j.dead then s
      else match poison with
      | some d => s.jobPoisoned j d
      | none =>
        let crc := s.jobParity j || crcOk rep.word
        if weight = 0 && crc then s.jobGood j rep.word else s.jobBad j weight (weight = 0)
/-- DECODE_JOB_DONE. -/
def execDecodeJobDone (sl : Fin 18) (rep : DecodeReport) (s : State) : Host.Outcome State Fault Refusal := liveTop s (·.jobDone sl rep)

def Mode.code (m : Mode) : Nat := match m with | .bf => 0 | .hm => 1 | .s2 => 2 | .s3 => 3

/-- SLICE_JOB_OVERRUN: slice code 0x03. -/
def execSliceJobOverrun (sl : Fin 18) (s : State) : Host.Outcome State Fault Refusal :=
  liveTop s (·.sliceFault sl 3 fun j => j.tagNo + j.mode.code * 2 ^ 12)

end Sys2Proof.Machine
end

