-- ==== Sys2Proof/Machine/QueueX.lean ====
section
/-! DEFINITION. Submission: the Push port's commands, the doorbell shadow's drain, ring fetches and stale entries (R204 to R214). -/

namespace Sys2Proof.Machine

/-! ### The Push port -/

/-- INLINE_PUSH. -/
def execInlinePush (beats : List Beat) (s : State) : Host.Outcome State Fault Refusal := live s (·.pushPort beats)
/-- SQ_TAIL_DOORBELL. -/
def execSqTailDoorbell (beats : List Beat) (s : State) : Host.Outcome State Fault Refusal := live s (·.pushPort beats)
/-- CQ_HEAD_DOORBELL. -/
def execCqHeadDoorbell (beats : List Beat) (s : State) : Host.Outcome State Fault Refusal := live s (·.pushPort beats)
/-- EV_HEAD_DOORBELL. -/
def execEvHeadDoorbell (beats : List Beat) (s : State) : Host.Outcome State Fault Refusal := live s (·.pushPort beats)
/-- PUSH_RESERVED_WRITE. -/
def execPushReservedWrite (beats : List Beat) (s : State) : Host.Outcome State Fault Refusal := live s (·.pushPort beats)
/-- DOORBELL_SHADOW_WRITE. -/
def execDoorbellShadowWrite (beats : List Beat) (s : State) : Host.Outcome State Fault Refusal := live s (·.pushPort beats)

/-- The shadow's writes go to the queue engine in their order, then the held write (R32). -/
def State.shadowDrain (s : State) : State :=
  if s.tet.sleepStep ≥ 2 || s.freset.busy then s else (State.drainShadow 65 s).pushRetry
/-- DOORBELL_SHADOW_DRAIN. -/
def execDoorbellShadowDrain (s : State) : Host.Outcome State Fault Refusal := liveTop s State.shadowDrain

/-! ### Ring fetches (R209) -/

/-- The queue engine works: not halted, not in a DEEP entry's steps 2 and on, no function reset. -/
def State.engineOn (s : State) : Bool := s.topOn && !s.halted && decide (s.tet.sleepStep < 2) && !s.freset.busy

/-- Tags that a forerunner SQ can be given at this moment (R219). -/
def State.tagRoom (s : State) (q : Nat) : Nat :=
  let c := s.get (SQ_CFG.CQ q)
  let depth := (((List.range 128).filter (fun i => s.on (SQ_STAT.ENABLED i) && s.native i && s.get (SQ_CFG.CQ i) == c)).map s.sqN).sum
  min s.sharedFree (s.get (CQ_CFG.QUOTA_M1 c) + 1 - (s.heldOn (fun t => t.shared && t.cq == c) + depth))

/-- Host address of a ring entry of SQ q. -/
def State.sqAddr (s : State) (q idx : Nat) : Nat :=
  (s.reg (SQ_BASE_HI.adr q)).toNat * 2 ^ 32 + (s.reg (SQ_BASE_LO.adr q)).toNat + idx % 65536 * 64

/-- Entries that the next request carries: up to 16, to the tail, the ring's end, the 4 KiB boundary, and the tags left. -/
def State.fetchLen (s : State) (q : Nat) : Nat :=
  let x := s.sqOf q
  let n := s.sqN q
  let a := s.sqAddr q x.fetchIdx
  min (min (min 16 (ixCount n x.fetchIdx (s.sqTail q))) (min (n - x.fetchIdx % 65536) ((4096 - a % 4096) / 64)))
    (s.tagRoom q - (x.fetched.length + x.fetching))

def State.ringFetch (s : State) (q : Nat) : State :=
  let k := s.fetchLen q
  if !s.engineOn || !s.on (SQ_STAT.ENABLED q) || s.native q || k = 0 then s
  else
    let i := (s.sqOf q).fetchIdx
    let a := s.sqAddr q i
    (s.modSq q fun x => { x with fetchIdx := ixAdd (s.sqN q) i k, fetching := x.fetching + k }).ask (spoolRead 0 34 a (64 * k) (.fetch q i k))
/-- RING_FETCH. -/
def execRingFetch (sq : Fin 128) (s : State) : Host.Outcome State Fault Refusal := liveTop s (·.ringFetch sq.val)

/-! ### Tags -/

/-- A tag is given to a descriptor of SQ q (R216, R218, R232). -/
def State.newTag (s : State) (t q : Nat) (d : Desc) : State :=
  let wait := if dDeadline d = 0 then fld (s.reg (0x8010 + 4 * dClass d)) 23 0 else dDeadline d
  let (k, s) := s.newSeq
  s.modTag t fun _ =>
    { held := true, desc := d, sq := q, tenant := s.get (SQ_CFG.TENANT q), cq := s.get (SQ_CFG.CQ q), shared := !s.native q, seq := k, due := s.us + wait }

/-- The head of a forerunner SQ moves past the entry taken in (R210). -/
def State.headNext (s : State) (q : Nat) : State :=
  (s.modSq q fun x => { x with fetched := x.fetched.drop 1 }).put (SQ_HEAD.INDEX q) (ixNext (s.sqN q) (s.sqHead q))

/-! ### Stale entries (R211, R212) -/

/-- The stale entry at the head of a forerunner SQ. -/
def State.staleHead (s : State) (q : Nat) : Option Nat :=
  match (s.sqOf q).fetched with
  | (i, d) :: _ => if i == s.sqHead q && !fresh i d then some i else none
  | [] => none

def State.refetchOut (s : State) (q : Nat) : Bool :=
  let p := fun (r : Spool) => match r.cont with | .refetch x _ => x == q | _ => false
  s.ready.any p || s.flying.any p

/-- The descriptor kept for a stale entry: a NOP that carries host tag 0xFFFF. -/
def noDesc : Desc := BitVec.ofNat 512 (0xFFFF * 2 ^ 32)

/-- ST_STALE_ENTRY: the head advances past the entry, and its completion carries the next index. -/
def State.staleEnd (s : State) (q t : Nat) : State :=
  let s := (s.newTag t q noDesc).headNext q
  let s := (s.modSq q fun x => { x with tries := 0, refetching := false }).bump (SQ_CNT.STALE q) 1
  s.cosInsert t { status := 0x15, hostTag := 0xFFFF, head := s.sqHead q }

/-- A stale entry is fetched again up to eight times, then completes (R211). DESIGN CHOICE (log entry 95): also while VALIDATE runs, since no
descriptor is taken in by it. -/
def State.staleNext (s : State) (q t : Nat) : State :=
  match s.staleHead q with
  | none => s
  | some i =>
    if !s.engineOn || !s.on (SQ_STAT.ENABLED q) || s.refetchOut q then s
    else if (s.sqOf q).tries < 8 then
      (s.modSq q fun x => { x with tries := x.tries + 1, refetching := true }).ask (spoolRead 0 34 (s.sqAddr q i) 64 (.refetch q i))
    else if (s.tagOf t).held || !s.tagOk q then s
    else s.staleEnd q t
/-- STALE_REFETCH. -/
def execStaleRefetch (sq : Fin 128) (t : Fin 4096) (s : State) : Host.Outcome State Fault Refusal := liveTop s (·.staleNext sq.val t.val)

end Sys2Proof.Machine
end

