-- ==== Sys2Proof/Machine/Intake.lean ====
section
/-! DEFINITION. Intake: a descriptor gets its tag, its checks and its place in its queues (R215 to R219, R236, R249, R254, R256, R263). -/

namespace Sys2Proof.Machine

/-- The descriptor that SQ q has ready. -/
def State.sqFront (s : State) (q : Nat) : Option Desc :=
  if s.native q then (s.sqOf q).slot.head?
  else match (s.sqOf q).fetched with
  | (i, d) :: _ => if i == s.sqHead q && fresh i d then some d else none
  | [] => none

/-- The SQ whose turn it is: the next in SQ number that has a descriptor and a tag (R215, R219). -/
def State.nextSq (s : State) : Option Nat :=
  ((List.range 128).map (fun i => (s.rrSq + i) % 128)).find? (fun q => s.on (SQ_STAT.ENABLED q) && (s.sqFront q).isSome && s.tagOk q)

/-- Units of a descriptor's data stream, in transfer-index order (R236, R388). -/
def State.unitsOf (s : State) (d : Desc) : List Cw :=
  let op := dOp d
  if op = opRead || op = opReadRaw || op = opCopy then
    (planeList (dPlanes d)).flatMap fun p => (List.range (dCwCount d)).map fun c => { plane := p, cw := dFirstCw d + c }
  else if op = opProgAt then
    (planeList (dPlanes d)).flatMap fun p => (List.range (s.ncw (dLun d))).map fun c => { plane := p, cw := c }
  else if op = opAppend then
    let st := s.stripeOf (dStripe d)
    (planeList st.planes).flatMap fun p => (List.range (s.ncw (stripeLun st))).map fun c => { plane := p, cw := c }
  else if (op = opDieCmd || op = opRoutine) && usesShape d then List.replicate (shapeLen d) {}
  else []

/-- The descriptor's work lies in stripe sid: appends, COPYs and SUBSTITUTEs (R249, R254). -/
def inStripe (d : Desc) (sid : Nat) : Bool :=
  (dOp d == opAppend && dStripe d == sid) || ((dOp d == opCopy || dOp d == opSubstitute) && dAux d == sid)

/-- Tags taken in before t that its completion waits for. -/
def State.waitSet (s : State) (t : Nat) : List Nat :=
  let d := (s.tagOf t).desc
  let mine := fun (u : Nat) =>
    let x := s.tagOf u
    if dOp d = opStripeClose then inStripe x.desc (dStripe d)
    else if dScope d = 2 then true else if dScope d = 1 then inStripe x.desc (dStripe d) else x.sq == (s.tagOf t).sq
  if dOp d = opStripeClose || dOp d = opFlush then s.openTags.filter (fun u => u != t && mine u) else []

/-- A checked descriptor with its tag goes on to its work. -/
def State.takeOn (s : State) (t : Nat) : State :=
  let d := (s.tagOf t).desc
  let op := dOp d
  let s := s.modTag t fun x => { x with cws := s.unitsOf d, waitsFor := if op = opRlhSync then s.syncMark else s.waitSet t, matched := if op = opRlhSync then s.syncMark.length else 0 }
  let s := if op = opStripeClose then s.modStripe (dStripe d) fun x => { x with closing := true } else s
  let s := if op = opAppend then
      let ((r, m), s) := s.takeSlot (dStripe d)
      s.modTag t fun x => { x with slot := some (dStripe d, r, m) }
    else s
  if op = opAbort then s.abortIntake t
  else if dOrdered d && s.orderWaits t then s.modTag t fun x => { x with waitsOrder := true }
  else s.startTag t

/-- The front descriptor of SQ q is taken in under tag t (R216). -/
def State.takeIn (s : State) (q t : Nat) (d : Desc) : State :=
  let s := if s.native q then s.modSq q fun x => { x with slot := x.slot.drop 1 } else s.headNext q
  let s := { s with rrSq := (q + 1) % 128 }.newTag t q d
  match s.intakeBad (s.tagOf t).tenant d with
  | some (st, x) => s.complete t st x 0 0
  | none => s.takeOn t

/-- Intake of a descriptor with this opcode; NOP's row also takes opcodes that Table 7.3 does not list. -/
def State.intake (s : State) (op q t : Nat) : State :=
  if !s.engineOn || s.on GEO_STAT.BUSY || (s.tagOf t).held || s.nextSq != some q then s
  else match s.sqFront q with
    | none => s
    | some d => if dOp d = op || (op = opNop && !opcodes.contains (dOp d)) then s.takeIn q t d else s

/-- NOP. -/
def execNop (sq : Fin 128) (t : Fin 4096) (s : State) : Host.Outcome State Fault Refusal := liveTop s (·.intake opNop sq.val t.val)
/-- READ. -/
def execRead (sq : Fin 128) (t : Fin 4096) (s : State) : Host.Outcome State Fault Refusal := liveTop s (·.intake opRead sq.val t.val)
/-- READ_RAW. -/
def execReadRaw (sq : Fin 128) (t : Fin 4096) (s : State) : Host.Outcome State Fault Refusal := liveTop s (·.intake opReadRaw sq.val t.val)
/-- COPY. -/
def execCopy (sq : Fin 128) (t : Fin 4096) (s : State) : Host.Outcome State Fault Refusal := liveTop s (·.intake opCopy sq.val t.val)
/-- PROGRAM_APPEND. -/
def execProgramAppend (sq : Fin 128) (t : Fin 4096) (s : State) : Host.Outcome State Fault Refusal := liveTop s (·.intake opAppend sq.val t.val)
/-- PROGRAM_AT. -/
def execProgramAt (sq : Fin 128) (t : Fin 4096) (s : State) : Host.Outcome State Fault Refusal := liveTop s (·.intake opProgAt sq.val t.val)
/-- ERASE. -/
def execErase (sq : Fin 128) (t : Fin 4096) (s : State) : Host.Outcome State Fault Refusal := liveTop s (·.intake opErase sq.val t.val)
/-- ERASE_CHECK. -/
def execEraseCheck (sq : Fin 128) (t : Fin 4096) (s : State) : Host.Outcome State Fault Refusal := liveTop s (·.intake opEraseCheck sq.val t.val)
/-- STRIPE_OPEN. -/
def execStripeOpen (sq : Fin 128) (t : Fin 4096) (s : State) : Host.Outcome State Fault Refusal := liveTop s (·.intake opStripeOpen sq.val t.val)
/-- STRIPE_CLOSE. -/
def execStripeClose (sq : Fin 128) (t : Fin 4096) (s : State) : Host.Outcome State Fault Refusal := liveTop s (·.intake opStripeClose sq.val t.val)
/-- SUBSTITUTE. -/
def execSubstitute (sq : Fin 128) (t : Fin 4096) (s : State) : Host.Outcome State Fault Refusal := liveTop s (·.intake opSubstitute sq.val t.val)
/-- REBUILD. -/
def execRebuild (sq : Fin 128) (t : Fin 4096) (s : State) : Host.Outcome State Fault Refusal := liveTop s (·.intake opRebuild sq.val t.val)
/-- TALLY_WRITE. -/
def execTallyWrite (sq : Fin 128) (t : Fin 4096) (s : State) : Host.Outcome State Fault Refusal := liveTop s (·.intake opTallyWrite sq.val t.val)
/-- TALLY_SCAN. -/
def execTallyScan (sq : Fin 128) (t : Fin 4096) (s : State) : Host.Outcome State Fault Refusal := liveTop s (·.intake opTallyScan sq.val t.val)
/-- FLUSH. -/
def execFlush (sq : Fin 128) (t : Fin 4096) (s : State) : Host.Outcome State Fault Refusal := liveTop s (·.intake opFlush sq.val t.val)
/-- ABORT. -/
def execAbort (sq : Fin 128) (t : Fin 4096) (s : State) : Host.Outcome State Fault Refusal := liveTop s (·.intake opAbort sq.val t.val)
/-- RLH_SYNC. -/
def execRlhSync (sq : Fin 128) (t : Fin 4096) (s : State) : Host.Outcome State Fault Refusal := liveTop s (·.intake opRlhSync sq.val t.val)
/-- DIE_CMD. -/
def execDieCmd (sq : Fin 128) (t : Fin 4096) (s : State) : Host.Outcome State Fault Refusal := liveTop s (·.intake opDieCmd sq.val t.val)
/-- ROUTINE. -/
def execRoutine (sq : Fin 128) (t : Fin 4096) (s : State) : Host.Outcome State Fault Refusal := liveTop s (·.intake opRoutine sq.val t.val)

end Sys2Proof.Machine
end

