-- ==== Sys2Proof/Machine/Post.lean ====
section
/-! DEFINITION. Completion writing (R205, R210, R221 to R226, R264, R397, R399) and the event rings' writes (R415 to R423). -/

namespace Sys2Proof.Machine

/-! ### Completions -/

/-- The 16 bytes of a completion at CQ index i (Table 7.7). -/
def cplBytes (c : Cpl) (i : Nat) : List Byte :=
  natLe 4 ((ixPhase i).toNat * 2 ^ 31 + c.sq % 128 * 2 ^ 24 + c.status % 256 * 2 ^ 16 + c.hostTag % 65536)
    ++ natLe 4 (c.detail % 256 * 2 ^ 24 + c.head % 2 ^ 17) ++ natLe 4 c.info0 ++ natLe 4 c.info1

def State.modCos (s : State) (t : Nat) (f : Cpl → Cpl) : State :=
  { s with cos := s.cos.map (fun e => if e.1 = t then (t, f e.2) else e) }

/-- A completion that BARRIER holds back (R397). -/
def State.barred (s : State) (t : Nat) : Bool := dBarrier (s.tagOf t).desc && decide ((s.tagOf t).writes ≠ 0)

/-- Oldest waiting completions that may be written: up to n, none from a held one on (R221, R419). -/
def State.writable (s : State) : Nat → List Nat → List Nat
  | 0, _ => []
  | _, [] => []
  | n + 1, t :: l => if s.barred t || s.holds (.tag t) then [] else t :: s.writable n l

/-- The head that a completion carries: a native SQ's after its advance (R205), a forerunner's at the write (R210), the index after a stale
entry (R212). -/
def State.cplHead (s : State) (t : Nat) : State :=
  let c := s.cosOf t
  if c.status = 0x15 then s
  else if s.native c.sq then
    let h := ixNext (s.sqN c.sq) (s.sqHead c.sq)
    (s.put (SQ_HEAD.INDEX c.sq) h).modCos t fun c => { c with head := h }
  else s.modCos t fun x => { x with head := s.sqHead c.sq }

/-- A write that failed while BARRIER held the completion replaces its status (R399). -/
def State.cplLate (s : State) (t : Nat) : State :=
  let tg := s.tagOf t
  match tg.dmaErr with
  | some e =>
    if dBarrier tg.desc && (s.cosOf t).status != 0x40 then
      let (k, left) := s.residue t
      s.modCos t fun c => { c with status := 0x40, detail := e, info0 := k, info1 := left }
    else s
  | none => s

/-- EV_DESC_DONE (R233, Table 12.6). -/
def State.descDone (s : State) (t : Nat) : State :=
  if dEventOnDone (s.tagOf t).desc then
    let c := s.cosOf t
    s.raise 264 0 (c.hostTag + c.sq * 2 ^ 16 + c.status * 2 ^ 24 + c.detail * 2 ^ 32)
  else s

def State.cqAddr (s : State) (c idx : Nat) : Nat :=
  (s.reg (CQ_BASE_HI.adr c)).toNat * 2 ^ 32 + (s.reg (CQ_BASE_LO.adr c)).toNat + idx % 65536 * 16

/-- The tags' completions go out in one beat at the tail, which moves past them; NOTIFY raises EV_CQ_POSTED (R221, R226). -/
def State.cplSend (s : State) (c : Nat) (ts : List Nat) : State :=
  let n := s.cqN c
  let i := s.cqTail c
  let data := ts.zipIdx.flatMap (fun (t, k) => cplBytes (s.cosOf t) (ixAdd n i k))
  let s := (s.put (CQ_TAIL.INDEX c) (ixAdd n i ts.length)).modCq c fun q => { q with issued := ts }
  let s := s.ask (spoolWrite (c % 2) c (s.cqAddr c i) data (.cpl c ts.length))
  if s.on (CQ_CFG.NOTIFY c) && !(s.cqOf c).posted then (s.modCq c fun q => { q with posted := true }).raise 262 0 c else s

/-- A failed completion write waits for room for its event (R419). -/
def State.cplHeld (s : State) (c : Nat) : Bool :=
  let p := fun (r : EvRec) => match r.holder with | some (.work (.cpl x _)) => x == c | _ => false
  (s.ringOf 0).late.any p || (s.ringOf 1).late.any p

/-- The completion writer takes up a CQ: a beat to be retried first, then the oldest waiting completions (R221, R222, R223). -/
def State.cplWrite (s : State) (c : Nat) : State :=
  let q := s.cqOf c
  if s.halted || s.freset.busy || !s.cqEnabled c || q.retry || s.cplOut c || s.cplHeld c then s
  else if !q.issued.isEmpty then (q.issued.foldl State.cplHead s).cplSend c q.issued
  else
    let room := min (4 - s.cqTail c % 65536 % 4) (s.cqN c - s.cqCount c)
    match s.writable room q.waiting with
    | [] => s
    | ts =>
      let s := s.modCq c fun q => { q with waiting := q.waiting.drop ts.length }
      ts.foldl State.descDone ((ts.foldl (fun s t => (s.cplLate t).cplHead t) s).cplSend c ts)
/-- COMPLETION_WRITE. -/
def execCompletionWrite (cq : Fin 32) (s : State) : Host.Outcome State Fault Refusal := liveTop s (·.cplWrite cq.val)

/-- A CQ has stayed full for LIMIT µs (R225). -/
def State.cqStall (s : State) (c : Nat) : State :=
  if !s.cqFull c || s.get (CQ_STALL.LIMIT c) = 0 || (s.cqOf c).stallTold then s
  else ((s.put (CQ_STAT.STALLED c) 1).modCq c fun q => { q with stallTold := true }).raise 263 0 (c + s.cqWait c % 2 ^ 13 * 2 ^ 16)
/-- CQ_STALL. -/
def execCqStall (cq : Fin 32) (s : State) : Host.Outcome State Fault Refusal := liveTop s (·.cqStall cq.val)

/-! ### Event records -/

/-- The 16 bytes of a record at ring index i (Table 12.1). -/
def evBytes (e : EvRec) (i : Nat) : List Byte := [0, 1, 2, 3].flatMap fun k => natLe 4 (e.word (ixPhase i) e.coal k).toNat

def State.evOut (s : State) (r : Nat) : Bool :=
  let p := fun (q : Spool) => match q.cont with | .event x _ => x == r | _ => false
  s.ready.any p || s.flying.any p

/-- Records go out in one beat from the tail. -/
def State.evSend (s : State) (r : Nat) (l : List EvRec) : State :=
  let n := s.evN r
  let i := s.get (evF r EV_TAIL.INDEX)
  let data := l.zipIdx.flatMap (fun (e, k) => evBytes e (ixAdd n i k))
  (s.modRing r fun x => { x with out := l }).ask (spoolWrite 0 (32 + r) (evBase s r + i % 65536 * 16) data (.event r l.length))

/-- Records whose write failed go out again first (R418); else up to 4 leave the queue as the ring has room (R415). -/
def State.evWrite (s : State) (r : Nat) : State :=
  let x := s.ringOf r
  if s.halted || !s.on (evF r EV_STAT.ENABLED) || x.disabling || x.halted || s.evOut r then s
  else if !x.out.isEmpty then s.evSend r x.out
  else
    let n := s.evN r
    let t := s.get (evF r EV_TAIL.INDEX)
    let k := min (4 - t % 65536 % 4) (n - ixCount n (s.get (evF r EV_HEAD.INDEX)) t)
    match x.queue.take k with
    | [] => s
    | l => ((s.modRing r fun x => { x with queue := x.queue.drop k }).evSend r l).refillRing r
/-- EVENT_RECORD_WRITE. -/
def execEventRecordWrite (r : Fin 2) (s : State) : Host.Outcome State Fault Refusal := liveTop s (·.evWrite r.val)

/-- A ring that a DISABLE waits for is disabled once its writes have finished (R416). -/
def State.evSettle (s : State) (r : Nat) : State :=
  if (s.ringOf r).disabling then (s.put (evF r EV_STAT.ENABLED) 0).modRing r fun x => { x with disabling := false } else s

/-- The response of a record write (R415, R418, Table 13.4 T0 code 0x03). -/
def State.evResponse (s : State) (r n : Nat) (addr : Nat) (err : Nat) : State :=
  if err = 0 then
    let s := s.put (evF r EV_TAIL.INDEX) (ixAdd (s.evN r) (s.get (evF r EV_TAIL.INDEX)) n)
    ((s.bump (evF r EV_CNT.WRITTEN) n).modRing r fun x => { x with out := [] }).evSettle r
  else
    let s := ((s.put (evF r EV_STAT.WERR) 1).modRing r fun x => { x with halted := true }).fault (.top 0) 3 1 r
    (s.raise 288 1 (r + err * 2 + addr / 64 * 64)).evSettle r

/-- The holdoff of a ring ends (R423). -/
def execHoldoffEnd (r : Fin 2) (s : State) : Host.Outcome State Fault Refusal :=
  liveTop s (·.modRing r.val fun x => { x with holdoff := false })

end Sys2Proof.Machine
end

