-- ==== Sys2Proof/Machine/Dma.lean ====
section
/-! DEFINITION. The Spool ports (R62 to R69, R387 to R401) and the Pool port (R70 to R73, R402 to R406): requests leave, responses and
answers arrive. -/

namespace Sys2Proof.Machine

/-! ### Requests -/

/-- The lowest transaction ID that port p does not use (R62). -/
def State.freeTid (s : State) (p : Nat) : Option Nat :=
  (List.range 256).find? (fun i => !s.flying.any (fun r => r.port == p && r.tid == i))

/-- The tag whose data or metadata a request carries, as R396 counts it. -/
def Cont.dataTag (c : Cont) : Option Nat := match c with
  | .user t _ _ => some t
  | .metaOut t _ => some t
  | .hostUser t _ _ _ _ => some t
  | .hostMeta t _ _ _ => some t
  | _ => none

/-- The first ready request of a port is issued while an ID is free (R395). -/
def State.spoolIssue (s : State) (p : Nat) : State :=
  if s.halted then s
  else match s.ready.find? (fun r => r.port == p), s.freeTid p with
  | some r, some i =>
    let s := { s with ready := s.ready.erase r, flying := s.flying ++ [{ r with tid := i }] }
    match r.cont.dataTag with
    | some t => (s.modTag t fun x => { x with unissued := x.unissued - 1, writes := if r.write then x.writes + 1 else x.writes, reads := if r.write then x.reads else x.reads + 1 }).later (.tagCheck t)
    | none => s
  | _, _ => s
/-- Change unit k of a tag's data stream. -/
def State.modUnit (s : State) (t k : Nat) (f : Cw → Cw) : State :=
  s.modTag t fun x => { x with cws := x.cws.modify k f }

/-- A unit of tag t cannot leave for host memory: an on-chip store error touched its data (R440, R492, R298). A code word of a read
is marked, its requests go; other data ends its tag. -/
def State.unitPoisoned (s : State) (t k d : Nat) : State :=
  let tg := s.tagOf t
  let mine := fun (r : Spool) => match r.cont with | .user x u _ => x == t && u == k | .metaOut x u => x == t && u == k | _ => false
  if dOp tg.desc = opRead || dOp tg.desc = opReadRaw then
    let n := s.ready.countP mine
    (({ s with ready := s.ready.filter (fun r => !mine r) }.modTag t fun x => { x with unissued := x.unissued - n }).modUnit t k fun c => { c with res := .poison d }).later (.tagCheck t)
  else s.later (.endTag t 0x35 d 0 0)

/-- The store reads of a request's data in order; the detail of the first uncorrectable one of its channel's staging or of the decoder
buffers. -/
def State.requestReads (s : State) (t : Option Nat) : List SramRead → Option Nat × State
  | [] => (none, s)
  | r :: l =>
    let (bad, s) := s.storeRead r t
    let (d, s) := s.requestReads t l
    let n := t.map (fun t => lunChan (dLun (s.tagOf t).desc))
    (if bad && n == some r.bank.val then some 1 else if bad && n.isSome && r.bank.val == 32 then some 2 else d, s)

/-- The request that a port issues next, with the on-chip store reads of its data that met an error (R439, R440). -/
def State.spoolRequest (s : State) (p : Nat) (sram : List SramRead) : State :=
  if s.halted then s
  else match s.ready.find? (fun r => r.port == p), s.freeTid p with
  | some r, some _ =>
    let unit := match r.cont with | .user t k _ => if (s.tagOf t).held then some (t, k) else none | _ => none
    let (d, s) := s.requestReads (unit.map (·.1)) sram
    match unit, d with
    | some (t, k), some d => s.unitPoisoned t k d
    | _, _ => s.spoolIssue p
  | _, _ => s
/-- SPOOL_REQUEST. -/
def execSpoolRequest (r : PortTurn) (s : State) : Host.Outcome State Fault Refusal :=
  liveTop s (·.spoolRequest r.port.val r.sram)

/-! ### Errors on tagged traffic (R398, R399) -/

/-- Port, direction and code as `cpl.detail` carries them (Table 7.8). -/
def dmaDetail (r : Spool) (err : Nat) : Nat := r.port * 8 + (if r.write then 0 else 4) + err % 4

/-- An error response on a request of tag t: the transfer ends, or the error is late. `who`: the tag that the event names, none's for a
stripe image (R400). -/
def State.dmaTagError (s : State) (r : Spool) (err t : Nat) (who : Nat := t) : State :=
  let tg := s.tagOf t
  if !tg.held then s.dmaErrorEvent r err false who none
  else if tg.inserted then
    let held := dBarrier tg.desc && (s.cqOf tg.cq).waiting.contains t
    let s := if held && tg.dmaErr.isNone then s.modTag t fun x => { x with dmaErr := some (dmaDetail r err) } else s
    s.dmaErrorEvent r err true who (some (.tag t))
  else
    let s := s.modTag t fun x => { x with dmaErr := x.dmaErr <|> some (dmaDetail r err), ended := true }
    let s := (s.withdraw t).dmaErrorEvent r err false who (some (.tag t))
    let (k, left) := s.residue t
    let s := { s with parked := s.parked.map (fun (p : Nat × Cpl) => if p.1 = t then (t, { p.2 with status := 0x40, detail := ((s.tagOf t).dmaErr).getD 0, info0 := k, info1 := left }) else p) }
    s.later (.tagCheck t)

/-- Bytes of unit k have moved with success (R401). -/
def State.unitMoved (s : State) (t k n : Nat) : State :=
  (s.modTag t fun x => { x with moved := x.moved + n }).modUnit t k fun c => { c with moved := c.moved + n }

/-- Whether p holds of no request that waits or is outstanding. -/
def State.noneOut (s : State) (p : Cont → Bool) : Bool := !s.ready.any (fun r => p r.cont) && !s.flying.any (fun r => p r.cont)

/-- The user data of unit k has been written and answered: its code word's staging space is freed (R24), a poisoned one's not yet. -/
def State.freeUnit (s : State) (t k : Nat) : State :=
  let tg := s.tagOf t
  let mine := fun (c : Cont) => match c with | .user x u _ => x == t && u == k | _ => false
  if !(dOp tg.desc == opRead || dOp tg.desc == opReadRaw) || !s.noneOut mine then s
  else match tg.cws[k]? with
  | some c => s.dropStage (lunChan (dLun tg.desc)) (fun g => c.res.good && g.done && g.tag == some t && g.loc.planes == 2 ^ c.plane && g.cw == c.cw)
  | none => s

/-- A piece of unit k's metadata has been answered. -/
def State.metaMoved (s : State) (t k : Nat) (ok : Bool) (p : Cont → Bool) : State :=
  let s := if ok then s else s.modUnit t k fun c => { c with metaBad := true }
  if s.noneOut p then s.modUnit t k fun c => { c with metaDone := !c.metaBad } else s

/-- Requests that carry metadata of unit k of tag t. -/
def metaPiece (t k : Nat) (c : Cont) : Bool := match c with
  | .metaOut x u => x == t && u == k
  | .hostMeta x off _ _ => x == t && off / 28 == k
  | _ => false

/-- USED = 1 is in the record: the substitution goes on (R190). -/
def State.subRecordWritten (s : State) (j : Nat) (bad : Bool) : State :=
  match s.subOf j with
  | some x => if !bad && x.phase = 2 then s.subErase j else s
  | none => s

/-! ### Responses -/

/-- A write response (R65, R68, R69). -/
def State.writeDone (s : State) (r : Spool) (err : Nat) : State :=
  let ok := err == 0
  let tagged := fun (s : State) (t : Nat) => s.modTag t fun x => { x with writes := x.writes - 1 }
  let told := fun (s : State) => if ok then s else s.dmaError r err none
  if !ok && r.cont.own then s.transferLost r err else
  match r.cont with
  | .user t k n =>
    if !(s.tagOf t).held then told s
    else
      let s := tagged s t
      let s := if ok then s.unitMoved t k n else s.dmaTagError r err t
      ((s.freeUnit t k).tryFree t).later (.tagCheck t)
  | .metaOut t k =>
    if !(s.tagOf t).held then told s
    else
      let s := (tagged s t).metaMoved t k ok (metaPiece t k)
      let s := if ok then s else s.dmaTagError r err t
      (s.tryFree t).later (.tagCheck t)
  | .cpl c _ => s.cplResponse c true
  | .event x n => (told s).evResponse x n r.addr err
  | .rlhWb line mask => s.lineWritten line mask
  | .rlhPool t line => s.poolLineMoved t line none true
  | .bstWrite j _ bad => s.subRecordWritten j bad
  | .stageSoft id cw => s.softStaged id cw
  | .stageRac id cw => s.racStaged id cw
  | .list => if s.freset.busy then s.fresetWrote true else s
  | _ => s

/-- The bytes of a piece in its beats. -/
def pieceOf (data : List Byte) (skip len : Nat) : List Byte := (data.drop skip).take len

/-- Read data (R66, R392, R398). -/
def State.readDone' (s : State) (r : Spool) (err : Nat) (data : List Byte) : State :=
  let got := if err = 0 then some data else none
  let told := fun (s : State) => if err = 0 then s else s.dmaError r err none
  let tagged := fun (s : State) (t : Nat) => s.modTag t fun x => { x with reads := x.reads - 1 }
  let keep := fun (s : State) (t k : Nat) (b : List Byte) => s.modTag t fun x => { x with data := tabIns k b (tabDrop k x.data) }
  if err != 0 && r.cont.own then s.transferLost r err else
  match r.cont with
  | .hostUser t k off len skip =>
    if !(s.tagOf t).held then told s
    else
      let s := tagged s t
      let s := if err = 0 then (keep s t off (pieceOf data skip len)).unitMoved t k len else s.dmaTagError r err t
      (s.tryFree t).later (.tagCheck t)
  | .hostMeta t off skip len =>
    if !(s.tagOf t).held then told s
    else
      let s := (tagged s t).metaMoved t (off / 28) (err == 0) (metaPiece t (off / 28))
      let s := if err = 0 then keep s t (metaKey + off) (pieceOf data skip len) else s.dmaTagError r err t
      (s.tryFree t).later (.tagCheck t)
  | .image t =>
    if !(s.tagOf t).held then told s
    else if err = 0 then
      (if (s.tagOf t).ended || !s.openTag t then (s.tryFree t).later (.tagCheck t) else s.imageRead t (pieceOf data (dMeta (s.tagOf t).desc % 64) 128))
    else ((s.dmaTagError r err t 0xFFF).tryFree t).later (.tagCheck t)
  | .later g e q off len skip => s.recPiece g e q off (got.map (pieceOf · skip len))
  | .laterMeta g e q off skip len => s.recPiece g e q (metaKey + off) (got.map (pieceOf · skip len))
  | .fetch q i n => s.fetchedData q i n got
  | .refetch q i => s.refetchedData q i got
  | .rlhFill line _ => s.fillLanded line got
  | .rlhPool t line => s.poolLineMoved t line got true
  | .stageSoft id cw => s.softRead id cw
  | .stageRac id cw => s.racRead id cw
  | .bstRead j => s.subRecord j data
  | _ => s

/-- The transaction of a port and ID that awaits a response of this direction. -/
def State.flight (s : State) (p tid : Nat) (w : Bool) : Option Spool :=
  s.flying.find? (fun r => r.port == p && r.tid == tid && r.write == w)

/-- SPOOL_WRITE_RESPONSE. -/
def execSpoolWriteResponse (port : Fin 2) (tid : Fin 256) (err : BitVec 2) (s : State) : Host.Outcome State Fault Refusal :=
  liveTop s fun s => match s.flight port.val tid.val true with
    | some r => { s with flying := s.flying.erase r }.writeDone r err.toNat
    | none => s

/-- SPOOL_READ_DATA. -/
def execSpoolReadData (port : Fin 2) (tid : Fin 256) (err : BitVec 2) (data : List Byte) (s : State) : Host.Outcome State Fault Refusal :=
  liveTop s fun s => match s.flight port.val tid.val false with
    | some r => if err = 0 && data.length != 64 * r.beats then s else { s with flying := s.flying.erase r }.readDone' r err.toNat data
    | none => s

/-! ### The Pool port -/

/-- A request is sent: SHARE, DROP and FREE before any ALLOC, at most 16 outstanding (R403). -/
def State.poolSend (s : State) : State :=
  if s.halted || s.pool.out.length ≥ 16 then s
  else match (s.pool.send.find? (fun r => r.op != poolAlloc && !s.bufBusy r)) <|> s.pool.send.find? (fun r => r.op == poolAlloc) with
  | some r => { s with pool := { s.pool with send := s.pool.send.erase r, out := s.pool.out ++ [r] } }
  | none => s
/-- POOL_REQUEST. -/
def execPoolRequest (s : State) : Host.Outcome State Fault Refusal := liveTop s State.poolSend

/-- Whether a need still stands. -/
def State.wants (s : State) (u : PoolUse) : Bool :=
  !s.freset.busy && match u with
  | .soft id cw => ((s.readOf id).map (fun r => !r.ended && r.xfers.contains cw)).getD false
  | .recon id _ => (s.racOf id).isSome
  | .rlhEvict t => s.openTag t
  | .spill sid r => (s.accOf sid r).isSome
  | .record g e q => s.ops.any (fun o => o.pooled && o.loc.lun == g && o.loc.eb == e && o.loc.page == q)

/-- Order of two needs by their first EMPTY answer. -/
def PoolReq.before (a b : PoolReq) : Bool := decide (a.first.getD 0 < b.first.getD 0)

/-- A need waits after EMPTY, in the order of first EMPTY answers (R404). -/
def State.needWaits (s : State) (r : PoolReq) : State :=
  if !s.wants r.use then s
  else
    let (r, s) := match r.first with
      | some _ => (r, s)
      | none => ({ r with first := some s.pool.firsts }, { s with pool := { s.pool with firsts := s.pool.firsts + 1 } })
    { s with pool := { s.pool with empty := s.pool.empty.filter (·.before r) ++ [r] ++ s.pool.empty.filter (fun x => !x.before r) } }

/-- An ALLOC is answered EMPTY, or with what counts as EMPTY; a DEEP entry that spills is abandoned (Table 14.4). -/
def State.allocEmpty (s : State) (r : PoolReq) : State :=
  let s := match r.use with
    | .spill _ _ => if s.tet.sleepStep = 3 then s.sleepAbandon 8 else s
    | _ => s
  s.needWaits r

/-- Waiting needs are asked again. -/
def State.askAgain (s : State) : State :=
  { s with pool := { s.pool with empty := [], send := s.pool.send ++ s.pool.empty } }

/-- EV_POOL_REFUSED with its count and its T1 fault (Table 11.5, R406). -/
def State.poolRefusal (s : State) (op owner addr reason : Nat) : State :=
  let s := (s.bump DMA_POOL_CNT.REFUSED 1).fault (.top 1) (if reason = 5 then 3 else 2) 1 (op + owner * 4 + reason * 2 ^ 15)
  s.raise 269 1 (op + owner * 4 + reason * 2 ^ 15 + addr / 64 % 2 ^ 46 * 2 ^ 18)

/-- Rebuilds of tag t that wait for their share of the buffer at an address. -/
def State.sharers (s : State) (t addr : Nat) : List Nat :=
  (s.racs.filter (fun k => k.sharing && k.tag == some t && (((s.racAcc k).map (fun a => !a.chip && a.addr == addr)).getD false))).map (·.id)

/-- A SHARE is answered OK: its tag owns the buffer too (R405). -/
def State.shareOk (s : State) (r : PoolReq) : State :=
  let s := { s with pool := { s.pool with bufs := s.pool.bufs.map (fun (b : PoolBuf) => if b.addr = r.addr && !b.owners.contains r.owner then { b with owners := b.owners ++ [r.owner] } else b) } }
  match s.sharers r.owner r.addr with
  | [] => s.releaseBuf r.owner r.addr
  | l => l.foldl (fun s id => (s.modRac id fun k => { k with sharing := false }).racReady id) s

/-- A buffer whose DROP or FREE was refused is used no longer, and nothing more is sent to it or for it (R406). DESIGN CHOICE (log 85): a rebuild
that still reads a row from it loses P and Q; an accumulator that still lies in it is lost as an uncorrectable one is (R322). -/
def State.bufLost (s : State) (addr : Nat) : State :=
  let cls := ((s.pool.bufs.find? (fun b => b.addr == addr)).map (·.cls)).getD 0
  let s := { s with ready := s.ready.filter (!·.inBuf addr cls), pool := { s.pool with bufs := s.pool.bufs.filter (fun (b : PoolBuf) => b.addr != addr), send := s.pool.send.filter (fun r => r.addr != addr || r.op == poolAlloc) } }
  let here := fun (a : Acc) => !a.chip && !a.asked && !a.lost && a.addr == addr
  let ids := (s.racs.filter (fun k => k.srcs.any (fun x => x.st == 4) && ((s.racAcc k).map here).getD false)).map (·.id)
  let rows := (s.accs.filter here).map (fun a => (a.stripe, a.row))
  let s := rows.foldl (fun s p => (s.modAcc p.1 p.2 fun a => { a with lost := true }).accBad p.1 p.2 none) s
  ids.foldl (fun s id => if ((s.racOf id).map (·.phase)) == some 0 then s.racShareRefused id
    else (s.modRac id fun k => { k with kept := none, srcs := k.srcs.map (fun x => if x.st = 4 then { x with st := 2 } else x) }).racPush id) s

/-- The answer REFUSED, or what counts as it, to a SHARE, DROP or FREE; a buffer whose owners gave it up meanwhile is no longer held. -/
def State.refused (s : State) (r : PoolReq) (reason : Nat) : State :=
  let s := s.poolRefusal r.op r.owner r.addr reason
  if r.op = poolShare then
    let s := { s with pool := { s.pool with bufs := s.pool.bufs.filter (fun (b : PoolBuf) => b.addr != r.addr || !b.owners.isEmpty || s.sharePending r.addr) } }
    (s.sharers r.owner r.addr).foldl State.racShareRefused s
  else
    let s := s.bufLost r.addr
    if r.op = poolFree then s.askAgain else s

/-- The oldest outstanding request is answered (R70). -/
def State.poolAnswer (s : State) (f : State → PoolReq → State) : State :=
  match s.pool.out with
  | [] => s
  | r :: l => (f { s with pool := { s.pool with out := l } } r).emptyOver

/-- A grant: used when its class and alignment are right, else given back (R403). -/
def State.grant (s : State) (r : PoolReq) (cls addr : Nat) : State :=
  if r.cls ≤ cls && addr % classBytes cls = 0 then
    ({ s with pool := { s.pool with bufs := s.pool.bufs ++ [({ cls := cls, addr := addr, owners := [r.owner], use := r.use } : PoolBuf)] } }).later (.granted r.use)
  else
    let s := { s with pool := { s.pool with send := s.pool.send ++ [({ op := poolFree, cls := cls, owner := r.owner, addr := addr, use := r.use } : PoolReq)] } }
    (s.poolRefusal poolAlloc r.owner addr 5).allocEmpty r

/-- POOL_ANSWER_OK. -/
def execPoolAnswerOk (cls : BitVec 2) (addr : BitVec 64) (s : State) : Host.Outcome State Fault Refusal :=
  liveTop s (·.poolAnswer fun s r =>
    if r.op = poolAlloc then s.grant r cls.toNat addr.toNat
    else if r.op = poolShare then s.shareOk r
    else if r.op = poolFree then s.askAgain else s)

/-- POOL_EMPTY: to a request that is no ALLOC it counts as REFUSED with reason 0x06 (R73). -/
def execPoolEmpty (s : State) : Host.Outcome State Fault Refusal :=
  liveTop s (·.poolAnswer fun s r => if r.op = poolAlloc then (s.bump DMA_POOL_CNT.EMPTY 1).allocEmpty r else s.refused r 6)

/-- POOL_REFUSED: with a reason of R71 for a DROP or FREE; to an ALLOC it counts as EMPTY (R73). -/
def execPoolRefused (why : BitVec 3) (s : State) : Host.Outcome State Fault Refusal :=
  liveTop s fun s => s.poolAnswer fun s r =>
    if r.op = poolAlloc then (s.poolRefusal poolAlloc r.owner 0 6).allocEmpty r
    else if r.op = poolShare then s.refused r 7 else s.refused r why.toNat

/-- POOL_RESERVED_ANSWER (R73). -/
def execPoolReservedAnswer (s : State) : Host.Outcome State Fault Refusal :=
  liveTop s (·.poolAnswer fun s r => if r.op = poolAlloc then (s.poolRefusal poolAlloc r.owner 0 6).allocEmpty r else s.refused r 6)

/-- POOL_RETRY: RETRY µs have passed (R404). -/
def execPoolRetry (s : State) : Host.Outcome State Fault Refusal := liveTop s State.askAgain

/-- The oldest need that waits. -/
def State.oldestNeed (s : State) : Option PoolReq :=
  ((s.pool.empty ++ s.pool.send ++ s.pool.out).filter (fun r => r.first.isSome)).foldl (fun (m : Option PoolReq) r =>
    match m with
    | some x => if r.before x then some r else m
    | none => some r) none

/-- A need has waited EMPTY_LIMIT µs (R404). -/
def State.emptyLimit (s : State) : State :=
  match s.oldestNeed with
  | none => s
  | some r =>
    if s.get DMA_POOL_CTRL.EMPTY_LIMIT = 0 || s.pool.emptyTold then s
    else { s with pool := { s.pool with emptyTold := true } }.raise 268 0 (r.cls + r.owner * 4 + s.needsWaiting % 2 ^ 13 * 2 ^ 15)
/-- POOL_EMPTY_LIMIT. -/
def execPoolEmptyLimit (s : State) : Host.Outcome State Fault Refusal := liveTop s State.emptyLimit

end Sys2Proof.Machine
end

