-- ==== Sys2Proof/Machine/Dispatch.lean ====
section
/-! DEFINITION. One arm per command. -/

namespace Sys2Proof.Machine

/-- The effect of a command on everything but the queue. -/
def exec (i : Instr) (s : State) : Host.Outcome State Fault Refusal :=
  match i with
  | .resetNAssert => Sys2Proof.Machine.execResetNAssert s
  | .resetNDeassert => Sys2Proof.Machine.execResetNDeassert s
  | .startupStep rep => Sys2Proof.Machine.execStartupStep rep s
  | .fuseAck data => Sys2Proof.Machine.execFuseAck data s
  | .fuseTimeout => Sys2Proof.Machine.execFuseTimeout s
  | .wakeNFall => Sys2Proof.Machine.execWakeNFall s
  | .wakeNIdleWindow => Sys2Proof.Machine.execWakeNIdleWindow s
  | .pwrfailLatch => Sys2Proof.Machine.execPwrfailLatch s
  | .holdupExpiry => Sys2Proof.Machine.execHoldupExpiry s
  | .pwrAckRise d => Sys2Proof.Machine.execPwrAckRise d s
  | .pwrAckFall d => Sys2Proof.Machine.execPwrAckFall d s
  | .cclkAckRise => Sys2Proof.Machine.execCclkAckRise s
  | .cclkAckFall => Sys2Proof.Machine.execCclkAckFall s
  | .pwrAckLate idx excess => Sys2Proof.Machine.execPwrAckLate idx excess s
  | .pllLockLoss q => Sys2Proof.Machine.execPllLockLoss q s
  | .pllRelock q locked => Sys2Proof.Machine.execPllRelock q locked s
  | .testModeHigh => Sys2Proof.Machine.execTestModeHigh s
  | .rbNTransition ch t => Sys2Proof.Machine.execRbNTransition ch t s
  | .rbChatterWindow q c t => Sys2Proof.Machine.execRbChatterWindow q c t s
  | .fatalCause cause ctx => Sys2Proof.Machine.execFatalCause cause ctx s
  | .safeStateRelease ch => Sys2Proof.Machine.execSafeStateRelease ch s
  | .registerWrite addr w => Sys2Proof.Machine.execRegisterWrite addr w s
  | .apply q w => Sys2Proof.Machine.execApply q w s
  | .applyDrained q => Sys2Proof.Machine.execApplyDrained q s
  | .applyPllLockTimeout q => Sys2Proof.Machine.execApplyPllLockTimeout q s
  | .zqStart q w => Sys2Proof.Machine.execZqStart q w s
  | .longCalibration q rep => Sys2Proof.Machine.execLongCalibration q rep s
  | .shortCalibration q rep => Sys2Proof.Machine.execShortCalibration q rep s
  | .trainStart ch w => Sys2Proof.Machine.execTrainStart ch w s
  | .trainingDone ch rep => Sys2Proof.Machine.execTrainingDone ch rep s
  | .driftPeriodEnd ch rep => Sys2Proof.Machine.execDriftPeriodEnd ch rep s
  | .trackingBurst ch t => Sys2Proof.Machine.execTrackingBurst ch t s
  | .stuckClear ch w => Sys2Proof.Machine.execStuckClear ch w s
  | .patchRowCommit j w => Sys2Proof.Machine.execPatchRowCommit j w s
  | .nanoWordCommit idx w => Sys2Proof.Machine.execNanoWordCommit idx w s
  | .activate w => Sys2Proof.Machine.execActivate w s
  | .patClear w => Sys2Proof.Machine.execPatClear w s
  | .patchBankSwitch k => Sys2Proof.Machine.execPatchBankSwitch k s
  | .validate w => Sys2Proof.Machine.execValidate w s
  | .validateDone => Sys2Proof.Machine.execValidateDone s
  | .stripeSelWrite w => Sys2Proof.Machine.execStripeSelWrite w s
  | .tempWrite g w => Sys2Proof.Machine.execTempWrite g w s
  | .sqEnable sq w => Sys2Proof.Machine.execSqEnable sq w s
  | .cqEnable cq w => Sys2Proof.Machine.execCqEnable cq w s
  | .evEnable r w => Sys2Proof.Machine.execEvEnable r w s
  | .evDisable r w => Sys2Proof.Machine.execEvDisable r w s
  | .fresetGraceful => Sys2Proof.Machine.execFresetGraceful s
  | .fresetImmediate => Sys2Proof.Machine.execFresetImmediate s
  | .fresetBoundExpiry => Sys2Proof.Machine.execFresetBoundExpiry s
  | .fresetDone => Sys2Proof.Machine.execFresetDone s
  | .lock w => Sys2Proof.Machine.execLock w s
  | .blwClr w => Sys2Proof.Machine.execBlwClr w s
  | .rlhcClr w => Sys2Proof.Machine.execRlhcClr w s
  | .fatalTest w => Sys2Proof.Machine.execFatalTest w s
  | .fatalClear w persist => Sys2Proof.Machine.execFatalClear w persist s
  | .repair w => Sys2Proof.Machine.execRepair w s
  | .testread w errs => Sys2Proof.Machine.execTestread w errs s
  | .balInjectArm w => Sys2Proof.Machine.execBalInjectArm w s
  | .blwInjectArm w => Sys2Proof.Machine.execBlwInjectArm w s
  | .patInjectArm w => Sys2Proof.Machine.execPatInjectArm w s
  | .lunFence ch w => Sys2Proof.Machine.execLunFence ch w s
  | .lunUnfence ch w => Sys2Proof.Machine.execLunUnfence ch w s
  | .channelFence ch w => Sys2Proof.Machine.execChannelFence ch w s
  | .channelUnfence ch w => Sys2Proof.Machine.execChannelUnfence ch w s
  | .quadFence q w => Sys2Proof.Machine.execQuadFence q w s
  | .quadUnfence q w => Sys2Proof.Machine.execQuadUnfence q w s
  | .declare q w => Sys2Proof.Machine.execDeclare q w s
  | .fltValidClear u w => Sys2Proof.Machine.execFltValidClear u w s
  | .deep w => Sys2Proof.Machine.execDeep w s
  | .wake w => Sys2Proof.Machine.execWake w s
  | .quadOn q w => Sys2Proof.Machine.execQuadOn q w s
  | .pwrfailLatchClear w pinHigh => Sys2Proof.Machine.execPwrfailLatchClear w pinHigh s
  | .wakeNUnmask w => Sys2Proof.Machine.execWakeNUnmask w s
  | .wakeTimerFire => Sys2Proof.Machine.execWakeTimerFire s
  | .inlinePush beats => Sys2Proof.Machine.execInlinePush beats s
  | .sqTailDoorbell beats => Sys2Proof.Machine.execSqTailDoorbell beats s
  | .cqHeadDoorbell beats => Sys2Proof.Machine.execCqHeadDoorbell beats s
  | .evHeadDoorbell beats => Sys2Proof.Machine.execEvHeadDoorbell beats s
  | .doorbellShadowWrite beats => Sys2Proof.Machine.execDoorbellShadowWrite beats s
  | .doorbellShadowDrain => Sys2Proof.Machine.execDoorbellShadowDrain s
  | .ringFetch sq => Sys2Proof.Machine.execRingFetch sq s
  | .staleRefetch sq t => Sys2Proof.Machine.execStaleRefetch sq t s
  | .nop sq t => Sys2Proof.Machine.execNop sq t s
  | .read sq t => Sys2Proof.Machine.execRead sq t s
  | .readRaw sq t => Sys2Proof.Machine.execReadRaw sq t s
  | .copy sq t => Sys2Proof.Machine.execCopy sq t s
  | .programAppend sq t => Sys2Proof.Machine.execProgramAppend sq t s
  | .programAt sq t => Sys2Proof.Machine.execProgramAt sq t s
  | .erase sq t => Sys2Proof.Machine.execErase sq t s
  | .eraseCheck sq t => Sys2Proof.Machine.execEraseCheck sq t s
  | .stripeOpen sq t => Sys2Proof.Machine.execStripeOpen sq t s
  | .stripeClose sq t => Sys2Proof.Machine.execStripeClose sq t s
  | .substitute sq t => Sys2Proof.Machine.execSubstitute sq t s
  | .rebuild sq t => Sys2Proof.Machine.execRebuild sq t s
  | .tallyWrite sq t => Sys2Proof.Machine.execTallyWrite sq t s
  | .tallyScan sq t => Sys2Proof.Machine.execTallyScan sq t s
  | .flush sq t => Sys2Proof.Machine.execFlush sq t s
  | .abort sq t => Sys2Proof.Machine.execAbort sq t s
  | .rlhSync sq t => Sys2Proof.Machine.execRlhSync sq t s
  | .dieCmd sq t => Sys2Proof.Machine.execDieCmd sq t s
  | .routine sq t => Sys2Proof.Machine.execRoutine sq t s
  | .completionWrite cq => Sys2Proof.Machine.execCompletionWrite cq s
  | .cqStall cq => Sys2Proof.Machine.execCqStall cq s
  | .offerRoutine ch => Sys2Proof.Machine.execOfferRoutine ch s
  | .unpark ch => Sys2Proof.Machine.execUnpark ch s
  | .chanterTimerExpire g => Sys2Proof.Machine.execChanterTimerExpire g s
  | .nextSeq ch err => Sys2Proof.Machine.execNextSeq ch err s
  | .jump ch err => Sys2Proof.Machine.execJump ch err s
  | .branch ch err => Sys2Proof.Machine.execBranch ch err s
  | .callSeq ch err => Sys2Proof.Machine.execCallSeq ch err s
  | .ret ch err => Sys2Proof.Machine.execRet ch err s
  | .yield ch err => Sys2Proof.Machine.execYield ch err s
  | .endSeq ch err => Sys2Proof.Machine.execEndSeq ch err s
  | .trap ch err => Sys2Proof.Machine.execTrap ch err s
  | .runLimitFault ch => Sys2Proof.Machine.execRunLimitFault ch s
  | .watchdogFault ch => Sys2Proof.Machine.execWatchdogFault ch s
  | .reqack ch mask => Sys2Proof.Machine.execReqack ch mask s
  | .timerLoad ch src unit => Sys2Proof.Machine.execTimerLoad ch src unit s
  | .mov ch rd imm => Sys2Proof.Machine.execMov ch rd imm s
  | .movr ch rd rs => Sys2Proof.Machine.execMovr ch rd rs s
  | .add ch rd rs imm => Sys2Proof.Machine.execAdd ch rd rs imm s
  | .sub ch rd rs imm => Sys2Proof.Machine.execSub ch rd rs imm s
  | .andOp ch rd rs imm => Sys2Proof.Machine.execAndOp ch rd rs imm s
  | .orOp ch rd rs imm => Sys2Proof.Machine.execOrOp ch rd rs imm s
  | .shr ch rd rs imm => Sys2Proof.Machine.execShr ch rd rs imm s
  | .shl ch rd rs imm => Sys2Proof.Machine.execShl ch rd rs imm s
  | .dec ch rd => Sys2Proof.Machine.execDec ch rd s
  | .ldk ch rd imm => Sys2Proof.Machine.execLdk ch rd imm s
  | .ldx ch rd rs => Sys2Proof.Machine.execLdx ch rd rs s
  | .lds ch rd => Sys2Proof.Machine.execLds ch rd s
  | .cmp ch rs imm => Sys2Proof.Machine.execCmp ch rs imm s
  | .ldl ch rd imm => Sys2Proof.Machine.execLdl ch rd imm s
  | .ceOn ch => Sys2Proof.Machine.execCeOn ch s
  | .ceOff ch => Sys2Proof.Machine.execCeOff ch s
  | .cmd ch => Sys2Proof.Machine.execCmd ch s
  | .addr ch => Sys2Proof.Machine.execAddr ch s
  | .din ch sram => Sys2Proof.Machine.execDin ch sram s
  | .dout ch burst => Sys2Proof.Machine.execDout ch burst s
  | .status ch st => Sys2Proof.Machine.execStatus ch st s
  | .trnRd ch data => Sys2Proof.Machine.execTrnRd ch data s
  | .trnWr ch => Sys2Proof.Machine.execTrnWr ch s
  | .stagingReserved ch => Sys2Proof.Machine.execStagingReserved ch s
  | .lunTimeLimit g => Sys2Proof.Machine.execLunTimeLimit g s
  | .trstExpiry g => Sys2Proof.Machine.execTrstExpiry g s
  | .suspendLimit g => Sys2Proof.Machine.execSuspendLimit g s
  | .dieCmdPollTimeout g => Sys2Proof.Machine.execDieCmdPollTimeout g s
  | .deadlinePass t => Sys2Proof.Machine.execDeadlinePass t s
  | .resumeMinWait g => Sys2Proof.Machine.execResumeMinWait g s
  | .resume g => Sys2Proof.Machine.execResume g s
  | .holdMaxExpiry g => Sys2Proof.Machine.execHoldMaxExpiry g s
  | .d0PeriodEnd => Sys2Proof.Machine.execD0PeriodEnd s
  | .decodeJobStart sl => Sys2Proof.Machine.execDecodeJobStart sl s
  | .decodeJobDone sl rep => Sys2Proof.Machine.execDecodeJobDone sl rep s
  | .sliceJobOverrun sl => Sys2Proof.Machine.execSliceJobOverrun sl s
  | .sliceSpareActive sl fail => Sys2Proof.Machine.execSliceSpareActive sl fail s
  | .rowTrackExpiry bank row => Sys2Proof.Machine.execRowTrackExpiry bank row s
  | .rlhMissWait t => Sys2Proof.Machine.execRlhMissWait t s
  | .padWaitExpiry g => Sys2Proof.Machine.execPadWaitExpiry g s
  | .spoolRequest r => Sys2Proof.Machine.execSpoolRequest r s
  | .spoolWriteResponse port tid err => Sys2Proof.Machine.execSpoolWriteResponse port tid err s
  | .spoolReadData port tid err data => Sys2Proof.Machine.execSpoolReadData port tid err data s
  | .poolRequest => Sys2Proof.Machine.execPoolRequest s
  | .poolAnswerOk cls addr => Sys2Proof.Machine.execPoolAnswerOk cls addr s
  | .poolEmpty => Sys2Proof.Machine.execPoolEmpty s
  | .poolRefused why => Sys2Proof.Machine.execPoolRefused why s
  | .poolReservedAnswer => Sys2Proof.Machine.execPoolReservedAnswer s
  | .poolRetry => Sys2Proof.Machine.execPoolRetry s
  | .poolEmptyLimit => Sys2Proof.Machine.execPoolEmptyLimit s
  | .eventRecordWrite r => Sys2Proof.Machine.execEventRecordWrite r s
  | .holdoffEnd r => Sys2Proof.Machine.execHoldoffEnd r s
  | .spareTakeoverDone => Sys2Proof.Machine.execSpareTakeoverDone s
  | .quadIdleEntry q => Sys2Proof.Machine.execQuadIdleEntry q s
  | .quadOffEntry q => Sys2Proof.Machine.execQuadOffEntry q s
  | .quadWake q => Sys2Proof.Machine.execQuadWake q s
  | .slicePairPower b => Sys2Proof.Machine.execSlicePairPower b s
  | .slicePairRelease b => Sys2Proof.Machine.execSlicePairRelease b s
  | .deepEntryStep => Sys2Proof.Machine.execDeepEntryStep s
  | .deepEventDrainTimeout => Sys2Proof.Machine.execDeepEventDrainTimeout s
  | .deepWake ret => Sys2Proof.Machine.execDeepWake ret s
  | .pllLocked q => Sys2Proof.Machine.execPllLocked q s
  | .applyHoldExpiry q => Sys2Proof.Machine.execApplyHoldExpiry q s
  | .storeFillDone d => Sys2Proof.Machine.execStoreFillDone d s
  | .rowCopyDone bank => Sys2Proof.Machine.execRowCopyDone bank s
  | .tetTimeLoRead => Sys2Proof.Machine.execTetTimeLoRead s
  | .pushReservedWrite beats => Sys2Proof.Machine.execPushReservedWrite beats s

end Sys2Proof.Machine
end

