-- ==== Sys2Proof/Machine/Step.lean ====
section
/-! DEFINITION. One step of the block: the command at the front of the queue, or one TCLK tick of the Tether when the
queue is empty (TCLK, spec/00_scope.md and spec/01_architecture.md R31). -/

namespace Sys2Proof.Machine

/-- One tick of Tether time, 640 ns, while RESET_N is high (spec/00_scope.md). -/
def State.tick (s : State) : State :=
  if s.pins.resetN then { s with tet := { s.tet with time := s.tet.time + 1 } } else s

/-- Take the front command with the queue's rest; with none waiting, time passes. -/
def step (s : State) : Host.Outcome State Fault Refusal :=
  match s.pending with
  | [] => .next s.tick
  | c :: l => exec c { s with pending := l }

/-- s with the command that a word spells in front of its queue. -/
def State.withFetchWord (s : State) (nbits w : Nat) : State :=
  match decodeTableWord nbits w with
  | some c => { s with pending := c :: s.pending }
  | none => s

end Sys2Proof.Machine
end

