-- ==== Sys2Proof/Safety.lean ====
section
/-! DEFINITION. What the statements call a block that takes commands, a settled state, shown pins, safe pads and a
well-kept register file. -/

namespace Sys2Proof.Machine

/-- Functional commands act: TEST_MODE low (R89) and RESET_N high (R50). -/
abbrev State.Works (s : State) : Prop := s.pins.testMode = false ∧ s.pins.resetN = true

/-- The controller top takes its commands too: it is powered, filled and not in DEEP. -/
abbrev State.TopWorks (s : State) : Prop := s.Works ∧ s.topOn = true

/-- No consequence is due, and nothing that waits can go on: what a command ends with changes no more than the pins and the order of
the requests that it made ready. -/
abbrev State.Still (s : State) : Prop := s.todo = [] ∧ s.house = s

/-- The interrupt pins show what the event rings ask (R423, R74), and PSH_READY what the Push port holds (R59, R206). -/
abbrev State.PinsShow (s : State) : Prop :=
  s.pins.irqN = !s.irq 0 ∧ s.pins.irqF = s.irq 1 ∧ s.pins.pshReady = s.pshReady

/-- The pads of a channel in the safe state (Table 3.24). -/
abbrev padsSafe (p : Pads) : Prop := p = {}

/-- TEST_MODE with RESET_N high: each PWR_REQ of a quad whose PWR_ACK is low rises, no other moves; the hold drivers take every pad
(R90, R49, Table 3.24). -/
abbrev TestRequests (s t : State) : Prop :=
  (∀ q, q < 8 → s.pins.pwrAck.getLsbD (pdP q) = false → t.pins.pwrReq.getLsbD (pdP q) = true)
  ∧ (∀ i, (∀ q, q < 8 → i ≠ pdP q) → t.pins.pwrReq.getLsbD i = s.pins.pwrReq.getLsbD i)
  ∧ ∀ n, n < 32 → padsSafe (t.chanOf n).pads ∧ t.on (CH_MODE_STAT.SAFE n) = true

/-- A command of the block's function: all but the edges of RESET_N and TEST_MODE. -/
abbrev functional (c : Instr) : Prop := c ≠ .resetNAssert ∧ c ≠ .resetNDeassert ∧ c ≠ .testModeHigh

/-- The setup registers keep their canonical form. -/
abbrev State.regsWf (s : State) : Prop := tabWf regReset s.regs = true

end Sys2Proof.Machine
end

