-- ==== Sys2Proof/Certificates/Slice0/Obligations.lean ====
section
/-! DEFINITION. The statements for the provers. `State.settle u` is what every command ends with: the consequences that fall
due within it, in order. `SettledStateShowsPins` says what it does to a state in which none are due, and with it the
equations below are the commands' frames: what an equation's update does not name stays as it was. -/

open Sys2Proof Sys2Proof.Machine

/-! ### The block as a machine -/

/-- A step takes the command at the front of the queue and leaves the rest of the queue behind it. On an empty queue a step is one tick of
Tether time (the model's choice, log 1); none while RESET_N is low. -/
def Obligations.StepRunsFrontCommand : Prop :=
  (∀ (c : Instr) (l : List Instr) (s : State), s.pending = c :: l → step s = exec c { s with pending := l })
  ∧ (∀ s : State, s.pending = [] →
     (s.pins.resetN = true → step s = .next { s with tet := { s.tet with time := s.tet.time + 1 } })
     ∧ (s.pins.resetN = false → step s = .next s))

/-- R89: while TEST_MODE is high the block's functional behaviour is undefined. That every functional command then stops is the model's
choice (log 9); the acknowledges of R90 act (`ResetEdges`). R50, R53, R58: while RESET_N is low a command finds the block in reset; a write
and the read of TET_TIME_LO are answered with CFG_SERR = 1; only acknowledges that the SoC takes back still fall. That a command completes
there and changes nothing but the setup port's answer is the model's choice (log 2). -/
def Obligations.TestModeAndResetHoldCommands : Prop :=
  (∀ (c : Instr) (s : State), functional c → (∀ d, c ≠ .pwrAckRise d) → (∀ d, c ≠ .pwrAckFall d) → s.pins.testMode = true →
     exec c s = .fault .testMode)
  ∧ ((∀ (c : Instr) (s : State), functional c → (∀ d, c ≠ .pwrAckFall d) → c ≠ .cclkAckFall → s.pins.testMode = false → s.pins.resetN = false →
      exec c s = .next s ∨ exec c s = .next (s.respond 0 true))
   ∧ (∀ (addr : BitVec 18) (w : Word32) (s : State), s.pins.testMode = false → s.pins.resetN = false →
      exec (.registerWrite addr w) s = .next (s.respond 0 true) ∧ exec .tetTimeLoRead s = .next (s.respond 0 true)))

/-- A settled state shows its interrupt lines and PSH_READY (R423, R74, R59, R206), and nothing else of it changes but the order of the
requests that the command made ready and the snapshot slots of the fast events that it raised: all those requests, and no other, stand
behind the older ones in ascending stream ID, in order among those of one stream (R395); the events take their slots in order of their list,
which `EventRaise` keeps in ascending source ID (R424). That one command is one cycle of these rules is the model's choice (log 7). -/
def Obligations.SettledStateShowsPins : Prop :=
  ∀ u : State, u.Still →
    (∃ new : List Spool,
      u.settle = { u.snaps.foldl State.snapshot u with snaps := [], ready := u.ready.filter (fun r => !r.fresh) ++ new,
                                                       pins := { u.pins with irqN := !u.irq 0, irqF := u.irq 1, pshReady := u.pshReady } }
      ∧ new.Pairwise (fun a b => a.sid ≤ b.sid)
      ∧ new.Perm ((u.ready.filter (·.fresh)).map fun r => { r with fresh := false })
      ∧ ∀ i, new.filter (fun r => r.sid == i) = (u.ready.filter (fun r => r.fresh && r.sid == i)).map fun r => { r with fresh := false })
    ∧ ((∀ r ∈ u.ready, r.fresh = false) → u.snaps = [] →
      u.settle = { u with pins := { u.pins with irqN := !u.irq 0, irqF := u.irq 1, pshReady := u.pshReady } })

/-- R423, R74, R206: the interrupt lines and PSH_READY show what the rings and the Push port ask, after every step. -/
def Obligations.StepsKeepPinsShown : Prop :=
  ∀ s t : State, s.PinsShow → step s = .next t → t.PinsShow

/-- The setup registers keep the canonical form of their store (the model's form, log 8) under every step: no register is listed twice
or at its reset value, so that equal register files are equal data. -/
def Obligations.StepsKeepRegisters : Prop :=
  ∀ s t : State, s.regsWf → step s = .next t → t.regsWf

/-- RESET_N falls (RESET_N_ASSERT): every register and structure takes its reset value. That the levels which others drive stay, and so do
the model's queue and its count of free values, is the model's choice (logs 5 and 6). RESET_N_DEASSERT raises FAULT_N and begins start-up at
step 1; that it changes nothing while RESET_N is high already is the model's choice (log 2). TEST_MODE_HIGH sets the pin. While both are
high (R90) every PWR_REQ[10 + q] whose acknowledge is low is raised and no other, and every pad is safe; an acknowledge of such a request is
taken and opens its quad's chain. -/
def Obligations.ResetEdges : Prop :=
  (∀ s : State, ∃ t : State, exec .resetNAssert s = .next t
     ∧ t = { State.reset with pending := s.pending, freeCount := s.freeCount,
                              pins := { testMode := s.pins.testMode, pwrfailN := s.pins.pwrfailN, wakeN := s.pins.wakeN,
                                        pwrAck := s.pins.pwrAck, cclkAck := s.pins.cclkAck } }
     ∧ (∀ a, t.reg a = regReset a) ∧ (∀ n, padsSafe (t.chanOf n).pads) ∧ t.pins.faultN = false ∧ t.pins.pwrReq = 0)
  ∧ (∀ s : State,
     (s.pins.resetN = false → s.pins.testMode = false → exec .resetNDeassert s = .next
       (({ s with pins := { s.pins with resetN := true, faultN := true }, tet := { s.tet with starting := true } } : State).put TET_STARTUP.STEP 1))
     ∧ (s.pins.resetN = true → exec .resetNDeassert s = .next s)
     ∧ (s.pins.resetN = false → exec .testModeHigh s = .next { s with pins := { s.pins with testMode := true } })
     ∧ (∃ t : State, exec .testModeHigh s = .next t ∧ t.pins.testMode = true ∧ (s.pins.resetN = true → TestRequests s t))
     ∧ (s.pins.resetN = false → s.pins.testMode = true → ∃ t : State, exec .resetNDeassert s = .next t ∧ t.pins.resetN = true
         ∧ t.pins.faultN = true ∧ t.tet.starting = s.tet.starting ∧ TestRequests s t)
     ∧ (∀ q : Fin 8, s.pins.resetN = true → s.pins.testMode = true → s.pins.pwrReq.getLsbD (pdP q.val) = true →
         s.pins.pwrAck.getLsbD (pdP q.val) = false →
         ∃ t : State, exec (.pwrAckRise ⟨pdP q.val, by simp only [pdP]; omega⟩) s = .next t ∧ t.chainOpen q.val = true))

/-- Every command of the table completes. While TEST_MODE is low and RESET_N high (R50, R89) every functional command, with any operands
and in any state, answers a next state, whose interrupt lines and PSH_READY show what the rings and the Push port ask (R423, R74, R206).
The edges of RESET_N and TEST_MODE complete in every state: RESET_N low leaves every register at its reset value and the pads safe (R50,
R131); its rise raises FAULT_N and starts start-up at step 1, or with TEST_MODE high asks for the quads' pads (R475, R90); TEST_MODE_HIGH
leaves the pin high. -/
def Obligations.EveryCommandCompletes : Prop :=
  (∀ (c : Instr) (s : State), functional c → s.Works → ∃ t : State, exec c s = .next t ∧ t.PinsShow)
  ∧ ∀ s : State,
    (∃ t : State, exec .resetNAssert s = .next t ∧ t.pins.resetN = false ∧ (∀ a, t.reg a = regReset a) ∧ ∀ n, padsSafe (t.chanOf n).pads)
    ∧ (∃ t : State, exec .resetNDeassert s = .next t ∧ t.pins.resetN = true
        ∧ (s.pins.resetN = false → t.pins.faultN = true)
        ∧ (s.pins.resetN = false → s.pins.testMode = false → t.tet.starting = true ∧ t.get TET_STARTUP.STEP = 1)
        ∧ (s.pins.resetN = false → s.pins.testMode = true → TestRequests s t))
    ∧ (∃ t : State, exec .testModeHigh s = .next t ∧ t.pins.testMode = true ∧ t.pins.resetN = s.pins.resetN)

/-- What RESET_N low leaves: pads safe, FAULT_N low, no power asked for, no interrupt, nothing held, waiting or listed; the interrupt
lines and PSH_READY show it, and the registers keep their canonical form. -/
def Obligations.ResetState : Prop :=
  State.reset.PinsShow ∧ (∀ n, padsSafe (State.reset.chanOf n).pads) ∧ State.reset.pins.faultN = false ∧ State.reset.pins.pwrReq = 0
    ∧ State.reset.pins.irqN = true ∧ State.reset.pins.irqF = false ∧ State.reset.regsWf ∧ (∀ a, State.reset.reg a = regReset a)
    ∧ State.reset.heldTags = [] ∧ State.reset.cosUsed = 0 ∧ State.reset.pending = [] ∧ State.reset.isReady = false

/-- R2: the identity registers read the values of release 2.1, on the setup port of every state in which they answer and hold what reset
left in them, and a setup port write leaves them. -/
def Obligations.IdentityRegisters : Prop :=
  State.reset.reg TOP_ID.adr = 0x4B4E3200#32 ∧ State.reset.reg TOP_VERSION.adr = 0x32000201#32
    ∧ (∀ s : State, s.answers TOP_ID.adr = true → s.reg TOP_ID.adr = regReset TOP_ID.adr → s.readReg TOP_ID.adr = (0x4B4E3200#32, false))
    ∧ (∀ s : State, s.answers TOP_VERSION.adr = true → s.reg TOP_VERSION.adr = regReset TOP_VERSION.adr →
        s.readReg TOP_VERSION.adr = (0x32000201#32, false))
    ∧ ∀ (s : State) (w : Word32), (s.storeReg TOP_ID.adr w).reg TOP_ID.adr = s.reg TOP_ID.adr
        ∧ (s.storeReg TOP_VERSION.adr w).reg TOP_VERSION.adr = s.reg TOP_VERSION.adr

/-! ### The setup port -/

/-- REGISTER_WRITE: a register that answers stores the word and acts; any other write is dropped, with CFG_SERR where a register is there
but its domain is off (R15, R52). -/
def Obligations.RegisterWriteStoresAndActs : Prop :=
  ∀ (addr : BitVec 18) (w : Word32) (s : State), s.Works →
    (s.answers (4 * addr.toNat) = true →
      exec (.registerWrite addr w) s = .next (((s.storeReg (4 * addr.toNat) w).regActs (4 * addr.toNat) w).settle))
    ∧ (s.answers (4 * addr.toNat) = false →
      exec (.registerWrite addr w) s = .next (State.settle (s.respond 0 (regRow (4 * addr.toNat)).isSome)))

/-- What a write stores and its frame: the register takes the coded word under the rules of its fields, the port answers without CFG_SERR
(R17), and every other register and all other state stay; a write of BRD_CRED_CTRL first settles its quad's balance (R368). -/
def Obligations.RegisterStoreFrame : Prop :=
  ∀ (a : Nat) (w : Word32) (s : State) (r : RegRow), regRow a = some r →
    let u := s.portTake a
    let t := s.storeReg a w
    t.reg a = u.fieldRules a (u.reg a) (codedWord r u.locked (u.reg a) w)
    ∧ (∀ b, b ≠ a → t.reg b = u.reg b)
    ∧ { t with regs := u.regs } = u
    ∧ (isReg a 0x8100 0x10 8 = false → u = s.respond 0 false)
    ∧ t.pins.cfgSerr = false

/-- R16, R17, R486: what each access code makes of a written bit. RW bits take it, and RWL bits while LOCK is 0; W1C bits written 1
become 0; W1S bits written 1 become 1; every other bit keeps its value. -/
def Obligations.AccessCodesOfAWrite : Prop :=
  ∀ (r : RegRow) (lock : Bool) (old w : Word32) (i : Nat), i < 32 →
    let m : Word32 := BitVec.ofNat 32 (if lock then r.rw else r.rw + r.rwl)
    let c : Word32 := BitVec.ofNat 32 r.w1c
    let h : Word32 := BitVec.ofNat 32 r.w1s
    let new := codedWord r lock old w
    (m.getLsbD i = false → c.getLsbD i = false → h.getLsbD i = false → new.getLsbD i = old.getLsbD i)
    ∧ (m.getLsbD i = true → c.getLsbD i = false → h.getLsbD i = false → new.getLsbD i = w.getLsbD i)
    ∧ (m.getLsbD i = false → c.getLsbD i = true → h.getLsbD i = false → new.getLsbD i = (old.getLsbD i && !w.getLsbD i))
    ∧ (m.getLsbD i = false → c.getLsbD i = false → h.getLsbD i = true → new.getLsbD i = (old.getLsbD i || w.getLsbD i))

/-- R15: an address that holds no register reads 0 without CFG_SERR, whatever is powered, and a write there is ignored; while RESET_N is
low every read gives 0 with CFG_SERR and every write is dropped, as R53 gives. So it is, with CFG_SERR, where a register's domain is off
(R52). -/
def Obligations.RegistersThatDoNotAnswer : Prop :=
  ∀ (s : State) (a : Nat) (w : Word32) (f : State → State),
    (s.pins.resetN = false → s.readReg a = (0, true) ∧ s.writeWith a w f = s.respond 0 true)
    ∧ (s.pins.resetN = true → regRow a = none → s.readReg a = (0, false) ∧ s.writeWith a w f = s.respond 0 false)
    ∧ (∀ d, s.pins.resetN = true → (regRow a).isSome = true → regDomain a = some d → s.powered d = false →
        s.readReg a = (0, true) ∧ s.writeWith a w f = s.respond 0 true)

/-- What a read answers where the register does (R15, R17): its stored word, with CFG_SERR = 0, of the registers that hold what is
written or recorded; and of the counts and states that other chapters keep, their value at the read: the tags in flight and free (R218), the
COS entries in use (R220), what a queue waits for, has full or holds (R203, R223, R218), and a ring's records (Table 12.6). -/
def Obligations.RegisterReads : Prop :=
  ∀ (s : State) (a : Nat), s.answers a = true →
    (∀ (q : Fin 8) (n : Fin 32) (i : Fin 128) (b : Fin 37) (k : Fin 16),
      a ∈ [TOP_ID.adr, TOP_VERSION.adr, TOP_CTRL.adr, TOP_FRESET_STAT.adr, TET_STARTUP.adr, TET_PWR_STAT.adr, TET_WAKEN_STAT.adr,
           TET_WAKE_CAUSE.adr, GEO_STAT.adr, GEO_TEMP.adr k.val, PAT_STAT.adr, BAL_FATAL.adr, BAL_INJECT_STAT.adr, BAL_BANK.adr b.val,
           PHY_STAT.adr q.val, ZQ_STAT.adr q.val, Q_FLT_CTRL.adr q.val, Q_FLT_FIRST.adr q.val, CH_MODE_STAT.adr n.val,
           CH_TRAIN_STAT.adr n.val, CH_DRIFT_STAT.adr n.val, CH_FLT_CTRL.adr n.val, CH_FLT_FIRST.adr n.val, CH_FLT_LUNS.adr n.val,
           SQ_HEAD.adr i.val, SQ_TAIL.adr i.val, CQ_HEAD.adr n.val, CQ_TAIL.adr n.val] → s.readReg a = (s.reg a, false))
    ∧ (a = TOP_TAGS.adr → s.readReg a = (BitVec.ofNat 32 (s.sharedFree * 2 ^ 16 + s.heldTags.length), false))
    ∧ (a = TOP_COS.adr → s.readReg a = (putFld (s.reg a) 12 0 s.cosUsed, false))
    ∧ (∀ q : Fin 128, a = SQ_STAT.adr q.val →
        let waits := !(s.sqOf q.val).slot.isEmpty || (s.on (SQ_STAT.ENABLED q.val) && !s.native q.val && s.sqHead q.val != s.sqTail q.val)
        s.readReg a = (putBit (putBit (s.reg a) 30 (waits && !s.tagOk q.val)) 29 (s.sqOf q.val).refetching, false))
    ∧ (∀ c : Fin 32, (a = CQ_STAT.adr c.val →
        s.readReg a = (putFld (putBit (s.reg a) 30 (s.cqFull c.val)) 12 0 (s.heldOn (fun t => t.cq == c.val)), false))
        ∧ (a = CQ_WAIT.adr c.val → s.readReg a = (BitVec.ofNat 32 (s.cqWait c.val), false)))
    ∧ (∀ r : Fin 2, a = EV_STAT.adr + 0x1000 * r.val →
        let full := !s.on (evF r.val EV_STAT.ENABLED)
          || ixCount (s.evN r.val) (s.get (evF r.val EV_HEAD.INDEX)) (s.get (evF r.val EV_TAIL.INDEX)) == s.evN r.val
        s.readReg a = (putFld (putBit (putBit (s.reg a) 30 full) 28 ((s.ringOf r.val).late.any (fun x => sourceHeld x.src))) 6 0
          (s.ringOf r.val).queue.length, false))

/-- The command of each action register is the write of that register: its row and REGISTER_WRITE of its address agree, where the word
asks for that row's action alone. -/
def Obligations.ActionRowsAreRegisterWrites : Prop :=
  ∀ (s : State) (w : Word32),
    let same := fun (c : Instr) (a : Nat) => exec c s = exec (.registerWrite (BitVec.ofNat 18 (a / 4)) w) s
    (∀ q : Fin 8, same (.apply q w) (PHY_CTRL.adr q.val) ∧ same (.zqStart q w) (ZQ_CTRL.adr q.val) ∧ same (.quadOn q w) (TET_QPOL.adr q.val)
      ∧ (bit w 0 = false → bit w 2 = false → same (.quadFence q w) (Q_FLT_CTRL.adr q.val))
      ∧ (bit w 1 = false → bit w 2 = false → same (.quadUnfence q w) (Q_FLT_CTRL.adr q.val))
      ∧ (bit w 0 = false → bit w 1 = false → same (.declare q w) (Q_FLT_CTRL.adr q.val)))
    ∧ (∀ n : Fin 32, same (.trainStart n w) (CH_TRAIN_CTRL.adr n.val) ∧ same (.stuckClear n w) (CH_RB_STAT.adr n.val)
      ∧ same (.lunFence n w) (CH_FENCE.adr n.val) ∧ same (.lunUnfence n w) (CH_UNFENCE.adr n.val)
      ∧ (bit w 0 = false → same (.channelFence n w) (CH_FLT_CTRL.adr n.val))
      ∧ (bit w 1 = false → same (.channelUnfence n w) (CH_FLT_CTRL.adr n.val)) ∧ same (.cqEnable n w) (CQ_CFG.adr n.val))
    ∧ (∀ q : Fin 128, same (.sqEnable q w) (SQ_CFG.adr q.val))
    ∧ (∀ g : Fin 16, same (.tempWrite g w) (GEO_TEMP.adr g.val))
    ∧ (∀ r : Fin 2, same (.evEnable r w) (ringBase r.val) ∧ (bit w 30 = true → same (.evDisable r w) (ringBase r.val)))
    ∧ (∀ u : FltUnit, same (.fltValidClear u w) (fltAdr u))
    ∧ (bit w 1 = false → same (.activate w) PAT_CTRL.adr) ∧ (bit w 0 = false → same (.patClear w) PAT_CTRL.adr)
    ∧ same (.validate w) GEO_CTRL.adr ∧ same (.stripeSelWrite w) GEO_STRIPE_SEL.adr ∧ same (.lock w) TOP_CTRL.adr
    ∧ same (.blwClr w) BLW_CTRL.adr ∧ same (.rlhcClr w) GEO_RLHC_CTRL.adr ∧ same (.fatalTest w) BAL_FATAL_TEST.adr
    ∧ same (.fatalClear w 0) BAL_FATAL.adr ∧ same (.repair w) BAL_REPAIR.adr ∧ same (.testread w 0) BAL_INJECT.adr
    ∧ (bit w 23 = false → same (.balInjectArm w) BAL_INJECT.adr) ∧ same (.blwInjectArm w) BLW_INJECT.adr
    ∧ same (.patInjectArm w) PAT_INJECT.adr ∧ same (.wakeNUnmask w) TET_WAKEN_STAT.adr
    ∧ (bit w 31 = true → bit w 30 = false → same (.deep w) TET_PWR_CTRL.adr) ∧ (bit w 31 = false → same (.wake w) TET_PWR_CTRL.adr)
    ∧ same (.pwrfailLatchClear w s.pins.pwrfailN) TET_PWRFAIL.adr
    ∧ (w = 0x80000000#32 → same .fresetGraceful TOP_FRESET.adr) ∧ (w = 0x80000001#32 → same .fresetImmediate TOP_FRESET.adr)

/-! ### Queues, rings, function reset, geometry -/

/-- SQ_ENABLE and CQ_ENABLE (R201 to R203): EN = 1 on a disabled queue runs the checks; the first reason is recorded, or with none the
indices are set to 0 and the queue is enabled. EV_ENABLE and EV_DISABLE (R416): as a queue's; DISABLE wins, and is done at once when no
record write is ready or outstanding, else when those have finished. -/
def Obligations.QueueAndRingEnables : Prop :=
  (∀ s : State, s.Works →
     (∀ (sq : Fin 128) (w : Word32), let u := s.storeReg (SQ_CFG.adr sq.val) w
       s.answers (SQ_CFG.adr sq.val) = true → bit w 31 = true → u.on (SQ_STAT.ENABLED sq.val) = false →
         (u.sqCheck sq.val = 0 → exec (.sqEnable sq w) s = .next (State.settle
           ((((u.put (SQ_STAT.REASON sq.val) 0).put (SQ_HEAD.INDEX sq.val) 0).put (SQ_TAIL.INDEX sq.val) 0).put (SQ_STAT.ENABLED sq.val) 1)))
         ∧ (u.sqCheck sq.val ≠ 0 → exec (.sqEnable sq w) s = .next (State.settle (u.put (SQ_STAT.REASON sq.val) (u.sqCheck sq.val)))))
     ∧ (∀ (cq : Fin 32) (w : Word32), let u := s.storeReg (CQ_CFG.adr cq.val) w
       s.answers (CQ_CFG.adr cq.val) = true → bit w 31 = true → u.cqEnabled cq.val = false →
         (u.cqCheck cq.val = 0 → exec (.cqEnable cq w) s = .next (State.settle
           ((((u.put (CQ_STAT.REASON cq.val) 0).put (CQ_HEAD.INDEX cq.val) 0).put (CQ_TAIL.INDEX cq.val) 0).put (CQ_STAT.ENABLED cq.val) 1)))
         ∧ (u.cqCheck cq.val ≠ 0 → exec (.cqEnable cq w) s = .next (State.settle (u.put (CQ_STAT.REASON cq.val) (u.cqCheck cq.val))))))
  ∧ (∀ s : State, s.Works → ∀ (r : Fin 2) (w : Word32), s.answers (ringBase r.val) = true →
     let u := s.storeReg (ringBase r.val) w
     (bit w 30 = false → bit w 31 = true → u.on (evF r.val EV_STAT.ENABLED) = false → u.evCheck r.val = 0 →
       exec (.evEnable r w) s = .next (State.settle ((((u.put (evF r.val EV_STAT.REASON) 0).put (evF r.val EV_HEAD.INDEX) 0).put
         (evF r.val EV_TAIL.INDEX) 0).put (evF r.val EV_STAT.ENABLED) 1)))
     ∧ (bit w 30 = false → bit w 31 = true → u.on (evF r.val EV_STAT.ENABLED) = false → u.evCheck r.val ≠ 0 →
       exec (.evEnable r w) s = .next (State.settle (u.put (evF r.val EV_STAT.REASON) (u.evCheck r.val))))
     ∧ (bit w 30 = true → u.on (evF r.val EV_STAT.ENABLED) = true →
         (∀ x ∈ u.ready ++ u.flying, ∀ l, x.cont ≠ .event r.val l) →
       exec (.evDisable r w) s = .next (State.settle (u.put (evF r.val EV_STAT.ENABLED) 0)))
     ∧ (bit w 30 = true → u.on (evF r.val EV_STAT.ENABLED) = true →
         (∃ x ∈ u.ready ++ u.flying, ∃ l, x.cont = .event r.val l) →
       exec (.evDisable r w) s = .next (State.settle (u.modRing r.val fun x => { x with disabling := true }))))

/-- FRESET_GRACEFUL, FRESET_IMMEDIATE, FRESET_BOUND_EXPIRY and FRESET_DONE (R382, R383): START takes the block into step 3, what
waits discarded; IMMEDIATE, or the bound's expiry in GRACEFUL mode, sends RESET LUN to the LUNs that still work; the last step ends
the reset. -/
def Obligations.FunctionResetCommands : Prop :=
  ∀ s : State, s.Works →
    (∀ imm : Bool, let w : Word32 := if imm then 0x80000001#32 else 0x80000000#32
      let u := s.storeReg TOP_FRESET.adr w
      let now := imm || u.halted
      let v := ((((u.put TOP_FRESET_STAT.BUSY 1).put TOP_FRESET_STAT.MODE now.toNat).put TOP_FRESET_STAT.DROPPED u.cosUsed).put
        TOP_FRESET_STAT.ENTRIES 0).put TOP_FRESET_STAT.OVERFLOW 0
      let d := { v.fresetDiscard with freset := { busy := true, immediate := now, step := 3 }, halted := false,
                                      tet := { v.tet with waiting := none, shadow := [] } }
      s.answers TOP_FRESET.adr = true → u.fresetMay = true →
        exec (if imm then .fresetImmediate else .fresetGraceful) s
          = .next (State.settle (if now then d.each d.fresetTargets State.fresetLun else d)))
    ∧ (s.topOn = true → s.freset.busy = true → s.freset.immediate = false → s.freset.step = 3 →
        exec .fresetBoundExpiry s
          = .next (State.settle (s.each ((s.luns.filter (fun e => e.2.busy || e.2.suspended)).map (·.1)) State.fresetLun)))
    ∧ (s.topOn = true → s.freset.busy = true → s.freset.step = 7 → exec .fresetDone s = .next (State.settle s.fresetEnd))

/-- VALIDATE, VALIDATE_DONE, STRIPE_SEL_WRITE and TEMP_WRITE (R166, R182, R188, R380): the stored values are captured as the write finds
them; the check's first failure is recorded and the copy in force stays, or the captured values come into force with their abort
bound; the stripe view takes the entry; a group's hold follows its temperature. -/
def Obligations.GeometryCommands : Prop :=
  ∀ s : State, s.Works →
    (∀ w : Word32, let u := s.storeReg GEO_CTRL.adr w
      s.answers GEO_CTRL.adr = true → bit w 0 = true → u.on GEO_STAT.BUSY = false →
        (u.heldTags = [] → (∀ q, q < 8 → u.on (PHY_STAT.APPLY_BUSY q) = false) →
          exec (.validate w) s = .next (State.settle { u.put GEO_STAT.BUSY 1 with checking := some u.geoNow }))
        ∧ (u.heldTags ≠ [] ∨ (∃ q, q < 8 ∧ u.on (PHY_STAT.APPLY_BUSY q) = true) →
          exec (.validate w) s = .next (State.settle ((u.put GEO_STAT.REASON 1).put GEO_STAT.INDEX 0))))
    ∧ (∀ t : Tab Word32, s.topOn = true → s.checking = some t → let u := ({ s with checking := none } : State).put GEO_STAT.BUSY 0
        (∀ c i, u.geoVerdict t = some (c, i) → exec .validateDone s = .next (State.settle ((u.put GEO_STAT.REASON c).put GEO_STAT.INDEX i)))
        ∧ (u.geoVerdict t = none → exec .validateDone s = .next (State.settle
            (((((({ u with force := t } : State).put GEO_STAT.VALID 1).put GEO_STAT.REASON 0).put GEO_STAT.INDEX 0).put
              TOP_ABORT_BOUND.BOUND (max 20 (tRstMax t + 50))).each (List.range 16) State.updateHold))))
    ∧ (∀ w : Word32, let u := s.storeReg GEO_STRIPE_SEL.adr w
      s.answers GEO_STRIPE_SEL.adr = true → exec (.stripeSelWrite w) s = .next (State.settle
        (u.each (List.range 32) fun x k => x.setReg (GEO_STRIPE_VIEW.adr k) (stripeWord (u.stripeOf (u.get GEO_STRIPE_SEL.ID)) k))))
    ∧ (∀ (g : Fin 16) (w : Word32), let u := s.storeReg (GEO_TEMP.adr g.val) w
      s.answers (GEO_TEMP.adr g.val) = true → u.holdNow g.val ≠ u.on (GEO_TEMP.HOLD g.val) →
        exec (.tempWrite g w) s = .next (State.settle ((u.put (GEO_TEMP.HOLD g.val) (u.holdNow g.val).toNat).raise 275 0
          (g.val + (u.holdNow g.val).toNat * 16 + u.get (GEO_TEMP.TEMP g.val) * 256))))

/-- PATCH_ROW_COMMIT, NANO_WORD_COMMIT, PAT_CLEAR and PAT_INJECT_ARM (R157, R158, R163, R446): while the pending bank takes writes, a commit
writes the row or the word with the injection armed, which is used up, and CLEAR marks every row and nano-word unwritten and sets EN = 0 in
every match and entry register; else WR_REFUSED is set. ACTIVATE and PATCH_BANK_SWITCH (R161, R163): ACTIVATE makes every Chanter's switch
pending, and one whose domain is off switches at once; while an activation is pending it is ignored. A pending Chanter at an idle boundary
takes the other bank, and the last one ends the activation, turns the pending bank over and raises EV_PATCH_ACTIVE. -/
def Obligations.PatchCommands : Prop :=
  (∀ s : State, s.Works →
     (∀ (j : Fin 512) (w : Word32), let u := s.storeReg (PAT_ROW.adr j.val 1) w
       s.answers (PAT_ROW.adr j.val 1) = true →
         (u.patWritable = true → exec (.patchRowCommit j w) s = .next (State.settle
           ((u.put PAT_INJECT.MODE 0).setPending fun p =>
             { p with row := tabPut (fun _ => 0) p.row j.val (w ++ tabGet (fun _ => 0) p.rowWord j.val),
                      rowOk := tabPut (fun _ => false) p.rowOk j.val true, rowInv := tabPut (fun _ => 0) p.rowInv j.val (u.get PAT_INJECT.MODE) })))
         ∧ (u.patWritable = false → exec (.patchRowCommit j w) s = .next (State.settle (u.put PAT_STAT.WR_REFUSED 1))))
     ∧ (∀ (i : Fin 128) (w : Word32), let u := s.storeReg (PAT_NANO.adr i.val 5) w
       let k := fun x => tabGet (fun _ => (0 : Word32)) (u.put PAT_INJECT.MODE 0).pending'.nanoWord (8 * i.val + x)
       s.answers (PAT_NANO.adr i.val 5) = true →
         (u.patWritable = true → exec (.nanoWordCommit i w) s = .next (State.settle
           ((u.put PAT_INJECT.MODE 0).setPending fun p =>
             { p with nano := tabPut (fun _ => 0) p.nano i.val (w ++ k 4 ++ k 3 ++ k 2 ++ k 1 ++ k 0),
                      nanoOk := tabPut (fun _ => false) p.nanoOk i.val true, nanoInv := tabPut (fun _ => 0) p.nanoInv i.val (u.get PAT_INJECT.MODE) })))
         ∧ (u.patWritable = false → exec (.nanoWordCommit i w) s = .next (State.settle (u.put PAT_STAT.WR_REFUSED 1))))
     ∧ (∀ w : Word32, let u := s.storeReg PAT_CTRL.adr w
       s.answers PAT_CTRL.adr = true → bit w 1 = true →
         let v := u.patClear
         exec (.patClear w) s = .next v.settle
         ∧ (u.patWritable = true → v = u.setPending (fun _ => v.pending')
           ∧ { v.pending' with rowOk := u.pending'.rowOk, nanoOk := u.pending'.nanoOk, mtch := u.pending'.mtch, entry := u.pending'.entry } = u.pending'
           ∧ (∀ i, tabGet (fun _ => false) v.pending'.rowOk i = false ∧ tabGet (fun _ => false) v.pending'.nanoOk i = false)
           ∧ (∀ i, bit (tabGet (fun _ => 0) v.pending'.mtch i) 31 = false ∧ bit (tabGet (fun _ => 0) v.pending'.entry i) 31 = false)
           ∧ (tabWf (fun _ => 0) u.pending'.mtch = true → tabWf (fun _ => 0) u.pending'.entry = true → ∀ i,
               tabGet (fun _ => 0) v.pending'.mtch i = putBit (tabGet (fun _ => 0) u.pending'.mtch i) 31 false
               ∧ tabGet (fun _ => 0) v.pending'.entry i = putBit (tabGet (fun _ => 0) u.pending'.entry i) 31 false))
         ∧ (u.patWritable = false → exec (.patClear w) s = .next (State.settle (u.put PAT_STAT.WR_REFUSED 1))))
     ∧ (∀ w : Word32, s.answers PAT_INJECT.adr = true → exec (.patInjectArm w) s = .next (State.settle (s.storeReg PAT_INJECT.adr w))))
  ∧ (∀ s : State, s.Works →
     (∀ w : Word32, let u := s.storeReg PAT_CTRL.adr w
       s.answers PAT_CTRL.adr = true → bit w 0 = true →
         let v := u.patActivate
         exec (.activate w) s = .next v.settle
         ∧ (u.on PAT_STAT.ACT_PENDING = false → (∀ k, k < 9 → u.powered (chanterDomain k) = true) → v =
           (u.put PAT_STAT.ACT_PENDING 1).setReg PAT_QUAD_PATCH_STATE.adr
             ((u.put PAT_STAT.ACT_PENDING 1).reg PAT_QUAD_PATCH_STATE.adr ||| 0x2492492#32))
         ∧ (∀ k, k < 9 → u.on PAT_STAT.ACT_PENDING = false →
             (u.powered (chanterDomain k) = false → v.pendingOf k = false ∧ v.bankOf k = !u.bankOf k)
             ∧ (u.powered (chanterDomain k) = true → v.pendingOf k = true ∧ v.bankOf k = u.bankOf k ∧ v.on PAT_STAT.ACT_PENDING = true))
         ∧ (u.on PAT_STAT.ACT_PENDING = true → exec (.activate w) s = .next (State.settle u)))
     ∧ (∀ k : Fin 9, s.on PAT_STAT.ACT_PENDING = true → s.pendingOf k.val = true →
         s.chanterIdle k.val = true ∨ s.powered (chanterDomain k.val) = false →
         let w := s.reg PAT_QUAD_PATCH_STATE.adr
         let u := s.setReg PAT_QUAD_PATCH_STATE.adr (putBit (putBit w (3 * k.val) (!s.bankOf k.val)) (3 * k.val + 1) false)
         ((∃ j, j < 9 ∧ u.pendingOf j = true) → exec (.patchBankSwitch k) s = .next (State.settle u))
         ∧ ((∀ j, j < 9 → u.pendingOf j = false) → exec (.patchBankSwitch k) s = .next (State.settle
             (((u.put PAT_STAT.ACT_PENDING 0).put PAT_STAT.PEND_BANK (1 - u.get PAT_STAT.PEND_BANK)).raise 276 0
               (u.get PAT_STAT.PEND_BANK + (((u.put PAT_STAT.ACT_PENDING 0).put PAT_STAT.PEND_BANK (1 - u.get PAT_STAT.PEND_BANK)).patBank
                 (u.get PAT_STAT.PEND_BANK == 1)).ident.toNat * 2 ^ 32))))))

/-- BLW_CLR, RLHC_CLR, STUCK_CLEAR, LOCK and WAKE_N_UNMASK (R127, R290, R427, R485, R486): the counters named go to 0, and nothing else. -/
def Obligations.CounterAndLockWrites : Prop :=
  ∀ (s : State) (w : Word32), s.Works →
    (s.answers BLW_CTRL.adr = true → bit w 0 = true → exec (.blwClr w) s = .next (State.settle
      ((((((s.storeReg BLW_CTRL.adr w).setReg BLW_CNT_BF.adr 0).setReg BLW_CNT_MS.adr 0).setReg BLW_CNT_FAIL.adr 0).setReg
        BLW_CNT_MISCORR.adr 0).setReg BLW_CNT_ERASED.adr 0)))
    ∧ (s.answers GEO_RLHC_CTRL.adr = true → bit w 24 = true → exec (.rlhcClr w) s = .next (State.settle
      (((((s.storeReg GEO_RLHC_CTRL.adr w).setReg GEO_RLHC_HIT.adr 0).setReg GEO_RLHC_MISS.adr 0).setReg GEO_RLHC_LATE.adr 0).setReg
        GEO_RLHC_WB.adr 0)))
    ∧ (∀ n : Fin 32, s.answers (CH_RB_STAT.adr n.val) = true → exec (.stuckClear n w) s = .next (State.settle
      ((s.storeReg (CH_RB_STAT.adr n.val) w).each (onesOf 8 (fld w 31 24)) fun x t =>
        x.modChan n.val fun c => { c with readyPolls := tabPut (fun _ => 0) c.readyPolls t 0 })))
    ∧ (s.answers TOP_CTRL.adr = true → exec (.lock w) s = .next (State.settle (s.storeReg TOP_CTRL.adr w)))
    ∧ (bit w 31 = true → exec (.wakeNUnmask w) s = .next (State.settle ((s.storeReg TET_WAKEN_STAT.adr w).put TET_WAKEN_STAT.IDLE 0)))

/-! ### Faults, injection, rows and fences -/

/-- FATAL_TEST, FATAL_CLEAR and FATAL_CAUSE (R436 to R438): a cause sets its bit, takes FAULT_N low, halts the top, makes every channel
safe and raises EV_FATAL; a cleared bit whose cause persists, TRIM_BAD and NO_DECODER stay; with none left FAULT_N rises. A bank 36 row of
the tag table or a queue (TOP_STORE_UE) is captured with its event and spared as well. RETENTION_BAD is fatal in DEEP and in its wake, and a
capture alone outside them (Table 13.8). Bit 6 names no cause, and that its row does nothing is the model's choice (log 26). -/
def Obligations.FatalCommands : Prop :=
  ∀ s : State, s.Works →
    (∀ (u : State) (b : Nat), u.fatal b =
      let v := u.setBit BAL_FATAL.adr b true
      let h := { v with pins := { v.pins with faultN := false }, halted := true }
      let x := (h.each (List.range 8) State.cutApply).allSafe
      x.raise 287 3 (x.reg BAL_FATAL.adr).toNat)
    ∧ (∀ w : Word32, s.answers BAL_FATAL_TEST.adr = true → bit w 0 = true →
        exec (.fatalTest w) s = .next (State.settle ((s.storeReg BAL_FATAL_TEST.adr w).fatal fatalTestBit)))
    ∧ (∀ w persist : Word32, s.answers BAL_FATAL.adr = true → let u := s.storeReg BAL_FATAL.adr w
        let old := u.reg BAL_FATAL.adr
        let new := (old &&& ~~~ w) ||| (old &&& (persist ||| 0x21#32))
        (old ≠ 0 → new = 0 → exec (.fatalClear w persist) s = .next (State.settle
          { u.setReg BAL_FATAL.adr new with pins := { u.pins with faultN := true } }))
        ∧ (new ≠ 0 → exec (.fatalClear w persist) s = .next (State.settle (u.setReg BAL_FATAL.adr new))))
    ∧ (∀ ctx : Word32,
        exec (.fatalCause 0 ctx) s = .next (State.settle ((s.capture (.top 5) 1 3 ctx.toNat false).fatal fatalTrim))
        ∧ exec (.fatalCause 1 ctx) s = .next (State.settle (s.fatal fatalEscalated))
        ∧ (s.injected 36 (ctx.toNat % queueRows) = 0 → exec (.fatalCause 2 ctx) s = .next (State.settle
            (((((s.capture (.top 0) 2 3 (ctx.toNat % queueRows) false).evTopSramUe 36 (ctx.toNat % queueRows) 0xFFF 0 false).fatal fatalStore)).later
              (.spareRow 36 (ctx.toNat % queueRows) true))))
        ∧ exec (.fatalCause 3 ctx) s = .next (State.settle ((s.capture (.top 4) 3 3 ctx.toNat false).fatal fatalSelftest))
        ∧ (s.block = blockDeep ∨ s.block = blockWaking →
            exec (.fatalCause 4 ctx) s = .next (State.settle ((s.capture (.top 5) 2 3 ctx.toNat false).fatal fatalRetention)))
        ∧ (s.block ≠ blockDeep → s.block ≠ blockWaking →
            exec (.fatalCause 4 ctx) s = .next (State.settle (s.capture (.top 5) 2 3 ctx.toNat false)))
        ∧ exec (.fatalCause 5 ctx) s = .next (State.settle ((s.capture (.top 3) 2 3 0 false).fatal fatalNoDecoder))
        ∧ exec (.fatalCause 6 ctx) s = .next s.settle
        ∧ exec (.fatalCause 7 ctx) s = .next (State.settle (s.fatal fatalTestBit)))

/-- TESTREAD, BAL_INJECT_ARM, BLW_INJECT_ARM (R446, R447): a test read of an existing row of a powered bank uses up the injection, sets DONE
and RESULT, counts a corrected read and captures an uncorrectable one with its event; arming clears DONE, or arms the slice. Of the context
the spec gives no value but the tables': that no tag is named, and that a line of the RLH is captured in no unit, are the model's choices
(log 58). REPAIR, ROW_TRACK_EXPIRY and ROW_COPY_DONE (R442): an existing row that is not being copied takes the bank's next spare row with
EV_ROW_SPARED and a capture, as long as one of 16 is left; a tracker entry older than WINDOW goes; a copy that has ended maps its row. -/
def Obligations.BallastCommands : Prop :=
  (∀ (s : State) (w : Word32), s.Works → s.answers BAL_INJECT.adr = true → s.answers BLW_INJECT.adr = true →
     (∀ errs : Nat,
       let u := s.storeReg BAL_INJECT.adr w
       let v := if fld w 31 30 != 0 then u.put BAL_INJECT_STAT.DONE 0 else u
       let b := v.get BAL_INJECT.BANK
       let res := min 3 (v.get BAL_INJECT.MODE + errs)
       let x := ((v.put BAL_INJECT.MODE 0).put BAL_INJECT_STAT.DONE 1).put BAL_INJECT_STAT.RESULT res
       bit w 23 = true → b ≤ 36 → v.get BAL_INJECT.ROW < bankRows b → (∀ d, bankDomain b = some d → v.usable d = true) →
         let row := v.get BAL_INJECT.ROW
         let ctx := if b < 32 then row + 0xFFF * 2 ^ 12
           else if b = 33 then (((s.accs.filter (·.chip))[row / 4096]?).map (·.stripe)).getD 0xFFF
           else if b = 34 then row / 2 else if b = 36 then row else 0xFFF
         (res = 0 → exec (.testread w errs) s = .next x.settle)
         ∧ (res = 1 ∨ res = 2 → exec (.testread w errs) s = .next (State.settle (x.bump (BAL_BANK.CORR b) 1)))
         ∧ (∀ n : Fin 32, res = 3 → b = n.val → exec (.testread w errs) s = .next (State.settle
             ((x.fault (.chan n) 6 2 ctx false true).evSramUe (n.val / 4) b row 0xFFF false true)))
         ∧ (res = 3 → 32 ≤ b → b ≠ 36 ∨ row < queueRows → exec (.testread w errs) s = .next (State.settle
             ((x.fault (.top (bankTop b)) (if b = 34 ∨ b = 36 then 2 else 1) (if b = 36 then 3 else 2) ctx false true).evTopSramUe b row 0xFFF 0 true)))
         ∧ (res = 3 → b = 36 → queueRows ≤ row → exec (.testread w errs) s = .next (State.settle (x.evTopSramUe b row 0xFFF 0 true))))
     ∧ (fld w 31 30 ≠ 0 → exec (.balInjectArm w) s = .next (State.settle ((s.storeReg BAL_INJECT.adr w).put BAL_INJECT_STAT.DONE 0)))
     ∧ (bit w 8 = true → exec (.blwInjectArm w) s = .next (State.settle
         (let u := s.storeReg BLW_INJECT.adr w; { u with ballast := { u.ballast with sliceArmed := some (fld w 4 0) } }))))
  ∧ (∀ s : State, s.Works →
     (∀ w : Word32, let u := s.storeReg BAL_REPAIR.adr w
       let b := fld w 29 24
       let row := fld w 19 0
       let used := u.get (BAL_BANK.USED b)
       let v := { u with ballast := { u.ballast with tracker := u.ballast.tracker.filter (fun t => !(t.bank == b && t.row == row)) } }
       s.answers BAL_REPAIR.adr = true → bit w 31 = true → b ≤ 36 → row < bankRows b →
         u.ballast.copying.any (fun c => c.1 == b && c.2.1 == row) = false →
         (v.get (BAL_BANK.USED b) ≥ 16 → exec (.repair w) s = .next (State.settle ((v.evSpareExhausted 1 b).fault (.top 4) 2 2 b)))
         ∧ (used < 16 → 32 ≤ b → exec (.repair w) s = .next (State.settle
             (let x := ((v.put (BAL_BANK.USED b) (used + 1)).raise 284 2 (b + row * 2 ^ 6 + used * 2 ^ 26)).fault (.top 4) 1 2 (b + row * 2 ^ 6)
              ({ x with ballast := { x.ballast with copying := x.ballast.copying ++ [(b, row, used)] } } : State).updTopRec 4)))
         ∧ (∀ n : Fin 32, used < 16 → b = n.val → exec (.repair w) s = .next (State.settle
             (let x := ((v.put (BAL_BANK.USED b) (used + 1)).raise 284 2 (b + row * 2 ^ 6 + used * 2 ^ 26)).fault (.chan n) 7 2 (row + used * 2 ^ 12)
              ({ x with ballast := { x.ballast with copying := x.ballast.copying ++ [(b, row, used)] } } : State).updChanRec b))))
     ∧ (∀ (bank : Fin 37) (row : Nat), exec (.rowTrackExpiry bank row) s = .next (State.settle
         { s with ballast := { s.ballast with tracker := s.ballast.tracker.filter (fun t =>
             !(t.bank == bank.val && t.row == row && decide (s.get BAL_ROW_CTRL.WINDOW * hourTicks < s.now - t.first))) } }))
     ∧ (∀ (bank : Fin 37) (c : Nat × Nat × Nat), s.ballast.copying.find? (fun x => x.1 == bank.val) = some c →
         let u := { s with ballast := { s.ballast with copying := s.ballast.copying.erase c,
                                                       rowMap := s.ballast.rowMap.filter (fun (x : Nat × Nat × Nat) => !(x.1 == c.1 && x.2.1 == c.2.1)) ++ [c] } }
         exec (.rowCopyDone bank) s = .next (State.settle (if bank.val < 32 then u.updChanRec bank.val else u.updTopRec 4))))

/-- LUN_FENCE and LUN_UNFENCE (R435, Table 13.6), word by word of one LUN: a fence is set with its capture; an unfence ends one whose causes
have gone, a LUN still busy polled again, and is ignored while one persists. CHANNEL_FENCE, CHANNEL_UNFENCE, QUAD_FENCE and QUAD_UNFENCE
(R435): FENCED with its capture; an unfence ends it, its LUNs still busy polled again, and is ignored while the unit's VALID or RECOVERING
is 1 or a cause persists: a channel untrained, a quad's Chanter declared and no spare serving in its place, a quad's PLL not locked. -/
def Obligations.FenceCommands : Prop :=
  (∀ (s : State) (n : Fin 32) (l : Fin 32), s.Works →
     let w : Word32 := BitVec.ofNat 32 (2 ^ l.val)
     let g := 32 * n.val + l.val
     let f := s.storeReg (CH_FENCE.adr n.val) w
     let u := s.storeReg (CH_UNFENCE.adr n.val) w
     let persists := (u.reg (CH_FLT_LUNS.adr n.val)).getLsbD l.val || (u.lunOf g).resetting || u.untrained n.val
       || u.on (CH_FLT_CTRL.FENCED n.val) || u.on (Q_FLT_CTRL.FENCED (chanQuad n.val))
     (s.answers (CH_FENCE.adr n.val) = true → (f.lunOf g).fenced = false → exec (.lunFence n w) s = .next (State.settle
         (((f.modLun g fun x => { x with fenced := true }).later (.lunFenced g)).fault (.chan n) 9 2 l.val)))
     ∧ (s.answers (CH_UNFENCE.adr n.val) = true → persists = false → (u.lunOf g).fenced = true →
         exec (.lunUnfence n w) s = .next (State.settle ((u.modLun g fun x => { x with fenced := false }).pollAgain g)))
     ∧ (s.answers (CH_UNFENCE.adr n.val) = true → persists = true → exec (.lunUnfence n w) s = .next u.settle))
  ∧ (∀ s : State, s.Works →
     (∀ (n : Fin 32) (w : Word32), s.answers (CH_FLT_CTRL.adr n.val) = true → let u := s.storeReg (CH_FLT_CTRL.adr n.val) w
       (bit w 1 = true → u.on (CH_FLT_CTRL.FENCED n.val) = false → exec (.channelFence n w) s = .next (State.settle
         (((u.put (CH_FLT_CTRL.FENCED n.val) 1).later (.chanFenced n.val)).fault (.chan n) 9 2 (2 ^ 31))))
       ∧ (bit w 0 = true → u.on (fltValid (CH_FLT_FIRST.adr n.val)) = false → u.on (fltRecovering (CH_FLT_FIRST.adr n.val)) = false →
           u.untrained n.val = false → exec (.channelUnfence n w) s = .next (State.settle
             ((chanLuns n.val).foldl State.pollAgain (u.put (CH_FLT_CTRL.FENCED n.val) 0))))
       ∧ (u.on (fltValid (CH_FLT_FIRST.adr n.val)) = true ∨ u.on (fltRecovering (CH_FLT_FIRST.adr n.val)) = true ∨ u.untrained n.val = true →
           exec (.channelUnfence n w) s = .next u.settle))
     ∧ (∀ (q : Fin 8) (w : Word32), s.answers (Q_FLT_CTRL.adr q.val) = true → let u := s.storeReg (Q_FLT_CTRL.adr q.val) w
       (bit w 1 = true → u.on (Q_FLT_CTRL.FENCED q.val) = false → exec (.quadFence q w) s = .next (State.settle
         (((u.put (Q_FLT_CTRL.FENCED q.val) 1).later (.quadFenced q.val)).fault (.quad q) 0x15 2 0)))
       ∧ (bit w 0 = true → u.on (fltValid (Q_FLT_FIRST.adr q.val)) = false → u.on (fltRecovering (Q_FLT_FIRST.adr q.val)) = false →
           (u.on (Q_FLT_CTRL.CHT_FAULTED q.val) = false ∨ u.on (Q_FLT_CTRL.SPARE_SERVING q.val) = true) →
           u.on (PHY_STAT.LOCK q.val) = true → exec (.quadUnfence q w) s = .next (State.settle
             (((quadChans q.val).flatMap chanLuns).foldl State.pollAgain (u.put (Q_FLT_CTRL.FENCED q.val) 0))))
       ∧ (u.on (fltValid (Q_FLT_FIRST.adr q.val)) = true ∨ u.on (fltRecovering (Q_FLT_FIRST.adr q.val)) = true
           ∨ (u.on (Q_FLT_CTRL.CHT_FAULTED q.val) = true ∧ u.on (Q_FLT_CTRL.SPARE_SERVING q.val) = false)
           ∨ u.on (PHY_STAT.LOCK q.val) = false → exec (.quadUnfence q w) s = .next u.settle)))

/-- DECLARE, SPARE_TAKEOVER_DONE and SLICE_SPARE_ACTIVE (R448 to R450): a declared Chanter is captured and the free spare begins to take
over, its uncommitted routines abandoned for restart, or the quad is fenced (a declaration while the unit recovers escalates); at the
take-over's end the spare serves; a slice under test becomes active, or is retired for the next spare. -/
def Obligations.SpareCommands : Prop :=
  ∀ s : State, s.Works →
    (∀ (q : Fin 8) (w : Word32), s.answers (Q_FLT_CTRL.adr q.val) = true → bit w 2 = true →
      let u := s.storeReg (Q_FLT_CTRL.adr q.val) w
      let c := (u.put (Q_FLT_CTRL.CHT_FAULTED q.val) 1).capture (.quad q) 0x10 2 32 false
      u.on (Q_FLT_CTRL.CHT_FAULTED q.val) = false →
        (u.recovering (.quad q) = true → c.on (Q_FLT_CTRL.FENCED q.val) = false → exec (.declare q w) s = .next (State.settle (c.escalate (.quad q) 0x10 2 false)))
        ∧ (u.recovering (.quad q) = false → c.ballast.spcOk = true → c.ballast.spcQuad = none → exec (.declare q w) s = .next (State.settle
          ((((((({ c with ballast := { c.ballast with spcQuad := some q.val } } : State).modQuad q.val fun x => { x with takeover := true }).updQuadRec
            q.val).evSpareTaken 3 q.val 8).powerUp pdSpc).abandon q.val))))
        ∧ (u.recovering (.quad q) = false → c.ballast.spcOk = false ∨ c.ballast.spcQuad ≠ none → exec (.declare q w) s = .next (State.settle
          (((c.capture (.quad q) 0x13 2 0x10 false).evSpareExhausted 3 q.val).fenceQuad q.val))))
    ∧ (∀ q : Fin 8, s.ballast.spcQuad = some q.val → (s.quadOf q.val).takeover = true → s.usable pdSpc = true →
        let w := s.reg PAT_QUAD_PATCH_STATE.adr
        let u := (s.setReg PAT_QUAD_PATCH_STATE.adr (putFld w 25 24 (fld w (3 * q.val + 1) (3 * q.val)))).patDone
        let v := ((u.put (Q_FLT_CTRL.SPARE_SERVING q.val) 1).modQuad q.val fun x => { x with takeover := false }).updQuadRec q.val
        exec .spareTakeoverDone s = .next (State.settle (v.each (quadChans q.val) fun y n =>
          let z := if (y.ctxOf n).state != 0 && (y.ctxOf n).committed then (y.freeCtx n (y.ctxOf n).lun).finishNow n (y.ctxOf n).lun (y.ctxOf n) else y
          z.each (chanLuns n) fun x g => match (x.lunOf g).park with
            | some c => if c.committed then (x.dropPark g).finishOp g c else x
            | none => x)))
    ∧ (∀ sl : Fin 18, s.topOn = true → (s.sliceOf sl.val).st = sliceTesting → s.powered (pdB (sl.val / 2)) = true →
        exec (.sliceSpareActive sl none) s = .next (State.settle
          (((s.modSlice sl.val fun x => { x with st := sliceActive }).evSpareTaken 2 (s.sliceOf sl.val).forFault sl.val).updPairs))
        ∧ (∀ (v : BitVec 2) (k : Nat), exec (.sliceSpareActive sl (some (v, k))) s = .next (State.settle
          (((((s.fault (.slice sl) 0x10 2 v.toNat).evSlice sl.val 1 (v.toNat + k % 256 * 2 ^ 8)).modSlice sl.val
            fun x => { x with st := sliceRetired }).takeSpare (s.sliceOf sl.val).forFault)))))

/-- FLT_VALID_CLEAR (R431): VALID and MULTI go to 0 unless the unit is recovering; CTX and TIME keep their values. R430: every fault counts
by its class; the first fills FIRST, CTX and TIME and sets VALID; one that arrives while VALID is 1 sets MULTI and leaves CTX and TIME.
Nothing but the unit's registers changes. -/
def Obligations.FaultRecords : Prop :=
  (∀ (s : State) (u : FltUnit) (w : Word32), s.Works → s.answers (fltAdr u) = true → bit w 31 = true →
     let v := s.storeReg (fltAdr u) w
     let x := (v.put (fltValid (fltAdr u)) 0).put (fltMulti (fltAdr u)) 0
     (v.on (fltRecovering (fltAdr u)) = true → exec (.fltValidClear u w) s = .next v.settle)
     ∧ (v.on (fltRecovering (fltAdr u)) = false → exec (.fltValidClear u w) s = .next x.settle)
     ∧ x.reg (fltAdr u + 4) = s.reg (fltAdr u + 4) ∧ x.reg (fltAdr u + 8) = s.reg (fltAdr u + 8))
  ∧ (∀ (s : State) (u : FltUnit) (code cls ctx : Nat) (inj : Bool), cls = 1 ∨ cls = 2 ∨ cls = 3 → code < 2 ^ 8 →
     let a := fltAdr u
     let t := s.capture u code cls ctx inj
     let v := s.on (fltValid a)
     { t with regs := s.regs } = s
     ∧ (∀ b, b ≠ a → b ≠ a + 4 → b ≠ a + 8 → b ≠ a + 12 → t.reg b = s.reg b)
     ∧ (v = true → t.on (fltMulti a) = true ∧ t.on (fltValid a) = true ∧ t.reg (a + 4) = s.reg (a + 4) ∧ t.reg (a + 8) = s.reg (a + 8))
     ∧ (v = false → t.on (fltValid a) = true ∧ t.get ⟨a, 23, 16⟩ = code ∧ t.get ⟨a, 29, 28⟩ = cls ∧ t.on (fltMulti a) = false
         ∧ t.reg (a + 4) = BitVec.ofNat 32 ctx ∧ t.reg (a + 8) = s.time32)
     ∧ (cls = 1 → t.get ⟨a + 12, 15, 0⟩ = min (s.get ⟨a + 12, 15, 0⟩ + 1) 65535)
     ∧ (cls ≠ 1 → t.get ⟨a + 12, 31, 16⟩ = min (s.get ⟨a + 12, 31, 16⟩ + 1) 65535))

/-! ### Start-up, handshakes, wake slots, power-fail -/

/-- STARTUP_STEP (R475 to R477, Table 14.7): the step in progress ends with its effect and the next begins, step by step from 1 to 10. The
requests that step 4 raises (R79, R460) are those whose acknowledge is low, none before PD_TOP's, no PD_Pq before PD_Qq's. FUSE_ACK and
FUSE_TIMEOUT (R81 to R83): a word is kept and the next is asked for; after the last the row is checked, and applied, or the load fails with
its word; a word that does not come fails the load too. A failure ends start-up with TRIM_BAD. -/
def Obligations.StartupAndFuses : Prop :=
  ((∀ (p : Pins) (d : Nat), d < 28 → p.asks.getLsbD d = (p.pwrReq.getLsbD d
     || (!p.pwrAck.getLsbD d && (p.pwrReq.getLsbD pdTop || !p.pwrAck.getLsbD pdTop)
         && (decide (d < 10) || decide (18 ≤ d) || p.pwrReq.getLsbD (d - 8) || !p.pwrAck.getLsbD (d - 8)))))
   ∧ ∀ (s : State) (r : StartupReport), s.Works → s.tet.starting = true → let k := s.get TET_STARTUP.STEP
     let go := fun (u : State) => exec (.startupStep r) s = .next (State.settle (u.put TET_STARTUP.STEP (k + 1)))
     (k = 1 → go s)
     ∧ (k = 2 → go { s with pins := { s.pins with fuseReq := true, fuseAddr := 0 } })
     ∧ (k = 3 → s.tet.trim.length = 32 → go { s with pins := { s.pins with pwrReq := s.pins.asks,
                                                                           cclkReq := s.pins.cclkReq || !s.pins.cclkAck } })
     ∧ (k = 3 → s.tet.trim.length ≠ 32 → exec (.startupStep r) s = .next s.settle)
     ∧ (k = 4 → s.pins.pwrReq &&& s.pins.pwrAck = BitVec.allOnes 28 → s.pins.cclkReq = true → s.pins.cclkAck = true → go s)
     ∧ (k = 5 → go (s.startPhy r))
     ∧ (k = 6 → go { s with tet := { s.tet with usable := BitVec.allOnes 28 } })
     ∧ (k = 7 → go (s.checkBanks r))
     ∧ (k = 8 → go (s.checkSlices r))
     ∧ (k = 9 → exec (.startupStep r) s = .next (State.settle (((s.checkChanters r).put TET_STARTUP.STEP 10).startEnd))))
  ∧ (∀ (s : State) (data : Word32), s.Works → s.pins.fuseReq = true → s.tet.starting = true →
     let u := { s with tet := { s.tet with trim := s.tet.trim ++ [data] } }
     let v := { u with pins := { u.pins with fuseReq := false } }
     (∀ (x : State) (ctx : Nat), x.trimBad ctx =
       (((({ x with tet := { x.tet with starting := false } } : State).capture (.top 5) 1 3 ctx false).put
         TET_STARTUP.FAILED 1).fatal fatalTrim))
     ∧ (s.pins.fuseAddr < 31 → exec (.fuseAck data) s = .next (State.settle { u with pins := { u.pins with fuseAddr := u.pins.fuseAddr + 1 } }))
     ∧ (31 ≤ s.pins.fuseAddr → v.trimFault = none → exec (.fuseAck data) s = .next (State.settle v.trimApply))
     ∧ (∀ x, 31 ≤ s.pins.fuseAddr → v.trimFault = some x → exec (.fuseAck data) s = .next (State.settle (v.trimBad x)))
     ∧ exec .fuseTimeout s = .next (State.settle (s.trimBad s.pins.fuseAddr)))

/-- PWR_ACK_RISE, PWR_ACK_FALL, CCLK_ACK_RISE, CCLK_ACK_FALL, PWR_ACK_LATE and STORE_FILL_DONE (R49, R79, R80, R462): an acknowledge
follows its request, a fall also while RESET_N is low, and in start-up step 4 the requests that waited for a fall are raised; a late one is
counted, captured and told once; a filled domain is usable, PD_TOP's first fill for all but bank 32, its second for that (R473). That a late
acknowledge is told as soon as the top takes records, and CCLK's index, are the model's choice (log 62). -/
def Obligations.HandshakeCommands : Prop :=
  ∀ s : State, s.pins.testMode = false →
    let askMore := fun (x : State) => if x.tet.starting && x.get TET_STARTUP.STEP = 4 then
      { x with pins := { x.pins with pwrReq := x.pins.asks, cclkReq := x.pins.cclkReq || !x.pins.cclkAck } } else x
    (∀ d : Fin 28,
      let up := { s with pins := { s.pins with pwrAck := putBit s.pins.pwrAck d.val true }, tet := { s.tet with late := putBit s.tet.late d.val false } }
      let down := State.each { s with pins := { s.pins with pwrAck := putBit s.pins.pwrAck d.val false },
                                      tet := { s.tet with late := putBit s.tet.late d.val false } } (List.range 8) State.quadFell
      (s.pins.resetN = true → s.pins.pwrReq.getLsbD d.val = true → s.pins.pwrAck.getLsbD d.val = false →
        exec (.pwrAckRise d) s = .next (State.settle up))
      ∧ (s.pins.pwrReq.getLsbD d.val = false → s.pins.pwrAck.getLsbD d.val = true →
        exec (.pwrAckFall d) s = .next (if s.pins.resetN then (askMore down).settle else down))
      ∧ (s.pins.resetN = true → s.powered d.val = true → s.tet.starting = false →
        exec (.storeFillDone d) s = .next (State.settle
          { s with tet := { s.tet with usable := putBit s.tet.usable d.val true,
                                       bank32 := s.tet.bank32 || (d.val == pdTop && s.tet.usable.getLsbD pdTop) } })))
    ∧ (s.pins.resetN = true → s.pins.cclkReq = true → s.pins.cclkAck = false → exec .cclkAckRise s = .next (State.settle
        { s with pins := { s.pins with cclkAck := true }, tet := { s.tet with late := putBit s.tet.late 28 false } }))
    ∧ (s.pins.cclkReq = false → s.pins.cclkAck = true → let u := { s with pins := { s.pins with cclkAck := false } }
        exec .cclkAckFall s = .next (if s.pins.resetN then (askMore u).settle else u))
    ∧ (∀ (i : Fin 29) (excess : Nat), s.pins.resetN = true →
        (if i.val = 28 then s.pins.cclkReq && !s.pins.cclkAck else s.pins.pwrReq.getLsbD i.val && !s.pins.pwrAck.getLsbD i.val) = true →
        s.tet.late.getLsbD i.val = false →
        let u := { s with tet := { s.tet with late := putBit s.tet.late i.val true } }
        let v := (u.bump TET_ACK_CNT.LATE 1).capture (.top 5) 3 1 i.val false
        let info := i.val % 28 + (i.val / 28) * 2 ^ 5 + min excess 65535 * 2 ^ 16
        exec (.pwrAckLate i excess) s = .next (State.settle (if v.topOn then v.raise 281 1 info
          else { v with tet := { v.tet with lateTold := v.tet.lateTold ++ [info] } })))

/-- WAKE_N_FALL, WAKE_N_IDLE_WINDOW and WAKE_TIMER_FIRE (R426, R427): an edge is accepted when MASKED is 0 and GAP has passed, and fires
slot 1, else IGNORED counts it; an idle window raises IDLE, and from IDLE_MAX on masks WAKE_N with EV_WAKE_MASKED; the timer fires slot 3.
The gap is counted in ticks of Tether time, 16/25 of them a microsecond; what stands for an edge and a window is the model's choice (log
63). PWRFAIL_LATCH, HOLDUP_EXPIRY and PWRFAIL_LATCH_CLEAR (R478, R480, R481): the latch sets once and starts hold-up; hold-up expires with
EXPIRED, its event and every channel safe; a clear ends hold-up with its event, or after expiry clears both bits; with PWRFAIL_N low the
latch sets anew. A wake that LATCH held to PD_TOP alone goes on when it is gone (R474). -/
def Obligations.WakeAndPowerFailCommands : Prop :=
  (∀ s : State, s.Works →
     (let u := { s with pins := { s.pins with wakeN := false } }
      (u.on TET_WAKEN_STAT.MASKED = false → (∀ t, s.tet.lastWake = some t → u.get TET_WAKEN_CTRL.GAP * 25 ≤ (u.now - t) * 16) →
         exec .wakeNFall s = .next (State.settle
           (({ u with tet := { u.tet with lastWake := some u.now, windows := u.tet.windows ++ [false] } } : State).fireSlot 1)))
      ∧ (u.on TET_WAKEN_STAT.MASKED = true → exec .wakeNFall s = .next (State.settle (u.bump TET_WAKEN_STAT.IGNORED 1)))
      ∧ (∀ t, s.tet.lastWake = some t → (u.now - t) * 16 < u.get TET_WAKEN_CTRL.GAP * 25 →
         exec .wakeNFall s = .next (State.settle (u.bump TET_WAKEN_STAT.IGNORED 1))))
     ∧ (∀ (seen : Bool) (l : List Bool), s.tet.windows = seen :: l →
         let u := { s with tet := { s.tet with windows := l } }
         let k := min (u.get TET_WAKEN_STAT.IDLE + 1) 15
         let v := u.put TET_WAKEN_STAT.IDLE k
         (seen = true → exec .wakeNIdleWindow s = .next (State.settle (u.put TET_WAKEN_STAT.IDLE 0)))
         ∧ (seen = false → k < v.get TET_WAKEN_CTRL.IDLE_MAX ∨ v.on TET_WAKEN_STAT.MASKED = true → exec .wakeNIdleWindow s = .next v.settle)
         ∧ (seen = false → v.get TET_WAKEN_CTRL.IDLE_MAX ≤ k → v.on TET_WAKEN_STAT.MASKED = false →
             exec .wakeNIdleWindow s = .next (State.settle ((v.put TET_WAKEN_STAT.MASKED 1).raise 279 1 k))))
     ∧ ((s.reg TET_WAKE_EN.adr).getLsbD 3 = false → exec .wakeTimerFire s = .next s.settle)
     ∧ ((s.reg TET_WAKE_EN.adr).getLsbD 3 = true → let u := s.setBit TET_WAKE_CAUSE.adr 3 true
         (s.block = blockActive → exec .wakeTimerFire s = .next u.settle)
         ∧ (s.block = blockPreparing ∨ s.block = blockDeep → (s.reg TET_WAKE_CAUSE.adr).getLsbD 3 = false →
             exec .wakeTimerFire s = .next (State.settle { u with tet := { u.tet with prepCause := putBit u.tet.prepCause 3 true } }))
         ∧ ((s.reg TET_WAKE_CAUSE.adr).getLsbD 3 = true → exec .wakeTimerFire s = .next u.settle)))
  ∧ (∀ s : State, s.Works →
     (let u := { s with pins := { s.pins with pwrfailN := false } }
      (u.on TET_PWRFAIL.LATCH = false → exec .pwrfailLatch s = .next (State.settle u.latchSet))
      ∧ (u.on TET_PWRFAIL.LATCH = true → exec .pwrfailLatch s = .next u.settle))
     ∧ (s.on TET_PWRFAIL.HOLDUP = true →
         let u := ((s.put TET_PWRFAIL.HOLDUP 0).put TET_PWRFAIL.EXPIRED 1).evPwrfail 2
         exec .holdupExpiry s = .next (State.settle
           (({ u with tet := { u.tet with heldSafe := true } } : State).each (List.range 8) State.cutApply).allSafe))
     ∧ (∀ (w : Word32) (high : Bool), bit w 31 = true → let u := s.storeReg TET_PWRFAIL.adr w
         let v := { u with pins := { u.pins with pwrfailN := high } }
         let gone := fun (x : State) => if x.tet.topOnly then State.quadsUp { x with tet := { x.tet with topOnly := false } } else x
         (v.on TET_PWRFAIL.LATCH = true → v.on TET_PWRFAIL.HOLDUP = true → high = true →
           exec (.pwrfailLatchClear w high) s = .next (State.settle (gone (((v.put TET_PWRFAIL.LATCH 0).put TET_PWRFAIL.HOLDUP 0).evPwrfail 3))))
         ∧ (v.on TET_PWRFAIL.LATCH = true → v.on TET_PWRFAIL.HOLDUP = true → high = false →
           exec (.pwrfailLatchClear w high) s = .next (State.settle v.latchSet))
         ∧ (v.on TET_PWRFAIL.LATCH = false → exec (.pwrfailLatchClear w high) s = .next v.settle)
         ∧ (v.on TET_PWRFAIL.LATCH = true → v.on TET_PWRFAIL.HOLDUP = false → high = true →
           exec (.pwrfailLatchClear w high) s = .next (State.settle (gone ((v.put TET_PWRFAIL.LATCH 0).put TET_PWRFAIL.EXPIRED 0))))
         ∧ (v.on TET_PWRFAIL.LATCH = true → v.on TET_PWRFAIL.HOLDUP = false → high = false →
           exec (.pwrfailLatchClear w high) s = .next (State.settle ((v.put TET_PWRFAIL.LATCH 0).put TET_PWRFAIL.EXPIRED 0).latchSet))))

/-- DEEP, WAKE and QUAD_ON (R465, R469, R471): DEEP starts an entry while the block is ACTIVE and is ignored in any other state; WAKE is
remembered while an entry runs or in DEEP, also when it comes with DEEP; ON wakes a quad that is off, and makes one in QUAD_IDLE active.
QUAD_IDLE_ENTRY, QUAD_OFF_ENTRY and QUAD_WAKE (R463, R464, R466): an idle quad that its policy lets idle is QUAD_IDLE; one that may be
switched off loses both domains, its pads safe; one that is off and wanted is powered again. R463: on its return to ACTIVE each channel of a
quad begins its drift period anew: no burst of the old one counts, and PHYF is 0 (R468). -/
def Obligations.PowerStateCommands : Prop :=
  (∀ (s : State) (w : Word32), s.Works →
     (let u := s.storeReg TET_PWR_CTRL.adr w
      (bit w 31 = true → u.block = blockActive → exec (.deep w) s = .next (State.settle
         (({ u with tet := { u.tet with sleepStep := 1, prepCause := 0, prepWake := bit w 30 } } : State).put TET_PWR_STAT.BLOCK blockPreparing)))
      ∧ (bit w 31 = true → u.block ≠ blockActive → bit w 30 = false → exec (.deep w) s = .next u.settle)
      ∧ (bit w 31 = true → bit w 30 = true → u.block = blockPreparing ∨ u.block = blockDeep → exec (.deep w) s = .next (State.settle
         { u with tet := { u.tet with prepWake := true } }))
      ∧ (bit w 30 = true → u.block ≠ blockPreparing → u.block ≠ blockDeep → exec (.wake w) s = .next u.settle)
      ∧ (bit w 30 = true → u.block = blockPreparing ∨ u.block = blockDeep → exec (.wake w) s = .next (State.settle
         { u with tet := { u.tet with prepWake := true } })))
     ∧ (∀ q : Fin 8, let u := s.storeReg (TET_QPOL.adr q.val) w
         (bit w 31 = true → u.topOn = true → u.halted = false → u.tet.sleepStep < 5 → u.tet.topOnly = false → u.qstate q.val = 2 →
           u.on (TET_QPOL.ON q.val) = true → exec (.quadOn q w) s = .next (State.settle
             ((((((u.powerUp (pdQ q.val)).powerUp (pdP q.val)).setQstate q.val 3).put (ZQ_STAT.BUSY q.val) 1).modQuad q.val
               fun x => { x with waking := 1, relocking := true, calDone := false }).quadActive q.val)))
         ∧ (bit w 31 = true → u.qstate q.val = 1 → u.on (TET_QPOL.ON q.val) = true → exec (.quadOn q w) s = .next (State.settle
             ((u.setQstate q.val 0).each (quadChans q.val) State.driftRestart)))))
  ∧ (∀ (s : State) (q : Fin 8), s.Works →
     (s.topOn = true → s.qstate q.val = 0 → s.on (TET_QPOL.IDLE_EN q.val) = true → s.on (TET_QPOL.ON q.val) = false → s.quadAsleep q.val = true →
       exec (.quadIdleEntry q) s = .next (State.settle (s.setQstate q.val 1)))
     ∧ (s.halted = false → s.qstate q.val = 1 → s.on (TET_QPOL.OFF_EN q.val) = true → s.on (TET_QPOL.ON q.val) = false → s.quadAsleep q.val = true →
       let u := s.each (quadChans q.val) State.enterSafe
       let v := ((u.put (PHY_STAT.LOCK q.val) 0).put (PHY_STAT.STBY_LOCK q.val) 0).modQuad q.val
         fun x => { x with calDone := false, locked := 0, relocking := false, waking := 0 }
       exec (.quadOffEntry q) s = .next (State.settle ((((v.release (pdP q.val)).release (pdQ q.val)).setQstate q.val 3).quadFell q.val)))
     ∧ (s.topOn = true → s.halted = false → s.tet.sleepStep < 5 → s.qstate q.val = 2 → s.quadWanted q.val = true →
       exec (.quadWake q) s = .next (State.settle
         (((((s.powerUp (pdQ q.val)).powerUp (pdP q.val)).setQstate q.val 3).put (ZQ_STAT.BUSY q.val) 1).modQuad q.val
           fun x => { x with waking := 1, relocking := true, calDone := false }))))
  ∧ (∀ (s : State) (q n : Nat), q < 8 → n < 32 → let u := s.quadBack q
     u.qstate q = 0 ∧ (chanQuad n = q → (u.chanOf n).burst = false ∧ u.get (CH_DRIFT_STAT.PHYF n) = 0)
     ∧ (chanQuad n ≠ q → u.chanOf n = s.chanOf n))

/-- DEEP_ENTRY_STEP, DEEP_EVENT_DRAIN_TIMEOUT and DEEP_WAKE (R469 to R474, Tables 14.4 to 14.6): a step ends with its effect, waits for what
it needs, or the entry is abandoned for a wake request or a failing condition; the accumulators and dirty lines leave in step 2, the rings'
records in step 4, the quads and every domain but PD_TOP after it; the last step lowers PWR_REQ[0] and CCLK_REQ; a wake brings PD_TOP and
CCLK back, and the quads but under LATCH. TET_TIME_LO_READ (R16): the read of the low word holds the high word of that moment in
TET_TIME_HI. SLICE_PAIR_POWER and SLICE_PAIR_RELEASE (R467): a wanted pair is powered while a job waits; a pair kept on by nothing is
released. -/
def Obligations.DeepAndSlicePairCommands : Prop :=
  (∀ s : State, s.Works →
     (s.tet.sleepStep ≠ 0 → s.wakeAsked = true → exec .deepEntryStep s = .next (State.settle (s.sleepAbandon 9)))
     ∧ (∀ r, 2 ≤ s.tet.sleepStep → s.wakeAsked = false → s.sleepBad = some r →
         exec .deepEntryStep s = .next (State.settle (s.sleepAbandon r)))
     ∧ (s.tet.sleepStep = 1 → s.wakeAsked = false → exec .deepEntryStep s = .next (State.settle { s with tet := { s.tet with sleepStep := 2 } }))
     ∧ (s.wakeAsked = false → s.sleepBad = none →
         let goto := fun (k : Nat) => { s with tet := { s.tet with sleepStep := k } }
         let left := fun (r : Nat) => (s.ringOf r).queue = [] ∧ (s.ringOf r).late = [] ∧ (s.ringOf r).out = []
         let clean := (∀ a ∈ s.accs, a.chip = false) ∧ s.dirtyLines = [] ∧ s.rlh.wbq = [] ∧ s.rlh.pooled = [] ∧ s.ready = [] ∧ s.flying = []
         (s.tet.sleepStep = 2 → exec .deepEntryStep s = .next (State.settle
             (let u := (goto 3).spillAll
              u.dirtyLines.foldl (fun x l => if x.wbOut l then x else x.writeBack l) u)))
         ∧ (s.tet.sleepStep = 3 → clean → exec .deepEntryStep s = .next (State.settle (goto 4)))
         ∧ (s.tet.sleepStep = 3 → ¬ clean → exec .deepEntryStep s = .next s.settle)
         ∧ (s.tet.sleepStep = 4 → left 0 → left 1 → exec .deepEntryStep s = .next (State.settle
             (let u := (goto 5).each ((List.range 8).filter (fun q => s.qstate q != 2)) fun x q =>
                (x.quadDown q).modQuad q fun y => { y with deepDown := y.deepDown || (x.qstate q != 3 || (x.quadOf q).waking != 0) }
              u.each (List.range 28) fun x d => if d = pdTop then x else x.release d)))
         ∧ (s.tet.sleepStep = 4 → ¬ (left 0 ∧ left 1) → exec .deepEntryStep s = .next s.settle)
         ∧ (s.tet.sleepStep = 5 → (∀ d, d < 28 → d ≠ pdTop → s.pins.pwrAck.getLsbD d = false) → exec .deepEntryStep s = .next (State.settle (goto 6)))
         ∧ (∀ d, s.tet.sleepStep = 5 → d < 28 → d ≠ pdTop → s.pins.pwrAck.getLsbD d = true → exec .deepEntryStep s = .next s.settle))
     ∧ (s.tet.sleepStep = 6 → s.wakeAsked = false → s.sleepBad = none →
         let u := State.dropCounters { s with tet := { s.tet with sleepStep := 0 } }
         let v := { u with rlh := {}, tet := { u.tet with bank32 := false }, pins := { u.pins with cclkReq := false } }
         exec .deepEntryStep s = .next (State.settle (((v.setReq pdTop false).put TET_PWR_STAT.BLOCK blockDeep).put TET_SLEEP_STAT.REASON 0)))
     ∧ (s.tet.sleepStep = 4 → exec .deepEventDrainTimeout s = .next (State.settle (s.sleepAbandon 6)))
     ∧ (s.block = blockDeep → s.halted = false → s.wakeAsked = true → s.pins.pwrAck.getLsbD pdTop = false → s.pins.cclkAck = false →
         let u := { s with tet := { s.tet with prepCause := 0, prepWake := false }, pins := { s.pins with cclkReq := true } }
         let v := (u.powerUp pdTop).put TET_PWR_STAT.BLOCK blockWaking
         let x := if v.on TET_PWRFAIL.LATCH then { v with tet := { v.tet with topOnly := true } } else v.quadsUp
         exec (.deepWake none) s = .next x.settle
         ∧ ∀ row, exec (.deepWake (some row)) s = .next (State.settle ((x.capture (.top 5) 2 3 row.toNat false).fatal fatalRetention))))
  ∧ (∀ s : State, s.Works →
     (let u := s.setReg TET_TIME_HI.adr ((s.tet.time >>> 32).setWidth 32)
      exec .tetTimeLoRead s = .next (State.settle (u.respond (s.readReg TET_TIME_LO.adr).1 false)))
     ∧ (∀ b : Fin 9, s.topOn = true → s.halted = false → s.on TET_PWR_CTRL.B_GATE = true →
         -- the row names no pair: the operand does (log 25)
         (s.pairNeeded b.val = true → s.tet.sleepStep < 5 → s.jobs.any (fun j => !j.dead) = true →
           exec (.slicePairPower b) s = .next (State.settle (s.powerUp (pdB b.val))))
         ∧ (s.pairsKept.contains b.val = false →
             ([2 * b.val, 2 * b.val + 1].any fun i => (s.sliceOf i).job.isSome || (s.sliceOf i).st == sliceTesting) = false →
             s.pins.pwrReq.getLsbD (pdB b.val) = true →
           exec (.slicePairRelease b) s = .next (State.settle (s.setReq (pdB b.val) false)))))

/-! ### The PHY -/

/-- PLL_LOCK_LOSS, PLL_RELOCK and PLL_LOCKED (R99, R452, R453): with a locked standby the quad switches over with a capture, the event of
a spare taken and refresh training, and a burst that the loss cuts is repeated; without one it is fenced, its pads safe and its PHY domain
released but for a halted top (Table 2.13); a third loss retires the PLL with its events. The lost PLL relocks as the standby, or is a spare
lost and retired. In step 3 lock begins the calibration. When EV_PLL_SWITCH is raised is the model's choice (logs 56 and 91). -/
def Obligations.PllCommands : Prop :=
  ∀ (s : State) (q : Fin 8), s.Works →
    (let old := (s.quadOf q.val).pll
     let n := (s.quadOf q.val).losses.getD old 0 + 1
     let u := (s.switchTold q.val).modQuad q.val fun x => { x with
       losses := x.losses.set old n, locked := putBit x.locked old false,
       retired := if decide (n ≥ 3) then putBit x.retired old true else x.retired, relocking := !decide (n ≥ 3), lostPll := old }
     s.powered (pdP q.val) = true → s.on (PHY_STAT.LOCK q.val) = true →
       (s.on (PHY_STAT.STBY_LOCK q.val) = true →
         let v := (u.fault (.quad q) 0x11 2 old).modQuad q.val fun x => { x with pll := 1 - old, switching := true }
         let x := (v.put (PHY_STAT.STBY_LOCK q.val) 0).evSpareTaken 4 q.val (1 - old)
         let y := if n < 3 then x else (x.evQuad q.val 2 2 ((1 - old) + n % 256 * 4)).evSpareExhausted 4 q.val
         exec (.pllLockLoss q) s = .next (State.settle
           ((((y.each (quadChans q.val) State.refresh).updQuadRec q.val).switchEnd q.val).each (quadChans q.val) State.burstCut)))
       ∧ (s.on (PHY_STAT.STBY_LOCK q.val) = false →
         let v := ((u.put (PHY_STAT.LOCK q.val) 0).fault (.quad q) 0x12 2 old).fenceQuad q.val
         let x := v.each (quadChans q.val) State.enterSafe
         exec (.pllLockLoss q) s = .next (State.settle (if x.halted then x else x.setReq (pdP q.val) false))))
    ∧ (∀ ok : Bool, (s.quadOf q.val).relocking = true → s.powered (pdP q.val) = true →
        s.on (PHY_STAT.LOCK q.val) = true →
        let x := s.quadOf q.val
        let u := s.modQuad q.val fun y => { y with relocking := false, locked := putBit y.locked y.lostPll ok,
                                                   retired := if ok then y.retired else putBit y.retired y.lostPll true }
        let v := (u.put (PHY_STAT.STBY_LOCK q.val) ok.toNat).evQuad q.val 2 2 (x.pll + ok.toNat * 2 + x.losses.getD x.lostPll 0 % 256 * 4)
        exec (.pllRelock q ok) s = .next (State.settle (if ok then v else v.evSpareExhausted 4 q.val)))
    ∧ ((s.quadOf q.val).apply = 3 → s.powered (pdP q.val) = true → exec (.pllLocked q) s = .next (State.settle
        (((s.pllLock q.val).put (ZQ_STAT.BUSY q.val) 1).modQuad q.val fun x => { x with apply := 4 })))
    ∧ ((s.quadOf q.val).apply = 0 → (s.quadOf q.val).waking ≠ 0 → (s.quadOf q.val).relocking = true → s.powered (pdP q.val) = true →
        exec (.pllLocked q) s = .next (State.settle (s.pllLock q.val)))

/-- APPLY, APPLY_DRAINED, APPLY_PLL_LOCK_TIMEOUT and APPLY_HOLD_EXPIRY (R99 to R101, Table 3.6): a write starts the step unless one runs;
when the quad is quiet the first failing check ends it, or the stored values come into force; PLLs that do not lock end it with 0x08, every
channel untrained; after the 10 µs training begins. ZQ_START, LONG_CALIBRATION and SHORT_CALIBRATION (R107 to R109): START sets BUSY; a long
calibration's codes come into force, after a START and outside a wake with the pads handed back; in step 4 of an APPLY it ends the step with
0x09 beyond a code limit, else step 5 follows; a short one moves each code by at most one step, and a channel takes them when its CE_N
inputs are high. That ZQ_STAT shows the new codes at once, and that one start stays wanted while another is, are the model's choices (logs
77 and 27). -/
def Obligations.ApplyAndCalibration : Prop :=
  (∀ (s : State) (q : Fin 8), s.Works →
     (∀ w : Word32, s.answers (PHY_CTRL.adr q.val) = true → bit w 0 = true → let u := s.storeReg (PHY_CTRL.adr q.val) w
       (u.on (PHY_STAT.APPLY_BUSY q.val) = false → let v := if u.qstate q.val = 1 then u.quadBack q.val else u
         exec (.apply q w) s = .next (State.settle
           ((v.put (PHY_STAT.APPLY_BUSY q.val) 1).modQuad q.val fun x => { x with apply := 1, applyFail := 0 })))
       ∧ (u.on (PHY_STAT.APPLY_BUSY q.val) = true → exec (.apply q w) s = .next u.settle))
     ∧ ((s.quadOf q.val).apply = 1 → s.quadQuiet q.val = true →
         (∀ r c, s.applyCheck q.val = some (r, c) → exec (.applyDrained q) s = .next (State.settle
           ((((s.put (PHY_STAT.REASON q.val) r).put (PHY_STAT.CHAN q.val) c).put (PHY_STAT.APPLY_BUSY q.val) 0).modQuad q.val
             fun x => { x with apply := 0, applyHeld := false, applyFail := 0 })))
         ∧ (s.applyCheck q.val = none → exec (.applyDrained q) s = .next (State.settle (s.applyForce q.val))))
     ∧ ((s.quadOf q.val).apply = 3 → exec (.applyPllLockTimeout q) s = .next (State.settle (s.applyDead q.val 8)))
     ∧ ((s.quadOf q.val).applyHeld = true → exec (.applyHoldExpiry q) s = .next (State.settle
         ((s.modQuad q.val fun x => { x with applyHeld := false }).applyTrain q.val))))
  ∧ (∀ (s : State) (q : Fin 8), s.Works →
     (∀ w : Word32, s.answers (ZQ_CTRL.adr q.val) = true → bit w 0 = true → exec (.zqStart q w) s = .next (State.settle
       (((s.storeReg (ZQ_CTRL.adr q.val) w).put (ZQ_STAT.BUSY q.val) 1).modQuad q.val fun x => { x with zqWanted := true })))
     ∧ (∀ r : CalReport,
         ((s.quadOf q.val).apply = 0 → (s.quadOf q.val).waking = 0 → (s.quadOf q.val).zqRuns = true → s.powered (pdP q.val) = true →
           exec (.longCalibration q r) s = .next (State.settle ((s.calCodes q.val r).each (quadChans q.val) State.leaveSafe)))
         ∧ ((s.quadOf q.val).apply = 0 → (s.quadOf q.val).waking ≠ 0 → s.powered (pdP q.val) = true →
           exec (.longCalibration q r) s = .next (State.settle (s.calCodes q.val r)))
         ∧ ((s.quadOf q.val).apply = 4 →
           exec (.longCalibration q r) s = .next (State.settle
             (let u := s.calCodes q.val r
              if r.puOver || r.pdOver || r.odtOver then u.applyDead q.val 9
              else ((u.modQuad q.val fun x => { x with apply := 5 }).each (quadChans q.val) fun x n =>
                (x.modChan n fun c => { c with applyBad := false }).leaveSafe n).applyTrain q.val)))
         ∧ (s.on (ZQ_CTRL.PERIOD q.val) = true → s.powered (pdP q.val) = true → (s.quadOf q.val).calDone = true → s.qstate q.val = 0 →
             s.on (ZQ_STAT.BUSY q.val) = false → r.puOver = false → r.pdOver = false → r.odtOver = false →
             let toward := fun (now want : Nat) => if now < want then now + 1 else if want < now then now - 1 else now
             exec (.shortCalibration q r) s = .next (State.settle
               (let u := s.put (ZQ_STAT.PU_CODE q.val) (toward (s.get (ZQ_STAT.PU_CODE q.val)) r.pu.toNat)
                let v := u.put (ZQ_STAT.PD_CODE q.val) (toward (s.get (ZQ_STAT.PD_CODE q.val)) r.pd.toNat)
                let x := v.put (ZQ_STAT.ODT_CODE q.val) (toward (s.get (ZQ_STAT.ODT_CODE q.val)) r.odt.toNat)
                let y := x.each (quadChans q.val) fun z n => (z.modChan n fun c => { c with zqDue := c.zqDue <|> some z.us }).zqLook n
                y.put (ZQ_STAT.FAIL q.val) 0)))))

/-- R100: while APPLY_BUSY is 1 a write of 1 to APPLY is ignored: it does what the same write with 0 there does. -/
def Obligations.ApplyWhileBusyIsIgnored : Prop :=
  ∀ (s : State) (q : Fin 8) (w : Word32), s.Works → s.on (PHY_STAT.APPLY_BUSY q.val) = true →
    exec (.apply q w) s = exec (.apply q (w &&& 0xFFFFFFFE#32)) s

/-- TRAIN_START and TRAINING_DONE (R113 to R118): a start that may run sets BUSY, one that may not sets FAIL with step 0, and one while a
run is under way that could itself run changes nothing (the model's choice, log 77); the end clears BUSY, counts, and records PASS, FAIL,
the failed step and bits and TRAINED. DRIFT_PERIOD_END, TRACKING_BURST and SAFE_STATE_RELEASE (R120 to R122, R133): a period without a read
burst counts in MISSED and clears PHYF; a tracking burst that may run counts as the period's; pads are taken back with WP_N high once no
cause holds. -/
def Obligations.TrainingAndDrift : Prop :=
  (∀ (s : State) (n : Fin 32), s.Works →
     (∀ w : Word32, s.answers (CH_TRAIN_CTRL.adr n.val) = true → bit w 0 = true → let u := s.storeReg (CH_TRAIN_CTRL.adr n.val) w
       (u.trainOk n.val = true → (u.chanOf n.val).training = 0 → exec (.trainStart n w) s = .next (State.settle
         (let v := if u.qstate (chanQuad n.val) = 1 then u.quadBack (chanQuad n.val) else u
          (v.put (CH_TRAIN_STAT.BUSY n.val) 1).modChan n.val fun c => { c with training := 1 })))
       ∧ (u.trainOk n.val = true → (u.chanOf n.val).training ≠ 0 → exec (.trainStart n w) s = .next u.settle)
       ∧ (u.trainOk n.val = false → exec (.trainStart n w) s = .next (State.settle
         ((u.put (CH_TRAIN_STAT.FAIL n.val) 1).put (CH_TRAIN_STAT.FAIL_STEP n.val) 0))))
     ∧ (∀ (r : TrainReport) (bad : Option (Nat × Nat)) (u : State), (s.chanOf n.val).training = 1 → s.trainClear n.val = true →
         (s.trainStop n.val).trainSteps n.val false r = (bad, u) →
         let v := ((u.modChan n.val fun c => { c with training := 0 }).put (CH_TRAIN_STAT.BUSY n.val) 0).bump (CH_TRAIN_STAT.COUNT n.val) 1
         let x := (v.put (CH_TRAIN_STAT.PASS n.val) bad.isNone.toNat).put (CH_TRAIN_STAT.FAIL n.val) bad.isSome.toNat
         let y := (x.put (CH_TRAIN_STAT.FAIL_STEP n.val) (bad.getD (0, 0)).1).put (CH_TRAIN_STAT.FAIL_BITS n.val) (bad.getD (0, 0)).2
         let z := y.put (CH_MODE_STAT.TRAINED n.val) bad.isNone.toNat
         (bad = none → exec (.trainingDone n r) s = .next (State.settle
           ((((z.put (CH_DRIFT_STAT.MOVED n.val) 0).modChan n.val fun c => { c with moves := List.replicate 8 0 }).switchEnd (chanQuad n.val)).applyFinish (chanQuad n.val))))
         ∧ (bad ≠ none → exec (.trainingDone n r) s = .next (State.settle
           (((z.leftUntrained n.val (z.get (PHY_STAT.REASON (chanQuad n.val))) false).switchEnd (chanQuad n.val)).applyFinish (chanQuad n.val))))))
  ∧ (∀ (s : State) (n : Fin 32), s.Works →
     (∀ r : DriftReport, s.get (CH_DRIFT_CTRL.PERIOD n.val) ≠ 0 → s.ddr n.val = true → s.on (CH_MODE_STAT.TRAINED n.val) = true →
         s.qstate (chanQuad n.val) = 0 → (s.chanOf n.val).burst = false →
         let u := s.bump (CH_DRIFT_STAT.MISSED n.val) 1
         exec (.driftPeriodEnd n r) s = .next (State.settle
           (((u.put (CH_DRIFT_STAT.MOVED n.val) (((u.chanOf n.val).moves.map Int.natAbs).foldl max 0)).put (CH_DRIFT_STAT.PHYF n.val) 0).modChan
             n.val fun c => { c with burst := false })))
     ∧ (∀ t : Fin 8, s.mayTrack n.val t.val = true →
         exec (.trackingBurst n t) s = .next (State.settle
           ((s.modChan n.val fun c => { c with burst := true }).startRoutine (trainOp n.val (rtTrackBurst, t.val, 0)))))
     ∧ (s.safeCause n.val = false → (s.quadOf (chanQuad n.val)).calDone = true → s.on (ZQ_STAT.BUSY (chanQuad n.val)) = false →
         s.on (CH_MODE_STAT.SAFE n.val) = true →
         exec (.safeStateRelease n) s = .next (State.settle
           ((s.modChan n.val fun c => { c with pads := { c.pads with wpN := true, ceN := 0xFF } }).put (CH_MODE_STAT.SAFE n.val) 0))))

/-- RB_N_TRANSITION and RB_CHATTER_WINDOW (R126, R127, R144): an accepted level enters DEB and is counted; busy to ready of an input
that is honoured wakes the routines parked on its target's LUNs; more transitions than CHATTER counted in a window stop the input with its
event, and the next window counts anew. -/
def Obligations.ReadyBusyCommands : Prop :=
  ∀ (s : State) (n : Fin 32) (t : Fin 8), s.Works →
    (let was := s.on (rbDeb n.val t.val)
     let u := ((s.put (rbDeb n.val t.val) (!was).toNat).put (rbRaw n.val t.val) (!was).toNat).modChan n.val fun c =>
       { c with rbCount := tabMod (fun _ => 0) c.rbCount t.val (· + 1) }
     (was = true → exec (.rbNTransition n t) s = .next u.settle)
     ∧ (was = false → u.rbHonoured n.val t.val = true →
        exec (.rbNTransition n t) s = .next (State.settle (u.each (targetLuns n.val t.val) State.wakePark)))
     ∧ (was = false → u.rbHonoured n.val t.val = false → exec (.rbNTransition n t) s = .next u.settle))
    ∧ (∀ (q : Fin 8) (c : Fin 4), chanAt q c = n →
       let count := tabGet (fun _ => 0) (s.chanOf n.val).rbCount t.val
       let u := s.modChan n.val fun c => { c with rbCount := tabPut (fun _ => 0) c.rbCount t.val 0 }
       (s.get (CH_RB_CTRL.CHATTER n.val) < count → u.rbHonoured n.val t.val = true → exec (.rbChatterWindow q c t) s = .next (State.settle
         (((u.put (rbStuck n.val t.val) 1).fault (.chan n) 3 1 (t.val + 8)).evRbStuck n.val 2 t.val)))
       ∧ (count ≤ s.get (CH_RB_CTRL.CHATTER n.val) → exec (.rbChatterWindow q c t) s = .next u.settle))

/-! ### Submission, intake, completion, events -/

/-- The six rows of the Push port are one port (Table 2.4): the region is the first beat's, whichever row names the write. INLINE_PUSH and
PUSH_RESERVED_WRITE (R57, R204, R206, Table 6.6): a whole inline write that fits enters its SQ's slot buffer and moves the tail; one to a
filled buffer is held; one that breaks a rule is discarded whole with its reason: 0x01 for its beats, 0x02 for strobes or its place in the
slot, 0x05 for an SQ that is not enabled or not native, 0x07 when it does not fit; a reserved address with 0x03. The order in which the
reasons are judged is the model's choice (log 31). -/
def Obligations.PushWrites : Prop :=
  (∀ (s : State) (l : List Beat),
     exec (.sqTailDoorbell l) s = exec (.inlinePush l) s ∧ exec (.cqHeadDoorbell l) s = exec (.inlinePush l) s
     ∧ exec (.evHeadDoorbell l) s = exec (.inlinePush l) s ∧ exec (.doorbellShadowWrite l) s = exec (.inlinePush l) s
     ∧ exec (.pushReservedWrite l) s = exec (.inlinePush l) s)
  ∧ (∀ (s : State) (b : Beat) (l : List Beat), s.Works → s.isReady = true → s.freset.busy = false → s.tet.waiting = none → s.toShadow = false →
     let a := b.addr.toNat
     let q := a / 4
     let n := s.sqN q
     let k := (b :: l).length
     let gone := fun (why : Nat) (q : Option Nat) =>
       exec (.inlinePush (b :: l)) s = .next (State.settle (State.sawWork (s.pushDiscard why a q)))
     let full := ∀ x ∈ b :: l, x.strb = BitVec.allOnes 64
     (pushRegion a = .inline → wholeWrite (b :: l) = false ∨ 4 < k → gone 1 (some q))
     ∧ (pushRegion a = .inline → wholeWrite (b :: l) = true → k ≤ 4 → a % 4 ≠ 0 ∨ ¬ full → gone 2 (some q))
     ∧ (pushRegion a = .inline → wholeWrite (b :: l) = true → k ≤ 4 → a % 4 = 0 → full →
         s.on (SQ_STAT.ENABLED q) = false ∨ s.native q = false → gone 5 (some q))
     ∧ (pushRegion a = .inline → wholeWrite (b :: l) = true → k ≤ 4 → a % 4 = 0 → full →
         s.on (SQ_STAT.ENABLED q) = true → s.native q = true →
       ((s.sqOf q).slot = [] → k ≤ n - ixCount n (s.sqHead q) (s.sqTail q) →
           exec (.inlinePush (b :: l)) s = .next (State.settle (State.sawWork
             ((s.modSq q fun x => { x with slot := (b :: l).map (·.data) }).put (SQ_TAIL.INDEX q) (ixAdd n (s.sqTail q) k)))))
       ∧ ((s.sqOf q).slot = [] → n - ixCount n (s.sqHead q) (s.sqTail q) < k → gone 7 (some q))
       ∧ ((s.sqOf q).slot ≠ [] →
           exec (.inlinePush (b :: l)) s = .next (State.settle { s with tet := { s.tet with waiting := some (b :: l) } })))
     ∧ (pushRegion a = .reserved →
         (wholeWrite (b :: l) = true → exec (.pushReservedWrite (b :: l)) s = .next (State.settle (State.sawWork (s.pushDiscard 3 a none))))
         ∧ (wholeWrite (b :: l) = false → exec (.pushReservedWrite (b :: l)) s = .next (State.settle (State.sawWork (s.pushDiscard 1 a none))))))

/-- SQ_TAIL_DOORBELL, CQ_HEAD_DOORBELL and EV_HEAD_DOORBELL (R56, R57, R209, R213, R214, R417, R423, Tables 6.6 and 6.7): a valid value
becomes the index, a head also ends its queue's waits and a ring's halt; an invalid one changes no index and raises EV_DOORBELL_BAD with
its reason: 0x04 for a queue that is not enabled, 0x01 for bits [31:17], 0x02 for POS, 0x03 for a count past the free space or the tail.
A beat's registers are taken in ascending order. A write that breaks R54 to R56 is discarded whole, so is one with a partly enabled
group, one beyond the two ring heads, and one that rings an enabled native SQ. The order of the reasons, and that a ring's head is judged
without an enabled condition, are the model's choices (log 31). -/
def Obligations.DoorbellWrites : Prop :=
  (∀ (x : State) (a q v : Nat),
    let n := x.sqN q
    let why := if x.on (SQ_STAT.ENABLED q) = false then 4 else if 2 ^ 17 ≤ v then 1 else if n ≤ v % 65536 then 2
      else if n - ixCount n (x.sqHead q) (x.sqTail q) < ixCount n (x.sqTail q) v then 3 else 0
    x.sqDoorbell a q v = if why = 0 then x.put (SQ_TAIL.INDEX q) v
      else (x.bump (SQ_CNT.BAD q) 1).raise 261 0 (why + a * 2 ^ 8 + q * 2 ^ 18 + v % 2 ^ 17 * 2 ^ 40))
  ∧ (∀ (x : State) (a c v : Nat),
    let n := x.cqN c
    let why := if x.cqEnabled c = false then 4 else if 2 ^ 17 ≤ v then 1 else if n ≤ v % 65536 then 2
      else if x.cqCount c < ixCount n (x.cqHead c) v then 3 else 0
    let u := x.put (CQ_HEAD.INDEX c) v
    x.cqDoorbell a c v = if why = 0 then u.modCq c fun q => { q with posted := false, retry := false, stallTold := q.stallTold && u.cqFull c }
      else x.raise 261 0 (why + a * 2 ^ 8 + 0x7F * 2 ^ 18 + 1 * 2 ^ 25 + v % 2 ^ 17 * 2 ^ 40))
  ∧ (∀ (x : State) (a r v : Nat),
    let n := x.evN r
    let h := x.get (evF r EV_HEAD.INDEX)
    let why := if 2 ^ 17 ≤ v then 1 else if n ≤ v % 65536 then 2
      else if ixCount n h (x.get (evF r EV_TAIL.INDEX)) < ixCount n h v then 3 else 0
    let u := x.put (evF r EV_HEAD.INDEX) v
    x.evDoorbell a r v = if why = 0 then u.modRing r fun y => { y with halted := false, holdoff := if v = h then y.holdoff else u.get (evF r EV_IRQ.HOLDOFF) != 0 }
      else x.raise 261 0 (why + a * 2 ^ 8 + 0x7F * 2 ^ 18 + (2 + r) * 2 ^ 25 + v % 2 ^ 17 * 2 ^ 40))
  ∧ ∀ (s : State) (b : Beat) (l : List Beat), s.Works → s.isReady = true → s.freset.busy = false → s.tet.waiting = none → s.toShadow = false →
    let a := b.addr.toNat
    let sq := fun (k : Nat) => 16 * (a - 640) + k
    let beyond := pushRegion a = .evHead ∧ ∃ k, 2 ≤ k ∧ k < 16 ∧ grpStrb b k ≠ 0
    ∀ c ∈ [Instr.sqTailDoorbell, Instr.cqHeadDoorbell, Instr.evHeadDoorbell],
      let does := fun (x : State) => exec (c (b :: l)) s = .next (State.settle x.sawWork)
      (pushRegion a = .sqTail ∨ pushRegion a = .cqHead ∨ pushRegion a = .evHead →
        (wholeWrite (b :: l) = false ∨ l ≠ [] → does (s.pushDiscard 1 a none))
        ∧ (b.last = true → l = [] → beyond → does (s.pushDiscard 3 a none))
        ∧ (∀ k ks, b.last = true → l = [] → ¬ beyond → partly b = k :: ks →
            does (s.pushDiscard 4 a (if pushRegion a = .sqTail then some (sq k) else none))))
      ∧ (b.last = true → l = [] → partly b = [] →
        (pushRegion a = .sqTail →
          (∀ k, (rung b).find? (fun k => s.on (SQ_STAT.ENABLED (sq k)) && s.native (sq k)) = some k → does (s.pushDiscard 6 a (some (sq k))))
          ∧ ((∀ k ∈ rung b, s.on (SQ_STAT.ENABLED (sq k)) = true → s.native (sq k) = false) →
              does ((rung b).foldl (fun x k => x.sqDoorbell a (sq k) (grpVal b k)) s)))
        ∧ (pushRegion a = .cqHead → does ((rung b).foldl (fun x k => x.cqDoorbell a (16 * (a - 512) + k) (grpVal b k)) s))
        ∧ (pushRegion a = .evHead → ¬ beyond → does ((rung b).foldl (fun x k => x.evDoorbell a k (grpVal b k)) s)))

/-- DOORBELL_SHADOW_WRITE and DOORBELL_SHADOW_DRAIN (R32, R58 to R60): while the top is off a write goes whole into the shadow, the first
one as wake source 0, and is held when 64 beats would not hold it (a write of more than 64 beats is held for good: the model's choice,
log 87); later the writes are taken in oldest first, each with its effect, until the shadow is empty or a write must wait. Before READY a
write is discarded. -/
def Obligations.ShadowCommands : Prop :=
  (∀ (s : State) (l : List Beat), s.Works →
    (s.isReady = false → exec (.doorbellShadowWrite l) s = .next s.settle)
    ∧ (s.isReady = true → s.freset.busy = false → s.tet.waiting = none → s.topOn = false →
        (s.shadowBeats + l.length ≤ 64 → s.tet.shadow ≠ [] → exec (.doorbellShadowWrite l) s = .next (State.settle (State.sawWork
          { s with tet := { s.tet with shadow := s.tet.shadow ++ [l] } })))
        ∧ (s.shadowBeats + l.length ≤ 64 → s.tet.shadow = [] → exec (.doorbellShadowWrite l) s = .next (State.settle (State.sawWork
          { s.fireSlot 0 with tet := { (s.fireSlot 0).tet with shadow := (s.fireSlot 0).tet.shadow ++ [l] } })))
        ∧ (64 < s.shadowBeats + l.length → exec (.doorbellShadowWrite l) s = .next (State.settle { s with tet := { s.tet with waiting := some l } }))))
  ∧ (∀ s : State, s.TopWorks → s.tet.sleepStep < 2 → s.freset.busy = false →
      exec .doorbellShadowDrain s = .next (State.settle (State.drainShadow 65 s).pushRetry))
  ∧ (∀ (u : State) (n : Nat),
      (u.tet.shadow = [] → State.drainShadow n u = u)
      ∧ (∀ l r t, u.tet.shadow = l :: r → u.takeWrite l = some t →
          State.drainShadow (n + 1) u = State.drainShadow n { t with tet := { t.tet with shadow := r } })
      ∧ (∀ l r, u.tet.shadow = l :: r → u.takeWrite l = none → State.drainShadow (n + 1) u = u))

/-- RING_FETCH and STALE_REFETCH (R209 to R212): a fetch asks for up to 16 entries on stream 34 of port 0 and moves the fetch index; a
stale head is refetched up to 8 times, and then completes ST_STALE_ENTRY with the next index and host tag 0xFFFF. -/
def Obligations.FetchCommands : Prop :=
  ∀ (s : State) (q : Fin 128), s.Works → s.engineOn = true →
    (let k := s.fetchLen q.val
     let i := (s.sqOf q.val).fetchIdx
     s.on (SQ_STAT.ENABLED q.val) = true → s.native q.val = false → k ≠ 0 →
       k ≤ 16 ∧ exec (.ringFetch q) s = .next (State.settle
         ((s.modSq q.val fun x => { x with fetchIdx := ixAdd (s.sqN q.val) i k, fetching := x.fetching + k }).ask
           (spoolRead 0 34 (s.sqAddr q.val i) (64 * k) (.fetch q.val i k)))))
    ∧ (∀ (t : Fin 4096) (i : Nat), s.staleHead q.val = some i → s.refetchOut q.val = false →
        ((s.sqOf q.val).tries < 8 → exec (.staleRefetch q t) s = .next (State.settle
          ((s.modSq q.val fun x => { x with tries := x.tries + 1, refetching := true }).ask
            (spoolRead 0 34 (s.sqAddr q.val i) 64 (.refetch q.val i)))))
        ∧ (8 ≤ (s.sqOf q.val).tries → (s.tagOf t.val).held = false → s.tagOk q.val = true →
            let u := (s.newTag t.val q.val noDesc).headNext q.val
            let v := (u.modSq q.val fun x => { x with tries := 0, refetching := false }).bump (SQ_CNT.STALE q.val) 1
            exec (.staleRefetch q t) s = .next (State.settle
              (v.cosInsert t.val { status := 0x15, hostTag := 0xFFFF, head := v.sqHead q.val }))))

/-- The intake of a descriptor (R215, R216, R263): it takes its tag, its SQ's turn passes on, and it completes with the first check that
fails, or goes on to its work. Each of the 19 descriptor rows takes in the front descriptor of the SQ whose turn it is when that descriptor
has its opcode (Table 7.3), and NOP's also one that Table 7.3 does not list (the model's choice, log 34); a row that is not the front's
changes nothing (the model's choice, log 2). -/
def Obligations.DescriptorIntake : Prop :=
  (∀ (s : State) (q t : Nat) (d : Desc),
     let u := if s.native q then s.modSq q fun x => { x with slot := x.slot.drop 1 } else s.headNext q
     let v := ({ u with rrSq := (q + 1) % 128 } : State).newTag t q d
     (v.tagOf t).held = true ∧ (v.tagOf t).desc = d ∧ (v.tagOf t).sq = q ∧ (v.tagOf t).inserted = false
     ∧ (∀ st x, v.intakeBad (v.tagOf t).tenant d = some (st, x) → s.takeIn q t d = v.complete t st x 0 0)
     ∧ (v.intakeBad (v.tagOf t).tenant d = none → s.takeIn q t d = v.takeOn t))
  ∧ (∀ (s : State) (q : Fin 128) (t : Fin 4096) (d : Desc), s.TopWorks → s.engineOn = true → s.on GEO_STAT.BUSY = false →
     (s.tagOf t.val).held = false → s.nextSq = some q.val → s.sqFront q.val = some d →
     let taken := fun (c : Instr) => exec c s = .next (State.settle (s.takeIn q.val t.val d))
     let rows : List (Nat × (Fin 128 → Fin 4096 → Instr)) := [(opRead, .read), (opReadRaw, .readRaw), (opCopy, .copy),
       (opAppend, .programAppend), (opProgAt, .programAt), (opErase, .erase), (opEraseCheck, .eraseCheck), (opStripeOpen, .stripeOpen),
       (opStripeClose, .stripeClose), (opSubstitute, .substitute), (opRebuild, .rebuild), (opTallyWrite, .tallyWrite),
       (opTallyScan, .tallyScan), (opFlush, .flush), (opAbort, .abort), (opRlhSync, .rlhSync), (opDieCmd, .dieCmd), (opRoutine, .routine)]
     (∀ r ∈ rows, (dOp d = r.1 → taken (r.2 q t)) ∧ (dOp d ≠ r.1 → exec (r.2 q t) s = .next s.settle))
     ∧ (dOp d = opNop → taken (.nop q t)) ∧ (opcodes.contains (dOp d) = false → taken (.nop q t))
     ∧ (dOp d ≠ opNop → opcodes.contains (dOp d) = true → exec (.nop q t) s = .next s.settle))

/-- R220: the first insertion of a tag's completion into the COS is final; a later attempt finds the entry occupied and inserts nothing. -/
def Obligations.FirstInsertionIsFinal : Prop :=
  ∀ (s : State) (t : Nat) (c : Cpl), (s.tagOf t).inserted = true → s.cosPut t c = s ∧ s.cosInsert t c = s

/-- R265, R219: a completion that is inserted occupies COS entry t with its SQ, and with detail 0x22 when the deadline had passed and
Table 7.8 marks its status; its CQ's waiting list gains the tag at the end. -/
def Obligations.InsertionFillsTheEntry : Prop :=
  ∀ (s : State) (t : Nat) (c : Cpl), (s.tagOf t).held = true → (s.tagOf t).inserted = false →
    let u := s.cosPut t c
    let d := if statusDeadline c.status then (if (s.tagOf t).past then 0x22 else 0) else c.detail
    (u.tagOf t).inserted = true ∧ u.cosOf t = { c with sq := (s.tagOf t).sq, detail := d }
    ∧ (u.cqOf (s.tagOf t).cq).waiting = (s.cqOf (s.tagOf t).cq).waiting ++ [t]

/-- COMPLETION_WRITE and CQ_STALL (R221 to R226, R205, R210, R419): the oldest completions that may go leave in one beat at the tail, which
moves past them, and a beat to be retried goes out again, but for a CQ whose last write waits for its held record; a CQ full for LIMIT µs is
told once, with the completions that wait. EVENT_RECORD_WRITE and HOLDOFF_END (R415, R418, R423): up to four queued records go out in one
beat from the tail, on the ring's own stream of port 0; records whose write failed go first; the holdoff ends. -/
def Obligations.CompletionAndEventWrites : Prop :=
  (∀ (s : State) (c : Fin 32), s.TopWorks →
     (s.halted = false → s.freset.busy = false → s.cqEnabled c.val = true → (s.cqOf c.val).retry = false → s.cplOut c.val = false →
       s.cplHeld c.val = false →
       let q := s.cqOf c.val
       let room := min (4 - s.cqTail c.val % 65536 % 4) (s.cqN c.val - s.cqCount c.val)
       (q.issued ≠ [] → exec (.completionWrite c) s = .next (State.settle ((q.issued.foldl State.cplHead s).cplSend c.val q.issued)))
       ∧ (∀ ts, q.issued = [] → s.writable room q.waiting = ts → ts ≠ [] → ts.length ≤ 4 ∧
           exec (.completionWrite c) s = .next (State.settle
             (ts.foldl State.descDone ((ts.foldl (fun x t => (x.cplLate t).cplHead t)
               (s.modCq c.val fun q => { q with waiting := q.waiting.drop ts.length })).cplSend c.val ts)))))
     ∧ (s.cqFull c.val = true → s.get (CQ_STALL.LIMIT c.val) ≠ 0 → (s.cqOf c.val).stallTold = false →
         exec (.cqStall c) s = .next (State.settle (((s.put (CQ_STAT.STALLED c.val) 1).modCq c.val fun q => { q with stallTold := true }).raise 263 0
           (c.val + s.cqWait c.val % 2 ^ 13 * 2 ^ 16))))
     ∧ (s.cqFull c.val = true → (s.cqOf c.val).stallTold = true → exec (.cqStall c) s = .next s.settle))
  ∧ (∀ (s : State) (r : Fin 2), s.TopWorks →
     exec (.holdoffEnd r) s = .next (State.settle (s.modRing r.val fun x => { x with holdoff := false }))
     ∧ (s.halted = false → s.on (evF r.val EV_STAT.ENABLED) = true → (s.ringOf r.val).disabling = false → (s.ringOf r.val).halted = false →
         s.evOut r.val = false →
         let x := s.ringOf r.val
         let n := s.evN r.val
         let t := s.get (evF r.val EV_TAIL.INDEX)
         let k := min (4 - t % 65536 % 4) (n - ixCount n (s.get (evF r.val EV_HEAD.INDEX)) t)
         (x.out ≠ [] → exec (.eventRecordWrite r) s = .next (State.settle (s.evSend r.val x.out)))
         ∧ (x.out = [] → x.queue.take k ≠ [] → exec (.eventRecordWrite r) s = .next (State.settle
             (((s.modRing r.val fun x => { x with queue := x.queue.drop k }).evSend r.val (x.queue.take k)).refillRing r.val)))))

/-- R409, R412, R419 to R424, R426, R428: an event of a powered source fires the wake slots that watch it, counts as work in the idle
windows of WAKE_N (EV_WAKE_MASKED does not), and sets only its PEND bit when masked. Else its record, with its severity, time and
information, is put for the fast bank if it is fast, among those of the same command in ascending source ID (one command is one cycle,
log 7), and enters its ring: the queue while that has room for 64, else the latches, where a held source gains a record, EV_READABLE of a
LUN is replaced, and any other source's latched record counts one more. Nothing but event registers, wake state and the rings changes; a
source whose domain is off raises nothing. -/
def Obligations.EventRaise : Prop :=
  (∀ (s : State) (src sev info : Nat) (h : Option Holder), src ≤ 288 →
    let t := s.raise src sev info h
    (s.powered (sourceDomain src) = false → t = s)
    ∧ { t with regs := s.regs, rings := s.rings, tet := s.tet, snaps := s.snaps } = s
    ∧ (s.powered (sourceDomain src) = true →
        let u := if src = 279 then s.fireSource src else (s.fireSource src).sawWork
        let fast := sourceFixed src || s.srcBit EV_CLASS0.adr src
        let r : EvRec := { src := src, fast := fast, sev := sev, time := s.time32, info := BitVec.ofNat 64 info, holder := h }
        (∀ j, j < 32 → (t.reg TET_WAKE_CAUSE.adr).getLsbD j = ((s.reg TET_WAKE_CAUSE.adr).getLsbD j
          || (decide (4 ≤ j) && (s.reg TET_WAKE_EN.adr).getLsbD j && decide (s.get (TET_WAKE_SEL.SOURCE j) = src))))
        ∧ (src ≠ 279 → t.tet.windows = s.tet.windows.map (fun _ => true))
        ∧ (s.srcBit (EV_MASK.adr 0) src = true → t = u.setBit (EV_PEND.adr (src / 32)) (src % 32) true)
        ∧ (s.srcBit (EV_MASK.adr 0) src = false → t = (if fast then { u with snaps := insBy EvRec.src r u.snaps } else u).enqueue fast.toNat r)))
  ∧ (∀ (r : EvRec) (l : List EvRec), (insBy EvRec.src r l).Perm (r :: l)
      ∧ (l.Pairwise (fun a b => a.src ≤ b.src) → (insBy EvRec.src r l).Pairwise (fun a b => a.src ≤ b.src)))
  ∧ (∀ (s : State) (r : EvRec) (k : Nat), k < 4 →
      (s.snapshot r).reg (FEV_SNAP.adr (4 * (s.get FEV_SNAP_CNT.COUNT % 4) + k)) = r.word true 0 k
      ∧ (s.snapshot r).get FEV_SNAP_CNT.COUNT = (s.get FEV_SNAP_CNT.COUNT + 1) % 2 ^ 16)
  ∧ (∀ (s : State) (ring : Nat) (r : EvRec), let q := s.ringOf ring
      -- the latch that an occurrence finds: its source's, and of EV_READABLE its LUN's
      let hit := fun (e : EvRec) => e.src = r.src ∧ (r.src = srcReadable → e.info &&& 0x3FF = r.info &&& 0x3FF)
      (q.queue.length < 64 → s.enqueue ring r = s.modRing ring fun q => { q with queue := q.queue ++ [r] })
      ∧ (64 ≤ q.queue.length → sourceHeld r.src = true ∨ (∀ e ∈ q.late, ¬ hit e) →
          s.enqueue ring r = s.modRing ring fun q => { q with late := q.late ++ [r] })
      ∧ (∀ (a b : List EvRec) (e : EvRec), 64 ≤ q.queue.length → sourceHeld r.src = false → q.late = a ++ e :: b →
          (∀ x ∈ a, ¬ hit x) → hit e →
          (r.src ≠ srcReadable → s.enqueue ring r = (s.modRing ring fun q => { q with late := a ++ { e with coal := min (e.coal + 1) 255 } :: b }).bump
            (evF ring EV_CNT.COALESCED) 1)
          ∧ (r.src = srcReadable →
            s.enqueue ring r = s.modRing ring fun q => { q with late := a ++ { e with time := r.time, info := r.info } :: b })))

/-! ### Chanter -/

/-- R141: register operations of the running context, written out. Each writes its result to the destination (CMP to none) and sets Z when
the result is 0, N to its bit 31, and C to the carry of ADD, the borrow of SUB, CMP and DEC, 0 after the others. LDK, LDX, LDS and LDL
(R141, R143, R170, R180): the value found goes to the destination with Z and N from it and C = 0; LDS waits for the lane. REQACK clears the
latches of its mask, and a timer load starts the timer (R144, R148). -/
def Obligations.ContextOperations : Prop :=
  (∀ (s : State) (n : Fin 32) (d a : Fin 16) (imm : Word32), s.Works → (s.ctxOf n.val).state ≠ 0 →
     let c := s.ctxOf n.val
     let x := c.v.getD a.val 0
     let sets := fun (i : Instr) (v : List Word32) (r : Word32) (cy : Bool) =>
       exec i s = .next (State.settle (s.modCtx n.val fun c => { c with v := v, z := r == 0, n := r.getLsbD 31, c := cy }))
     let writes := fun (i : Instr) (r : Word32) (cy : Bool) => sets i (c.v.set d.val r) r cy
     writes (.mov n d imm) imm false ∧ writes (.movr n d a) x false
     ∧ writes (.add n d a imm) (x + imm) (decide (2 ^ 32 ≤ x.toNat + imm.toNat))
     ∧ writes (.sub n d a imm) (x - imm) (decide (x.toNat < imm.toNat))
     ∧ writes (.andOp n d a imm) (x &&& imm) false ∧ writes (.orOp n d a imm) (x ||| imm) false
     ∧ writes (.shr n d a imm) (x >>> (imm.toNat % 32)) false ∧ writes (.shl n d a imm) (x <<< (imm.toNat % 32)) false
     ∧ writes (.dec n d) (c.v.getD d.val 0 - 1) (decide ((c.v.getD d.val 0).toNat < 1))
     ∧ sets (.cmp n a imm) c.v (x - imm) (decide (x.toNat < imm.toNat)))
  ∧ (∀ (s : State) (n : Fin 32) (d a : Fin 16) (imm : Word32), s.Works → (s.ctxOf n.val).state ≠ 0 →
     let c := s.ctxOf n.val
     let loads := fun (i : Instr) (r : Word32) => exec i s = .next (State.settle
       (s.modCtx n.val fun c => { c with v := c.v.set d.val r, z := r == 0, n := r.getLsbD 31, c := false }))
     loads (.ldk n d imm) (BitVec.ofNat 32 (ldkField s.force c.kind (imm.toNat % 256)))
     ∧ loads (.ldx n d a) (BitVec.ofNat 32 (ldxWord s.force c.kind ((c.v.getD 4 0).toNat % 256) ((c.v.getD a.val 0).toNat % 4)))
     ∧ loads (.ldl n d imm) (s.lunWord c.lun (imm.toNat % 8))
     ∧ ((s.chanOf n.val).lane = [] → loads (.lds n d) ((s.chanOf n.val).stat.setWidth 32))
     ∧ ((s.chanOf n.val).lane ≠ [] → exec (.lds n d) s = .next s.settle)
     ∧ (∀ m : BitVec 3, exec (.reqack n m) s = .next (State.settle (s.modCtx n.val fun c =>
         { c with abortReq := c.abortReq && !m.getLsbD 0, suspReq := c.suspReq && !m.getLsbD 1, cancelReq := c.cancelReq && !m.getLsbD 2 })))
     ∧ (∀ (v : BitVec 16) (k : BitVec 2), exec (.timerLoad n (.imm v) k) s = .next (State.settle (s.modCtx n.val fun c =>
         { c with timerOn := true, timer := BitVec.ofNat 32 v.toNat, timerUnit := k.toNat })))
     ∧ (∀ k : BitVec 2, exec (.timerLoad n (.reg a) k) s = .next (State.settle (s.modCtx n.val fun c =>
         { c with timerOn := true, timer := BitVec.ofNat 32 ((c.v.getD a.val 0).toNat % 65536), timerUnit := k.toNat }))))

/-- NEXT, JUMP, BRANCH, CALL, RET, YIELD and END (R27, R138 to R140, R144, R154): a word without bus, register or timer action, fetched
without fault on the context whose turn it is, counts, passes the turn on and goes where its SEQ says; no request is pending. Table 13.8:
where its park slot or its LUN's state is uncorrectable the routine restarts before its commit (a park slot), or the LUN is fenced with
its event and capture, which also captures the tag (the code and row it names are the model's choice, log 86). -/
def Obligations.SequencerWords : Prop :=
  (∀ (s : State) (n : Fin 32) (err : FetchErr) (x : SmallStore), s.Works → s.mayRun n.val = true → err.small = some x →
    let c := s.ctxOf n.val
    let tag := c.op.tag.getD 0xFFF
    ∀ i ∈ [Instr.nextSeq n err, .jump n err, .branch n err, .callSeq n err, .ret n err, .yield n err, .endSeq n err],
      exec i s = .next (State.settle (if x = .slot ∧ c.committed = false then s.runFaulted n.val
        else ((s.fenceLun c.lun).evLunFault n.val c.lun tag 2).fault (.chan n) 6 2 (tag * 2 ^ 12 + if x = .lunState then 2 ^ 24 else 0))))
  ∧ ∀ (s : State) (n : Fin 32) (err : FetchErr), s.Works → s.mayRun n.val = true →
    let c := s.ctxOf n.val
    let f := s.fetchWord n.val err
    let w := f.nano
    let u := s.takeTurn n.val f.corr
    err.small = none → f.bad = none → nwBusop w = 0 → nwAlu w = 0 → nwTimop w = 0 → nwReqack w = 0 → waitsLane f.mw w = false →
      c.issued = false → c.laneWait = false → c.pending = false →
      let on := { c with state := 2, words := c.words + 1 }
      let goes := fun (i : Instr) (k : Ctx) => exec i s = .next (State.settle ((u.modCtx n.val fun _ => on).modCtx n.val fun _ => k))
      (u.quadOf (chanQuad n.val)).turn = n.val % 4
      ∧ (mwSeq f.mw = seqNext → goes (.nextSeq n err) { on with pc := c.pc + 1 })
      ∧ (mwSeq f.mw = seqJump → goes (.jump n err) { on with pc := nwTarget w })
      ∧ (mwSeq f.mw = seqBranch → goes (.branch n err) { on with pc := u.branchTo n.val on w })
      ∧ (mwSeq f.mw = seqCall → c.stack.length < 4 → goes (.callSeq n err) { on with stack := (c.pc + 1) :: c.stack, pc := nwTarget w })
      ∧ (∀ a l, mwSeq f.mw = seqRet → c.stack = a :: l → goes (.ret n err) { on with stack := l, pc := a, giveWay := false })
      ∧ (mwSeq f.mw = seqYield → exec (.yield n err) s
          = .next (State.settle ((u.modCtx n.val fun _ => on).parkCtx n.val (nwTarget w) (mwSafe f.mw))))
      ∧ (mwSeq f.mw = seqEnd → exec (.endSeq n err) s = .next (State.settle ((u.modCtx n.val fun _ => on).routineEnd n.val (mwArg f.mw))))

/-- TRAP, RUN_LIMIT_FAULT and WATCHDOG_FAULT (R150 to R152): the word's fault, code 0x06 after 4,096 words and code 0x08 on the running
context. A fault is captured with its event and counted. If that declares the Chanter the take-over rules what runs on; else a committed
routine gives way to FINISH at once, an uncommitted one gives its staging back and restarts up to twice and then ends FAULTED. -/
def Obligations.ChanterFaults : Prop :=
  ∀ (s : State) (n : Fin 32), s.Works →
    (∀ (err : FetchErr) (b : Bad), s.mayRun n.val = true → (s.fetchWord n.val err).bad = some b →
        exec (.trap n err) s = .next (State.settle ((s.takeTurn n.val (s.fetchWord n.val err).corr).chanterFault n.val b)))
    ∧ ((s.ctxOf n.val).state ≠ 0 → 4096 ≤ (s.ctxOf n.val).words →
        exec (.runLimitFault n) s = .next (State.settle (s.chanterFault n.val { code := 6, patch := s.pcPatch n.val })))
    ∧ ((s.ctxOf n.val).state ≠ 0 →
        exec (.watchdogFault n) s = .next (State.settle (s.chanterFault n.val { code := 8, patch := s.pcPatch n.val })))
    ∧ (∀ (b : Bad) (q : Fin 8), (s.ctxOf n.val).state ≠ 0 → q.val = chanQuad n.val →
        let c := s.ctxOf n.val
        let again := !c.committed && decide (c.restarts < 2)
        let ctx := n.val % 4 + c.pc * 2 ^ 2 + c.op.tag.getD 0xFFF * 2 ^ 16 + c.bank.toNat * 2 ^ 28
        let u := ((s.fault (.quad q) b.code 1 ctx again).chanterEvent q.val n.val c b).chanterCount q b.code b.patch
        s.chanterFault n.val b =
          if !s.on (Q_FLT_CTRL.CHT_FAULTED q.val) && u.on (Q_FLT_CTRL.CHT_FAULTED q.val) then u
          else if c.committed then (u.freeCtx n.val c.lun).finishNow n.val c.lun c
          else if again then (((u.freeCtx n.val c.lun).unstage n.val c.op).bump (CHT_CNT.RESTARTS q.val) 1).modCtx n.val
            fun _ => c.restart (c.restarts + 1)
          else u.routineEnd n.val resFaulted)

/-- OFFER_ROUTINE, UNPARK, CHANTER_TIMER_EXPIRE and STAGING_RESERVED (R23, R144, R145, R355): the first operation that may start is
offered; the routine that woke first takes the free context, and gives way at once when a request waits for its SAFE YIELD; a parked
routine's timer wakes it; a waiting DOUT enters the lane once its staging has room, which each sense of a READ_SOFT takes anew, and waits
for it else. What takes the room, program pages among it, is the model's choice (logs 14 and 84). -/
def Obligations.RoutineCommands : Prop :=
  ∀ s : State, s.Works →
    (∀ (n : Fin 32) (o : Op), s.topOn = true →
        let u := (if s.halted || s.freset.busy || s.on TET_PWRFAIL.LATCH then s
          else s.each (chanLuns n.val) State.suspendDecision).restamp n.val
        u.ctxOpen n.val = true → u.firstOp ((u.chanOps n.val).filter u.mayStart) = some o →
        exec (.offerRoutine n) s = .next (State.settle (u.offerOp o)))
    ∧ (∀ (n : Fin 32) (o : Op), s.topOn = true →
        let u := (if s.halted || s.freset.busy || s.on TET_PWRFAIL.LATCH then s
          else s.each (chanLuns n.val) State.suspendDecision).restamp n.val
        u.ctxOpen n.val = true → u.firstOp ((u.chanOps n.val).filter u.mayStart) = none → u.trainNext n.val = some o →
        exec (.offerRoutine n) s = .next (State.settle ((u.modChan n.val fun c => { c with trainAt := c.trainAt + 1 }).startRoutine o)))
    ∧ (∀ (n : Fin 32) (g : Nat) (c : Ctx), (s.ctxOf n.val).state = 0 → (s.quadOf (chanQuad n.val)).takeover = false → s.halted = false →
        s.deadChan n.val = false → s.on (CH_MODE_STAT.SAFE n.val) = false → s.firstWoken n.val = some g → (s.lunOf g).park = some c →
        let on := { c with state := 2, safeYield := false }
        let u := (s.modLun g fun l => { l with park := none, woken := none }).modCtx n.val fun _ => on
        ((c.safeYield = false ∨ c.pending = false ∨ c.giveWay = true) → exec (.unpark n) s = .next (State.settle (u.modCtx n.val fun _ => on)))
        ∧ (c.safeYield = true → c.pending = true → c.giveWay = false → c.stack.length < 4 → exec (.unpark n) s
            = .next (State.settle (u.modCtx n.val fun _ => { on with stack := c.pc :: c.stack, pc := c.entry + 1, giveWay := true }))))
    ∧ (∀ (g : Fin 1024) (p : Ctx), (s.ctxOf (lunChan g.val)).state = 0 → (s.lunOf g.val).park = some p → p.timerOn = true →
        exec (.chanterTimerExpire g) s = .next (State.settle
          ((s.modLun g.val fun l => { l with park := some { p with timerOn := false } }).wakePark g.val)))
    ∧ (∀ (n : Fin 32) (e : Lane), (s.ctxOf n.val).doutWait = some e → (s.ctxOf n.val).state ≠ 0 → (s.chanOf n.val).lane.length < 16 →
        let s' := s
        let s := s.dropSpent n.val (s'.ctxOf n.val).op e.handle
        (s.stageRoom n.val < s.stageUsed n.val + s.stageSize (s'.ctxOf n.val).op → exec (.stagingReserved n) s' = .next s.settle)
        ∧ (s.stageUsed n.val + s.stageSize (s'.ctxOf n.val).op ≤ s.stageRoom n.val →
        let o := (s'.ctxOf n.val).op
        let new : Stage := { handle := e.handle, tag := o.tag, loc := o.loc, cw := o.cw, size := s.stageSize o, read := o.readId }
        exec (.stagingReserved n) s' = .next (State.settle
          ((s.modChan n.val fun x => { x with
              staging := if x.staging.any (fun g => g.handle == e.handle) then
                  x.staging.map (fun g => if g.handle = e.handle then { g with size := g.size + new.size } else g) else x.staging ++ [new],
              lane := x.lane ++ [e] }).modCtx n.val
            fun c => { c with doutWait := none, issued := true }))))

/-- CE_ON, CE_OFF, CMD, ADDR, DIN, TRN_RD and TRN_WR (R103, R117, R118, R143, Table 4.5): unless the pads are held, the lane's front entry
of that action acts on the pads or the compare latch and leaves the lane (`lanePop`: bus time charged, busy and commit as the entry says); a
command cycle also marks the plane page it reads as issued. What lies in which row, and what an uncorrectable one does, is the model's
choice beyond Table 13.8 (log 57). DOUT and STATUS (R124, R125, R127, R146, R357): a burst of the right length without a fault is taken; the
first faulty one is repeated and leaves the lane as it is, its bus time charged; the second ends the transfer with its capture, event and
count, the third count of a period with a new training; a status enters the latch, and a ready one ends the LUN's busy. -/
def Obligations.LaneWork : Prop :=
  (∀ (s : State) (n : Fin 32) (e : Lane) (l : List Lane), s.Works → s.padsHeld n.val = false → (s.chanOf n.val).lane = e :: l →
     let pads := fun (x : State) (f : Pads → Pads) => x.modChan n.val fun c => { c with pads := f c.pads }
     (e.op = .ceOn → modeCe (s.chanOf n.val).mode e.tgt = true → exec (.ceOn n) s = .next (State.settle
         (((pads s fun p => { p with ceN := putBit p.ceN e.tgt false }).modChan n.val fun x =>
           { x with tgt := some e.tgt, tgtBy := e.lun }).lanePop n.val e)))
     ∧ (e.op = .ceOff → exec (.ceOff n) s = .next (State.settle
         (((pads s fun p => { p with ceN := 0xFF }).modChan n.val fun x => { x with tgt := none }).lanePop n.val e)))
     ∧ (e.op = .cmd → exec (.cmd n) s = .next (State.settle
         (let u := match ((s.runOf n.val e.lun).map (·.op)).bind (·.readId) with
            | some i => s.modRead i fun r => { r with issued := true }
            | none => s
          (pads u fun p => { p with dq := e.cmd }).lanePop n.val e)))
     ∧ (e.op = .addr → exec (.addr n) s = .next (State.settle ((pads s fun p => { p with dq := e.addr.getLastD p.dq }).lanePop n.val e)))
     ∧ (e.op = .din → exec (.din n []) s = .next (State.settle
         (let data := if e.xfer = 1 then e.imm else if e.xfer = 2 then s.trnBytes n.val
            else ((s.runOf n.val e.lun).map (fun c => c.op.data.flatten)).getD []
          (pads s fun p => { p with dq := data.getLastD p.dq }).lanePop n.val e)))
     ∧ (let owner := (s.runOf n.val e.lun).bind fun c => if c.op.role == .later then none else c.op.tag
        (∀ reads : List SramRead, e.op = .din → e.xfer ≠ 0 ∨ (s.dinReads n.val owner reads).1 = false → exec (.din n reads) s = .next (State.settle
            ((s.dinReads n.val owner reads).2.laneDin n.val)))
        ∧ (∀ (row : Nat) (c : Ctx), e.op = .din → e.xfer = 0 →
            let r : SramRead := { bank := ⟨n.val, Nat.lt_trans n.isLt (by decide)⟩, row := row, bad := true }
            let u := (s.dinReads n.val owner [r]).2.laneDin n.val
            (s.dinReads n.val owner [r]).1 = true → u.runOf n.val e.lun = some c → c.committed = false → (u.ctxOf n.val).state ≠ 0 →
              (u.ctxOf n.val).lun = e.lun → exec (.din n [r]) s = .next (State.settle (u.routineEnd n.val resPoison))))
     ∧ (∀ data : List Byte, e.op = .trnRd → exec (.trnRd n data) s = .next (State.settle
         ((s.modChan n.val fun x => { x with cmpPass := decide (data = s.trnBytes n.val) }).lanePop n.val e)))
     ∧ (e.op = .trnWr → exec (.trnWr n) s = .next (State.settle ((pads s fun p => { p with dq := s.trnByte n.val 63 }).lanePop n.val e))))
  ∧ (∀ (s : State) (n : Fin 32) (e : Lane) (l : List Lane), s.Works → s.padsHeld n.val = false → (s.chanOf n.val).lane = e :: l →
     (∀ b : ReadBurst, e.op = .dout →
         (b.edgesOk = true → b.data.length = s.laneLen n.val e → exec (.dout n b) s = .next (State.settle (s.doutOk n.val e b.data)))
         ∧ (b.edgesOk = false → (s.chanOf n.val).repeated = false → exec (.dout n b) s = .next (State.settle
             (((s.charge n.val e.lun (s.laneNs n.val e)).modChan n.val fun x =>
               { x with repeated := true, burst := x.burst || (s.ddr n.val && s.on (CH_MODE_STAT.TRAINED n.val)) }).updChanRec n.val)))
         ∧ (b.edgesOk = false → (s.chanOf n.val).repeated = true → exec (.dout n b) s = .next (State.settle
             (let tag := ((s.runOf n.val e.lun).bind (fun c => c.op.tag)).getD 0xFFF
              let u := ((s.fault (.chan n) 4 1 (e.lun + tag * 2 ^ 10)).evPhyFault n.val e.lun tag 3 0).bump (CH_DRIFT_STAT.PHYF n.val) 1
              let v := if u.get (CH_DRIFT_STAT.PHYF n.val) = 3 then u.retrain n.val 8 else u
              ((v.modChan n.val fun x => { x with repeated := false, xferFault := true }).updChanRec n.val).lanePop n.val e))))
     ∧ (∀ st : Byte, e.op = .status →
         let u := ((s.modChan n.val fun x => { x with pads := { x.pads with dq := e.addr.getLastD e.cmd } }).modChan n.val
           fun x => { x with stat := st }).lanePop n.val e
         (bit st 6 = true → exec (.status n st) s = .next (State.settle
           ((u.modLun e.lun fun x => { x with busy := false, stuck := false }).pollStuck n.val e.lun)))
         ∧ (bit st 6 = false → exec (.status n st) s = .next (State.settle
             (u.modChan n.val fun x => { x with readyPolls := tabPut (fun _ => 0) x.readyPolls (lunTarget e.lun) 0 })))))

/-! ### Limits, suspension, periods -/

/-- LUN_TIME_LIMIT and TRST_EXPIRY (R128): a busy LUN at its limit raises EV_TIMEOUT with its capture; without a routine it is reset at
once, with one COND LIMIT becomes true; when tRST_max passes the reset has failed. SUSPEND_LIMIT and DIE_CMD_POLL_TIMEOUT (R259, R361): a
program pass or erase that does not suspend in T_SUSP meets its LUN's limit; a DIE_CMD whose poll reaches its bound ends with result
TIMEOUT. RESUME_MIN_WAIT, RESUME and HOLD_MAX_EXPIRY (R360, R362): a pass that has run long enough is suspended for the read that waits; a
suspended one with no read left is resumed by the channel engine; HOLD_MAX ends the starts of reads and resumes. -/
def Obligations.LimitsAndSuspension : Prop :=
  (∀ (s : State) (g : Fin 1024), s.Works →
     (let l := s.lunOf g.val
      l.busy = true → l.resetting = false → l.limitHit = false → s.isFenced g.val = false →
        (s.runOf (lunChan g.val) g.val = none →
           exec (.lunTimeLimit g) s = .next (State.settle ((s.limitEvent g.val l.cur).hangReset g.val l.cur)))
        ∧ (∀ c, s.runOf (lunChan g.val) g.val = some c → c.op.isEngine = false → c.op.role ≠ .raw → c.op.role ≠ .resetLun →
           exec (.lunTimeLimit g) s = .next (State.settle ((s.limitEvent g.val c.op).modLun g.val fun l => { l with limitHit := true }))))
     ∧ ((s.lunOf g.val).resetting = true → (s.ctxOf (lunChan g.val)).state = 0 → (s.lunOf g.val).park = none →
         exec (.trstExpiry g) s = .next (State.settle
           ((s.dropOps (fun o => o.role == Role.resetLun && o.loc.lun == g.val)).resetOver g.val false))))
  ∧ (∀ (s : State) (g : Fin 1024) (c : Ctx), s.Works → s.runOf (lunChan g.val) g.val = some c →
     (s.passRuns g.val = true → s.geo (GEO_DK_CTRL.SUSP (s.kind g.val)) = 1 →
       exec (.suspendLimit g) s = exec (.lunTimeLimit g) s ∧ exec (.suspendLimit g) s = .next (State.settle (s.limit g.val)))
     ∧ (c.op.role = .raw → (s.ctxOf (lunChan g.val)).state ≠ 0 → (s.ctxOf (lunChan g.val)).lun = g.val →
       exec (.dieCmdPollTimeout g) s = .next (State.settle (s.routineEnd (lunChan g.val) resTimeout)))
     ∧ (c.op.role = .raw → (s.ctxOf (lunChan g.val)).state = 0 →
       exec (.dieCmdPollTimeout g) s = .next (State.settle ((s.dropPark g.val).routed g.val c.op
         resTimeout (c.reg 6).toNat (c.reg 7).toNat))))
  ∧ (∀ (s : State) (g : Fin 1024), s.TopWorks →
     (s.maySuspend g.val = true → (s.nextRead g.val).isSome = true →
         s.geo (GEO_DK_SUSP.RESUME_MIN (s.kind g.val)) ≤ s.us - (s.lunOf g.val).since →
         exec (.resumeMinWait g) s = .next (State.settle (s.suspend g.val)))
     ∧ ((s.lunOf g.val).suspended = true → (s.lunOf g.val).abortDie = false →
         s.ops.any (fun o => o.role == Role.resume && o.loc.lun == g.val) = false → s.readWants g.val = false →
         exec (.resume g) s = .next (State.settle (s.engineOp g.val rtResume .resume (s.lunOf g.val).cur.kindCode)))
     ∧ ((s.lunOf g.val).suspended = true → exec (.holdMaxExpiry g) s = .next (State.settle
         ((s.modLun g.val fun l => { l with holdMaxed := true }).resumeOp g.val))))

/-- DEADLINE_PASS, D0_PERIOD_END, RLH_MISS_WAIT and PAD_WAIT_EXPIRY (R303, R333, R354, R359, R368, R373): an open tag's deadline passes and
the plane pages of its READ or COPY source that have had none may be read around, where a write's does nothing (R375); a period's end clears
bus times and draws, and the balance registers take the credit that the time has earned; the reads of a tag that wait for a fill go on with
the default set; the highest wanted page of each block without queued data is padded for. Once for a deadline (log 67), 0xFFF for the reads
of no tag (log 42) and the order of the pads (log 46) are the model's choices. -/
def Obligations.PeriodCommands : Prop :=
  ∀ s : State, s.TopWorks →
    (∀ t : Fin 4096, s.openTag t.val = true → (s.tagOf t.val).past = false → let u := s.modTag t.val fun x => { x with past := true }
        exec (.deadlinePass t) s = .next (State.settle
          (if u.racAllowed t.val then (u.reads.filter fun r =>
               r.owner == .tag t.val && !u.racRunning r && !r.ended && !r.left.isEmpty && !r.around).foldl
             (fun x r => (x.startRac { r.rac true with group := u.nextId + 1 }).2) u
           else u))
        -- R375: nothing is done to a write for its deadline
        ∧ (dOp (s.tagOf t.val).desc ≠ opRead → dOp (s.tagOf t.val).desc ≠ opCopy → exec (.deadlinePass t) s = .next u.settle))
    ∧ exec .d0PeriodEnd s = .next (State.settle
        ((s.each (s.chans.map (·.1)) fun x n => x.modChan n fun c => { c with d0 := [] }).each (List.range 8)
          fun x q => (x.modQuad q fun y => { y with drawn := [] }).keepCredit q))
    ∧ (∀ t : Fin 4096, exec (.rlhMissWait t) s = .next (State.settle
        (((s.reads.filter (fun r => r.waitsRlh && (r.tag == some t.val || (r.tag == none && t.val == 0xFFF)))).map (·.id)).foldl
          (fun x id => x.fillEnds id true) s)))
    ∧ (∀ g : Fin 1024,
        let want := (s.lunOf g.val).recs.filter (fun r => s.padWanted g.val r && !s.fineMay g.val r.eb r.page)
        exec (.padWaitExpiry g) s = .next (State.settle
          ((want.filter (fun r => !want.any (fun x => x.eb == r.eb && decide (r.page < x.page)))).foldl
            (fun x r => if x.dataQueued g.val r.eb then x else x.padBlock g.val r.eb r.page r.planes) s)))

/-! ### Bellows, Spool and Pool -/

/-- DECODE_JOB_START, DECODE_JOB_DONE and SLICE_JOB_OVERRUN (R284 to R289, R446, R448, R439): a free active slice takes the first job; a
word that satisfies every check, with its CRC, is good, any other bad; an armed, failing or overrunning slice faults and its job goes
back; an uncorrectable word of the job's staging or of decoder storage poisons its code word. That a report which no decoder of the job's
limit could give changes nothing is the model's choice (log 80), as is the word's coming with the report, and which pages compare no CRC
(log 40). -/
def Obligations.DecodeCommands : Prop :=
  ∀ (s : State) (sl : Fin 18) (j : Job), s.TopWorks →
    ((s.sliceOf sl.val).st = sliceActive → (s.sliceOf sl.val).job = none → s.usable (pdB (sl.val / 2)) = true → s.tet.bank32 = true →
        s.halted = false → s.nextJob = some j → exec (.decodeJobStart sl) s = .next (State.settle
          (({ s with jobs := s.jobs.erase j } : State).modSlice sl.val fun x => { x with job := some { j with
            limit := if j.mode = .bf then s.get BLW_CTRL.ITER_BF_M1 + 1 else s.get BLW_CTRL.ITER_MS_M1 + 1 } })))
    ∧ ((s.sliceOf sl.val).job = some j →
        exec (.sliceJobOverrun sl) s = .next (State.settle
          ((s.sliceLost sl 3 (j.tag.getD 0xFFF) (j.tag.getD 0xFFF + j.mode.code * 2 ^ 12)).requeue j))
        ∧ (∀ rep : DecodeReport, j.limit < rep.iters → exec (.decodeJobDone sl rep) s = .next s.settle)
        ∧ (∀ rep : DecodeReport, rep.iters ≤ j.limit → s.ballast.sliceArmed = some sl.val → exec (.decodeJobDone sl rep) s = .next (State.settle
          ((({ s with ballast := { s.ballast with sliceArmed := none } } : State).sliceLost sl 1 (j.tag.getD 0xFFF) (j.tag.getD 0xFFF)).requeue j)))
        ∧ (∀ rep : DecodeReport, rep.iters ≤ j.limit → s.ballast.sliceArmed ≠ some sl.val → rep.sliceErr = 1 ∨ rep.sliceErr = 2 →
            exec (.decodeJobDone sl rep) s = .next (State.settle
              ((s.sliceLost sl rep.sliceErr.toNat (j.tag.getD 0xFFF) (j.tag.getD 0xFFF)).requeue j)))
        ∧ (∀ rep : DecodeReport, rep.iters ≤ j.limit → s.ballast.sliceArmed ≠ some sl.val → rep.sliceErr ≠ 1 → rep.sliceErr ≠ 2 →
            let u := s.modSlice sl.val fun x => { x with job := none }
            let weight := ldpcWeight (s.ldpcM j.loc.lun) rep.word
            let crc := u.jobParity j || crcOk rep.word
            (j.mode.soft = true → rep.iters < j.limit → weight ≠ 0 → exec (.decodeJobDone sl rep) s = .next s.settle)
            ∧ (j.mode.soft = false ∨ rep.iters = j.limit ∨ weight = 0 → ∀ (poison : Option Nat) (v : State), u.jobStores j rep.sram = (poison, v) →
              (j.dead = true → exec (.decodeJobDone sl rep) s = .next v.settle)
              ∧ (∀ d, j.dead = false → poison = some d → exec (.decodeJobDone sl rep) s = .next (State.settle (v.jobPoisoned j d)))
              ∧ (rep.sram = [] → v = u ∧ poison = none)
              ∧ (j.dead = false → rep.sram = [] → weight = 0 → crc = true → exec (.decodeJobDone sl rep) s = .next (State.settle (u.jobGood j rep.word)))
              ∧ (j.dead = false → rep.sram = [] → weight = 0 → crc = false → exec (.decodeJobDone sl rep) s = .next (State.settle (u.jobBad j 0 true)))
              ∧ (j.dead = false → rep.sram = [] → weight ≠ 0 → exec (.decodeJobDone sl rep) s = .next (State.settle (u.jobBad j weight false))))))
    ∧ (∀ (r : SramRead), let x := s.storeRead r j.tag
        s.jobStores j [r] = (if x.1 && r.bank.val == j.ch then some 1 else if x.1 && r.bank.val == 32 then some 2 else none, x.2))

/-- SPOOL_REQUEST, SPOOL_WRITE_RESPONSE and SPOOL_READ_DATA (R62, R65, R66, R395, R396): a port's first ready request leaves with its
lowest free ID and is counted for its tag; a response or data goes to the request of its port, ID and direction; one that names
no outstanding request, or data of another length, changes nothing (the model's choice, log 2), and the lowest free ID and the first ready
request are its choice too (log 35). -/
def Obligations.SpoolCommands : Prop :=
  ∀ (s : State) (p : Fin 2), s.TopWorks →
    (∀ (r : Spool) (i : Nat), s.halted = false → s.ready.find? (fun r => r.port == p.val) = some r → s.freeTid p.val = some i →
        let u := { s with ready := s.ready.erase r, flying := s.flying ++ [{ r with tid := i }] }
        (r.cont.dataTag = none → exec (.spoolRequest ⟨p, []⟩) s = .next u.settle)
        ∧ (∀ t, r.cont.dataTag = some t → exec (.spoolRequest ⟨p, []⟩) s = .next (State.settle ((u.modTag t fun x => { x with
            unissued := x.unissued - 1, writes := if r.write then x.writes + 1 else x.writes,
            reads := if r.write then x.reads else x.reads + 1 }).later (.tagCheck t)))))
    ∧ (∀ (tid : Fin 256) (err : BitVec 2),
        (∀ r, s.flight p.val tid.val true = some r → exec (.spoolWriteResponse p tid err) s
          = .next (State.settle (({ s with flying := s.flying.erase r } : State).writeDone r err.toNat)))
        ∧ (s.flight p.val tid.val true = none → exec (.spoolWriteResponse p tid err) s = .next s.settle)
        ∧ (∀ (r : Spool) (data : List Byte), s.flight p.val tid.val false = some r →
            (err ≠ 0 ∨ data.length = 64 * r.beats → exec (.spoolReadData p tid err data) s
              = .next (State.settle (({ s with flying := s.flying.erase r } : State).readDone' r err.toNat data)))
            ∧ (err = 0 → data.length ≠ 64 * r.beats → exec (.spoolReadData p tid err data) s = .next s.settle))
        ∧ (s.flight p.val tid.val false = none → ∀ data, exec (.spoolReadData p tid err data) s = .next s.settle))

/-- POOL_REQUEST, POOL_ANSWER_OK, POOL_EMPTY, POOL_REFUSED, POOL_RESERVED_ANSWER, POOL_RETRY and POOL_EMPTY_LIMIT (R70 to R73, R403 to
R406): at most 16 requests are out, and a SHARE, DROP or FREE goes before any ALLOC, a FREE once its buffer has no request out; an answer
goes to the oldest; a grant of the right class and alignment is used, any other is freed and its need waits; EMPTY is counted and waits;
waiting needs are asked again, also after a FREE; a refused SHARE ends the sharing, a refused DROP or FREE every use of its buffer; a
long wait is told once. What counts in REFUSED and EMPTY, an EMPTY to a SHARE, DROP or FREE among it, is the model's choice (log 37), as
is what a lost buffer means to an accumulator (log 85). -/
def Obligations.PoolCommands : Prop :=
  (∀ s : State, s.TopWorks →
    (∀ r : PoolReq, s.halted = false → s.pool.out.length < 16 →
        (s.pool.send.find? (fun r => r.op != poolAlloc && !s.bufBusy r) = some r
          ∨ (s.pool.send.find? (fun r => r.op != poolAlloc && !s.bufBusy r) = none ∧ s.pool.send.find? (fun r => r.op == poolAlloc) = some r)) →
        exec .poolRequest s = .next (State.settle
          { s with pool := { s.pool with send := s.pool.send.erase r, out := s.pool.out ++ [r] } }))
    ∧ (16 ≤ s.pool.out.length → exec .poolRequest s = .next s.settle)
    ∧ (∀ (r : PoolReq) (l : List PoolReq), s.pool.out = r :: l → let u := { s with pool := { s.pool with out := l } }
        let ends := fun (c : Instr) (x : State) => exec c s = .next (State.settle x.emptyOver)
        (∀ (cls : BitVec 2) (addr : BitVec 64),
          (r.op = poolAlloc → r.cls ≤ cls.toNat → addr.toNat % classBytes cls.toNat = 0 → ends (.poolAnswerOk cls addr)
            (({ u with pool := { u.pool with
              bufs := u.pool.bufs ++ [{ cls := cls.toNat, addr := addr.toNat, owners := [r.owner], use := r.use }] } } : State).later (.granted r.use)))
          ∧ (r.op = poolAlloc → cls.toNat < r.cls ∨ addr.toNat % classBytes cls.toNat ≠ 0 → ends (.poolAnswerOk cls addr)
            ((({ u with pool := { u.pool with
              send := u.pool.send ++ [{ op := poolFree, cls := cls.toNat, owner := r.owner, addr := addr.toNat, use := r.use }] } } : State).poolRefusal
                poolAlloc r.owner addr.toNat 5).allocEmpty r))
          ∧ (r.op = poolShare → ends (.poolAnswerOk cls addr) (u.shareOk r))
          ∧ (r.op = poolFree → ends (.poolAnswerOk cls addr) u.askAgain)
          ∧ (r.op = poolDrop → ends (.poolAnswerOk cls addr) u))
        ∧ (r.op = poolAlloc → ends .poolEmpty ((u.bump DMA_POOL_CNT.EMPTY 1).allocEmpty r))
        ∧ (r.op ≠ poolAlloc → ends .poolEmpty (u.refused r 6))
        ∧ (∀ why : BitVec 3,
          (r.op = poolAlloc → ends (.poolRefused why) ((u.poolRefusal poolAlloc r.owner 0 6).allocEmpty r))
          ∧ (r.op = poolShare → ends (.poolRefused why) (u.refused r 7))
          ∧ (r.op = poolDrop ∨ r.op = poolFree → ends (.poolRefused why) (u.refused r why.toNat)))
        ∧ (r.op = poolAlloc → ends .poolReservedAnswer ((u.poolRefusal poolAlloc r.owner 0 6).allocEmpty r))
        ∧ (r.op ≠ poolAlloc → ends .poolReservedAnswer (u.refused r 6)))
    ∧ exec .poolRetry s = .next (State.settle { s with pool := { s.pool with empty := [], send := s.pool.send ++ s.pool.empty } })
    ∧ (∀ r : PoolReq, s.oldestNeed = some r → s.get DMA_POOL_CTRL.EMPTY_LIMIT ≠ 0 → s.pool.emptyTold = false →
        let u := { s with pool := { s.pool with emptyTold := true } }
        exec .poolEmptyLimit s = .next (State.settle (u.raise 268 0 (r.cls + r.owner * 4 + u.needsWaiting % 2 ^ 13 * 2 ^ 15)))))
  ∧ (∀ (u : State) (r : PoolReq) (why : Nat), let v := u.poolRefusal r.op r.owner r.addr why
      (r.op = poolShare → u.refused r why =
        let x := { v with pool := { v.pool with bufs := v.pool.bufs.filter (fun b => b.addr != r.addr || !b.owners.isEmpty || v.sharePending r.addr) } }
        (x.sharers r.owner r.addr).foldl State.racShareRefused x)
      ∧ (r.op = poolDrop → u.refused r why = v.bufLost r.addr)
      ∧ (r.op = poolFree → u.refused r why = (v.bufLost r.addr).askAgain))
  ∧ (∀ (u : State) (a : Nat), (∀ x ∈ u.accs, x.addr ≠ a) → u.racs = [] →
      u.bufLost a = { u with
        ready := u.ready.filter (!·.inBuf a (((u.pool.bufs.find? (fun b => b.addr == a)).map (·.cls)).getD 0)),
        pool := { u.pool with bufs := u.pool.bufs.filter (fun b => b.addr != a),
                                                   send := u.pool.send.filter (fun r => r.addr != a || r.op == poolAlloc) } })

/-! ### Stores, indices and the medium's format -/

/-- The sparse stores of the state (the model's form of registers and indexed units, log 8): every write keeps the canonical form. Two
stores in canonical form that read alike are the same data. -/
def Obligations.CanonicalStores : Prop :=
  (∀ (α : Type) [DecidableEq α] (d : Nat → α) (t : Tab α) (k : Nat) (v : α), tabWf d t = true → tabWf d (tabPut d t k v) = true)
  ∧ (∀ (α : Type) [DecidableEq α] (d : Nat → α) (t u : Tab α), tabWf d t = true → tabWf d u = true →
     (∀ k, tabGet d t k = tabGet d u k) → t = u)

/-- R194, R195, R197: an index advances by one within its lap and at N turns to 0 of the other lap; equal indices are an empty ring, the
same POS in the other lap a full one of N entries; an advance adds one entry; an entry is valid when its PHASE is 1 - LAP. -/
def Obligations.RingIndices : Prop :=
  ∀ (n h t : Nat), 0 < n → n ≤ 65536 → h < 2 ^ 17 → t < 2 ^ 17 → h % 65536 < n → t % 65536 < n →
    (t % 65536 + 1 < n → ixNext n t = t + 1)
    ∧ (t % 65536 + 1 = n → ixNext n t % 65536 = 0 ∧ ixNext n t / 65536 = 1 - t / 65536)
    ∧ (ixCount n h t = 0 ↔ h = t)
    ∧ (ixCount n h t = n ↔ h % 65536 = t % 65536 ∧ h / 65536 ≠ t / 65536)
    ∧ (ixCount n h t < n → ixCount n h (ixNext n t) = ixCount n h t + 1)
    ∧ (∀ d : Desc, fresh t d = true ↔ (dPhase d).toNat = 1 - t / 65536)

/-- R62, R391: a run cut into requests at every 4 KiB boundary. No request crosses one or is empty, each begins where the one before it
ended, and together they carry the run. -/
def Obligations.RequestsKeepToPages : Prop :=
  ∀ (a n : Nat), 0 < n →
    let l := cutRun (n / 4096 + 2) (a, n)
    (∀ p ∈ l, 0 < p.2 ∧ p.1 / 4096 = (p.1 + p.2 - 1) / 4096)
    ∧ (∀ i, i + 1 < l.length → (l.getD (i + 1) (0, 0)).1 = (l.getD i (0, 0)).1 + (l.getD i (0, 0)).2)
    ∧ (l.headD (0, 0)).1 = a ∧ (l.map (·.2)).sum = n

/-- R273 to R276, R282: scrambling twice with one seed gives back the information, and a stored code word that comes in is unscrambled to
its plain information. -/
def Obligations.ScramblerGivesBack : Prop :=
  ∀ (m : Nat) (seed : Word32) (info : List Byte), info.length = infoBytes →
    xorBytes (xorBytes info (keystream infoBytes seed)) (keystream infoBytes seed) = info
    ∧ (unscramble m (some seed) (storedForm m seed info)).take infoBytes = info

/-- R277 to R280: the encoder's parity satisfies every check of H, whatever the information and the number of block rows. -/
def Obligations.EncoderSatisfiesChecks : Prop :=
  ∀ (m : Nat) (info : List Byte), 4 ≤ m → info.length = infoBytes → ldpcWeight m (info ++ ldpcParity m info) = 0

/-- R316, R318: with two data members x and y of a row missing, what P and Q leave of them gives member x back, byte by byte; with P and
member x missing, Q alone gives it. -/
def Obligations.MissingMembersAreSolved : Prop :=
  ∀ (x y : Nat) (dx dy : List Byte), x < 32 → y < 32 → x ≠ y → dx.length = dy.length →
    solveTwo x y (xorBytes dx dy) (xorBytes (dx.map (gfShift x)) (dy.map (gfShift y))) = dx
    ∧ solveQ x (dx.map (gfShift x)) = dx
end

