-- ==== Sys2Proof/Laws/Tab.lean ====
section
/-! SUPPORT. Reading a sparse store after a write. -/

namespace Sys2Proof.Machine

theorem tabGet_tabDrop_ne {α : Type} (d : Nat → α) {k j : Nat} (h : j ≠ k) (t : Tab α) :
    tabGet d (tabDrop k t) j = tabGet d t j := by
  induction t with
  | nil => rfl
  | cons e r ih =>
    obtain ⟨i, v⟩ := e
    unfold tabDrop at *
    by_cases hi : i = k
    · have hj : i ≠ j := fun h' => h (h' ▸ hi)
      simp [hi, tabGet, ih, Ne.symm h]
    · simp [hi, tabGet, ih]

theorem tabGet_tabDrop_self {α : Type} (d : Nat → α) (k : Nat) (t : Tab α) : tabGet d (tabDrop k t) k = d k := by
  induction t with
  | nil => rfl
  | cons e r ih =>
    obtain ⟨i, v⟩ := e
    unfold tabDrop at *
    by_cases hi : i = k <;> simp [hi, tabGet, ih]

theorem tabGet_tabIns {α : Type} (d : Nat → α) (k : Nat) (v : α) (t : Tab α) (h : ∀ e ∈ t, e.1 ≠ k) (j : Nat) :
    tabGet d (tabIns k v t) j = if k = j then v else tabGet d t j := by
  induction t with
  | nil => rfl
  | cons e r ih =>
    obtain ⟨i, w⟩ := e
    have hr := ih fun e he => h e (List.mem_cons_of_mem _ he)
    have hi : i ≠ k := h (i, w) List.mem_cons_self
    unfold tabIns
    split
    · rfl
    · simp only [tabGet, hr]
      grind

/-- What is written is read; every other index reads as before. -/
theorem tabGet_tabPut {α : Type} [DecidableEq α] (d : Nat → α) (t : Tab α) (k : Nat) (v : α) (j : Nat) :
    tabGet d (tabPut d t k v) j = if k = j then v else tabGet d t j := by
  unfold tabPut
  split
  · rename_i hv
    by_cases hj : k = j
    · subst hj; simp [tabGet_tabDrop_self, hv]
    · simp [hj, tabGet_tabDrop_ne d (Ne.symm hj)]
  · rw [tabGet_tabIns d k v _ (by simp [tabDrop])]
    by_cases hj : k = j
    · simp [hj]
    · simp [hj, tabGet_tabDrop_ne d (Ne.symm hj)]

theorem tabGet_tabMod {α : Type} [DecidableEq α] (d : Nat → α) (t : Tab α) (k : Nat) (f : α → α) (j : Nat) :
    tabGet d (tabMod d t k f) j = if k = j then f (tabGet d t k) else tabGet d t j := tabGet_tabPut ..

end Sys2Proof.Machine
end

