-- ==== Sys2Proof/Laws/State.lean ====
section
/-! SUPPORT. Each named update of the state and each field: what the update names reads as written, every other field stays. -/

namespace Sys2Proof.Machine

variable (s : State)

/-! ### What an update writes -/

theorem State.reg_setReg (a : Nat) (w : Word32) (b : Nat) : (s.setReg a w).reg b = if a = b then w else s.reg b := tabGet_tabPut ..
@[simp] theorem State.reg_setReg_self (a : Nat) (w : Word32) : (s.setReg a w).reg a = w := by simp [State.reg_setReg]
theorem State.reg_setReg_ne {a b : Nat} (h : a ≠ b) (w : Word32) : (s.setReg a w).reg b = s.reg b := by simp [State.reg_setReg, h]
/-- A field of another register keeps its value. -/
theorem State.get_put_ne {f g : Fld} (h : f.adr ≠ g.adr) (v : Nat) : (s.put f v).get g = s.get g := by
  unfold State.get State.put; rw [State.reg_setReg_ne s h]
theorem State.on_put_ne {f g : Fld} (h : f.adr ≠ g.adr) (v : Nat) : (s.put f v).on g = s.on g := by
  unfold State.on; rw [State.get_put_ne s h]
theorem State.sqOf_modSq (i : Nat) (f : Sq → Sq) (j : Nat) : (s.modSq i f).sqOf j = if i = j then f (s.sqOf i) else s.sqOf j := tabGet_tabMod ..
theorem State.cqOf_modCq (i : Nat) (f : Cq → Cq) (j : Nat) : (s.modCq i f).cqOf j = if i = j then f (s.cqOf i) else s.cqOf j := tabGet_tabMod ..
theorem State.tagOf_modTag (i : Nat) (f : Tag → Tag) (j : Nat) : (s.modTag i f).tagOf j = if i = j then f (s.tagOf i) else s.tagOf j := tabGet_tabMod ..
theorem State.ringOf_modRing (i : Nat) (f : Ring → Ring) (j : Nat) : (s.modRing i f).ringOf j = if i = j then f (s.ringOf i) else s.ringOf j := tabGet_tabMod ..
theorem State.lunOf_modLun (i : Nat) (f : Lun → Lun) (j : Nat) : (s.modLun i f).lunOf j = if i = j then f (s.lunOf i) else s.lunOf j := tabGet_tabMod ..
theorem State.chanOf_modChan (i : Nat) (f : Chan → Chan) (j : Nat) : (s.modChan i f).chanOf j = if i = j then f (s.chanOf i) else s.chanOf j := tabGet_tabMod ..
theorem State.ctxOf_modCtx (i : Nat) (f : Ctx → Ctx) (j : Nat) : (s.modCtx i f).ctxOf j = if i = j then f (s.ctxOf i) else s.ctxOf j := tabGet_tabMod ..
theorem State.quadOf_modQuad (i : Nat) (f : Quad → Quad) (j : Nat) : (s.modQuad i f).quadOf j = if i = j then f (s.quadOf i) else s.quadOf j := tabGet_tabMod ..
theorem State.stripeOf_modStripe (i : Nat) (f : Stripe → Stripe) (j : Nat) : (s.modStripe i f).stripeOf j = if i = j then f (s.stripeOf i) else s.stripeOf j := tabGet_tabMod ..
theorem State.sliceOf_modSlice (i : Nat) (f : Slice → Slice) (j : Nat) : (s.modSlice i f).sliceOf j = if i = j then f (s.sliceOf i) else s.sliceOf j := tabGet_tabMod ..
@[simp] theorem State.later_todo (x : Todo) : (s.later x).todo = s.todo ++ [x] := rfl

/-! ### What an update leaves -/

@[simp] theorem State.setReg_pending (a : Nat) (w : Word32) : (s.setReg a w).pending = s.pending := rfl
@[simp] theorem State.setReg_freeCount (a : Nat) (w : Word32) : (s.setReg a w).freeCount = s.freeCount := rfl
@[simp] theorem State.setReg_pins (a : Nat) (w : Word32) : (s.setReg a w).pins = s.pins := rfl
@[simp] theorem State.setReg_tet (a : Nat) (w : Word32) : (s.setReg a w).tet = s.tet := rfl
@[simp] theorem State.setReg_halted (a : Nat) (w : Word32) : (s.setReg a w).halted = s.halted := rfl
@[simp] theorem State.setReg_sqs (a : Nat) (w : Word32) : (s.setReg a w).sqs = s.sqs := rfl
@[simp] theorem State.setReg_cqs (a : Nat) (w : Word32) : (s.setReg a w).cqs = s.cqs := rfl
@[simp] theorem State.setReg_tags (a : Nat) (w : Word32) : (s.setReg a w).tags = s.tags := rfl
@[simp] theorem State.setReg_cos (a : Nat) (w : Word32) : (s.setReg a w).cos = s.cos := rfl
@[simp] theorem State.setReg_parked (a : Nat) (w : Word32) : (s.setReg a w).parked = s.parked := rfl
@[simp] theorem State.setReg_todo (a : Nat) (w : Word32) : (s.setReg a w).todo = s.todo := rfl
@[simp] theorem State.setReg_held (a : Nat) (w : Word32) : (s.setReg a w).held = s.held := rfl
@[simp] theorem State.setReg_intakeSeq (a : Nat) (w : Word32) : (s.setReg a w).intakeSeq = s.intakeSeq := rfl
@[simp] theorem State.setReg_rrSq (a : Nat) (w : Word32) : (s.setReg a w).rrSq = s.rrSq := rfl
@[simp] theorem State.setReg_wakeSeq (a : Nat) (w : Word32) : (s.setReg a w).wakeSeq = s.wakeSeq := rfl
@[simp] theorem State.setReg_rings (a : Nat) (w : Word32) : (s.setReg a w).rings = s.rings := rfl
@[simp] theorem State.setReg_snaps (a : Nat) (w : Word32) : (s.setReg a w).snaps = s.snaps := rfl
@[simp] theorem State.setReg_luns (a : Nat) (w : Word32) : (s.setReg a w).luns = s.luns := rfl
@[simp] theorem State.setReg_chans (a : Nat) (w : Word32) : (s.setReg a w).chans = s.chans := rfl
@[simp] theorem State.setReg_ctxs (a : Nat) (w : Word32) : (s.setReg a w).ctxs = s.ctxs := rfl
@[simp] theorem State.setReg_quads (a : Nat) (w : Word32) : (s.setReg a w).quads = s.quads := rfl
@[simp] theorem State.setReg_pat0 (a : Nat) (w : Word32) : (s.setReg a w).pat0 = s.pat0 := rfl
@[simp] theorem State.setReg_pat1 (a : Nat) (w : Word32) : (s.setReg a w).pat1 = s.pat1 := rfl
@[simp] theorem State.setReg_force (a : Nat) (w : Word32) : (s.setReg a w).force = s.force := rfl
@[simp] theorem State.setReg_checking (a : Nat) (w : Word32) : (s.setReg a w).checking = s.checking := rfl
@[simp] theorem State.setReg_stripes (a : Nat) (w : Word32) : (s.setReg a w).stripes = s.stripes := rfl
@[simp] theorem State.setReg_rows (a : Nat) (w : Word32) : (s.setReg a w).rows = s.rows := rfl
@[simp] theorem State.setReg_accs (a : Nat) (w : Word32) : (s.setReg a w).accs = s.accs := rfl
@[simp] theorem State.setReg_ops (a : Nat) (w : Word32) : (s.setReg a w).ops = s.ops := rfl
@[simp] theorem State.setReg_jobs (a : Nat) (w : Word32) : (s.setReg a w).jobs = s.jobs := rfl
@[simp] theorem State.setReg_jobSeq (a : Nat) (w : Word32) : (s.setReg a w).jobSeq = s.jobSeq := rfl
@[simp] theorem State.setReg_slices (a : Nat) (w : Word32) : (s.setReg a w).slices = s.slices := rfl
@[simp] theorem State.setReg_rlh (a : Nat) (w : Word32) : (s.setReg a w).rlh = s.rlh := rfl
@[simp] theorem State.setReg_ready (a : Nat) (w : Word32) : (s.setReg a w).ready = s.ready := rfl
@[simp] theorem State.setReg_flying (a : Nat) (w : Word32) : (s.setReg a w).flying = s.flying := rfl
@[simp] theorem State.setReg_pool (a : Nat) (w : Word32) : (s.setReg a w).pool = s.pool := rfl
@[simp] theorem State.setReg_subs (a : Nat) (w : Word32) : (s.setReg a w).subs = s.subs := rfl
@[simp] theorem State.setReg_racs (a : Nat) (w : Word32) : (s.setReg a w).racs = s.racs := rfl
@[simp] theorem State.setReg_reads (a : Nat) (w : Word32) : (s.setReg a w).reads = s.reads := rfl
@[simp] theorem State.setReg_nextId (a : Nat) (w : Word32) : (s.setReg a w).nextId = s.nextId := rfl
@[simp] theorem State.setReg_freset (a : Nat) (w : Word32) : (s.setReg a w).freset = s.freset := rfl
@[simp] theorem State.setReg_ballast (a : Nat) (w : Word32) : (s.setReg a w).ballast = s.ballast := rfl
@[simp] theorem State.modSq_pending (i : Nat) (f : Sq → Sq) : (s.modSq i f).pending = s.pending := rfl
@[simp] theorem State.modSq_freeCount (i : Nat) (f : Sq → Sq) : (s.modSq i f).freeCount = s.freeCount := rfl
@[simp] theorem State.modSq_pins (i : Nat) (f : Sq → Sq) : (s.modSq i f).pins = s.pins := rfl
@[simp] theorem State.modSq_regs (i : Nat) (f : Sq → Sq) : (s.modSq i f).regs = s.regs := rfl
@[simp] theorem State.modSq_tet (i : Nat) (f : Sq → Sq) : (s.modSq i f).tet = s.tet := rfl
@[simp] theorem State.modSq_halted (i : Nat) (f : Sq → Sq) : (s.modSq i f).halted = s.halted := rfl
@[simp] theorem State.modSq_cqs (i : Nat) (f : Sq → Sq) : (s.modSq i f).cqs = s.cqs := rfl
@[simp] theorem State.modSq_tags (i : Nat) (f : Sq → Sq) : (s.modSq i f).tags = s.tags := rfl
@[simp] theorem State.modSq_cos (i : Nat) (f : Sq → Sq) : (s.modSq i f).cos = s.cos := rfl
@[simp] theorem State.modSq_parked (i : Nat) (f : Sq → Sq) : (s.modSq i f).parked = s.parked := rfl
@[simp] theorem State.modSq_todo (i : Nat) (f : Sq → Sq) : (s.modSq i f).todo = s.todo := rfl
@[simp] theorem State.modSq_held (i : Nat) (f : Sq → Sq) : (s.modSq i f).held = s.held := rfl
@[simp] theorem State.modSq_intakeSeq (i : Nat) (f : Sq → Sq) : (s.modSq i f).intakeSeq = s.intakeSeq := rfl
@[simp] theorem State.modSq_rrSq (i : Nat) (f : Sq → Sq) : (s.modSq i f).rrSq = s.rrSq := rfl
@[simp] theorem State.modSq_wakeSeq (i : Nat) (f : Sq → Sq) : (s.modSq i f).wakeSeq = s.wakeSeq := rfl
@[simp] theorem State.modSq_rings (i : Nat) (f : Sq → Sq) : (s.modSq i f).rings = s.rings := rfl
@[simp] theorem State.modSq_snaps (i : Nat) (f : Sq → Sq) : (s.modSq i f).snaps = s.snaps := rfl
@[simp] theorem State.modSq_luns (i : Nat) (f : Sq → Sq) : (s.modSq i f).luns = s.luns := rfl
@[simp] theorem State.modSq_chans (i : Nat) (f : Sq → Sq) : (s.modSq i f).chans = s.chans := rfl
@[simp] theorem State.modSq_ctxs (i : Nat) (f : Sq → Sq) : (s.modSq i f).ctxs = s.ctxs := rfl
@[simp] theorem State.modSq_quads (i : Nat) (f : Sq → Sq) : (s.modSq i f).quads = s.quads := rfl
@[simp] theorem State.modSq_pat0 (i : Nat) (f : Sq → Sq) : (s.modSq i f).pat0 = s.pat0 := rfl
@[simp] theorem State.modSq_pat1 (i : Nat) (f : Sq → Sq) : (s.modSq i f).pat1 = s.pat1 := rfl
@[simp] theorem State.modSq_force (i : Nat) (f : Sq → Sq) : (s.modSq i f).force = s.force := rfl
@[simp] theorem State.modSq_checking (i : Nat) (f : Sq → Sq) : (s.modSq i f).checking = s.checking := rfl
@[simp] theorem State.modSq_stripes (i : Nat) (f : Sq → Sq) : (s.modSq i f).stripes = s.stripes := rfl
@[simp] theorem State.modSq_rows (i : Nat) (f : Sq → Sq) : (s.modSq i f).rows = s.rows := rfl
@[simp] theorem State.modSq_accs (i : Nat) (f : Sq → Sq) : (s.modSq i f).accs = s.accs := rfl
@[simp] theorem State.modSq_ops (i : Nat) (f : Sq → Sq) : (s.modSq i f).ops = s.ops := rfl
@[simp] theorem State.modSq_jobs (i : Nat) (f : Sq → Sq) : (s.modSq i f).jobs = s.jobs := rfl
@[simp] theorem State.modSq_jobSeq (i : Nat) (f : Sq → Sq) : (s.modSq i f).jobSeq = s.jobSeq := rfl
@[simp] theorem State.modSq_slices (i : Nat) (f : Sq → Sq) : (s.modSq i f).slices = s.slices := rfl
@[simp] theorem State.modSq_rlh (i : Nat) (f : Sq → Sq) : (s.modSq i f).rlh = s.rlh := rfl
@[simp] theorem State.modSq_ready (i : Nat) (f : Sq → Sq) : (s.modSq i f).ready = s.ready := rfl
@[simp] theorem State.modSq_flying (i : Nat) (f : Sq → Sq) : (s.modSq i f).flying = s.flying := rfl
@[simp] theorem State.modSq_pool (i : Nat) (f : Sq → Sq) : (s.modSq i f).pool = s.pool := rfl
@[simp] theorem State.modSq_subs (i : Nat) (f : Sq → Sq) : (s.modSq i f).subs = s.subs := rfl
@[simp] theorem State.modSq_racs (i : Nat) (f : Sq → Sq) : (s.modSq i f).racs = s.racs := rfl
@[simp] theorem State.modSq_reads (i : Nat) (f : Sq → Sq) : (s.modSq i f).reads = s.reads := rfl
@[simp] theorem State.modSq_nextId (i : Nat) (f : Sq → Sq) : (s.modSq i f).nextId = s.nextId := rfl
@[simp] theorem State.modSq_freset (i : Nat) (f : Sq → Sq) : (s.modSq i f).freset = s.freset := rfl
@[simp] theorem State.modSq_ballast (i : Nat) (f : Sq → Sq) : (s.modSq i f).ballast = s.ballast := rfl
@[simp] theorem State.modCq_pending (i : Nat) (f : Cq → Cq) : (s.modCq i f).pending = s.pending := rfl
@[simp] theorem State.modCq_freeCount (i : Nat) (f : Cq → Cq) : (s.modCq i f).freeCount = s.freeCount := rfl
@[simp] theorem State.modCq_pins (i : Nat) (f : Cq → Cq) : (s.modCq i f).pins = s.pins := rfl
@[simp] theorem State.modCq_regs (i : Nat) (f : Cq → Cq) : (s.modCq i f).regs = s.regs := rfl
@[simp] theorem State.modCq_tet (i : Nat) (f : Cq → Cq) : (s.modCq i f).tet = s.tet := rfl
@[simp] theorem State.modCq_halted (i : Nat) (f : Cq → Cq) : (s.modCq i f).halted = s.halted := rfl
@[simp] theorem State.modCq_sqs (i : Nat) (f : Cq → Cq) : (s.modCq i f).sqs = s.sqs := rfl
@[simp] theorem State.modCq_tags (i : Nat) (f : Cq → Cq) : (s.modCq i f).tags = s.tags := rfl
@[simp] theorem State.modCq_cos (i : Nat) (f : Cq → Cq) : (s.modCq i f).cos = s.cos := rfl
@[simp] theorem State.modCq_parked (i : Nat) (f : Cq → Cq) : (s.modCq i f).parked = s.parked := rfl
@[simp] theorem State.modCq_todo (i : Nat) (f : Cq → Cq) : (s.modCq i f).todo = s.todo := rfl
@[simp] theorem State.modCq_held (i : Nat) (f : Cq → Cq) : (s.modCq i f).held = s.held := rfl
@[simp] theorem State.modCq_intakeSeq (i : Nat) (f : Cq → Cq) : (s.modCq i f).intakeSeq = s.intakeSeq := rfl
@[simp] theorem State.modCq_rrSq (i : Nat) (f : Cq → Cq) : (s.modCq i f).rrSq = s.rrSq := rfl
@[simp] theorem State.modCq_wakeSeq (i : Nat) (f : Cq → Cq) : (s.modCq i f).wakeSeq = s.wakeSeq := rfl
@[simp] theorem State.modCq_rings (i : Nat) (f : Cq → Cq) : (s.modCq i f).rings = s.rings := rfl
@[simp] theorem State.modCq_snaps (i : Nat) (f : Cq → Cq) : (s.modCq i f).snaps = s.snaps := rfl
@[simp] theorem State.modCq_luns (i : Nat) (f : Cq → Cq) : (s.modCq i f).luns = s.luns := rfl
@[simp] theorem State.modCq_chans (i : Nat) (f : Cq → Cq) : (s.modCq i f).chans = s.chans := rfl
@[simp] theorem State.modCq_ctxs (i : Nat) (f : Cq → Cq) : (s.modCq i f).ctxs = s.ctxs := rfl
@[simp] theorem State.modCq_quads (i : Nat) (f : Cq → Cq) : (s.modCq i f).quads = s.quads := rfl
@[simp] theorem State.modCq_pat0 (i : Nat) (f : Cq → Cq) : (s.modCq i f).pat0 = s.pat0 := rfl
@[simp] theorem State.modCq_pat1 (i : Nat) (f : Cq → Cq) : (s.modCq i f).pat1 = s.pat1 := rfl
@[simp] theorem State.modCq_force (i : Nat) (f : Cq → Cq) : (s.modCq i f).force = s.force := rfl
@[simp] theorem State.modCq_checking (i : Nat) (f : Cq → Cq) : (s.modCq i f).checking = s.checking := rfl
@[simp] theorem State.modCq_stripes (i : Nat) (f : Cq → Cq) : (s.modCq i f).stripes = s.stripes := rfl
@[simp] theorem State.modCq_rows (i : Nat) (f : Cq → Cq) : (s.modCq i f).rows = s.rows := rfl
@[simp] theorem State.modCq_accs (i : Nat) (f : Cq → Cq) : (s.modCq i f).accs = s.accs := rfl
@[simp] theorem State.modCq_ops (i : Nat) (f : Cq → Cq) : (s.modCq i f).ops = s.ops := rfl
@[simp] theorem State.modCq_jobs (i : Nat) (f : Cq → Cq) : (s.modCq i f).jobs = s.jobs := rfl
@[simp] theorem State.modCq_jobSeq (i : Nat) (f : Cq → Cq) : (s.modCq i f).jobSeq = s.jobSeq := rfl
@[simp] theorem State.modCq_slices (i : Nat) (f : Cq → Cq) : (s.modCq i f).slices = s.slices := rfl
@[simp] theorem State.modCq_rlh (i : Nat) (f : Cq → Cq) : (s.modCq i f).rlh = s.rlh := rfl
@[simp] theorem State.modCq_ready (i : Nat) (f : Cq → Cq) : (s.modCq i f).ready = s.ready := rfl
@[simp] theorem State.modCq_flying (i : Nat) (f : Cq → Cq) : (s.modCq i f).flying = s.flying := rfl
@[simp] theorem State.modCq_pool (i : Nat) (f : Cq → Cq) : (s.modCq i f).pool = s.pool := rfl
@[simp] theorem State.modCq_subs (i : Nat) (f : Cq → Cq) : (s.modCq i f).subs = s.subs := rfl
@[simp] theorem State.modCq_racs (i : Nat) (f : Cq → Cq) : (s.modCq i f).racs = s.racs := rfl
@[simp] theorem State.modCq_reads (i : Nat) (f : Cq → Cq) : (s.modCq i f).reads = s.reads := rfl
@[simp] theorem State.modCq_nextId (i : Nat) (f : Cq → Cq) : (s.modCq i f).nextId = s.nextId := rfl
@[simp] theorem State.modCq_freset (i : Nat) (f : Cq → Cq) : (s.modCq i f).freset = s.freset := rfl
@[simp] theorem State.modCq_ballast (i : Nat) (f : Cq → Cq) : (s.modCq i f).ballast = s.ballast := rfl
@[simp] theorem State.modTag_pending (i : Nat) (f : Tag → Tag) : (s.modTag i f).pending = s.pending := rfl
@[simp] theorem State.modTag_freeCount (i : Nat) (f : Tag → Tag) : (s.modTag i f).freeCount = s.freeCount := rfl
@[simp] theorem State.modTag_pins (i : Nat) (f : Tag → Tag) : (s.modTag i f).pins = s.pins := rfl
@[simp] theorem State.modTag_regs (i : Nat) (f : Tag → Tag) : (s.modTag i f).regs = s.regs := rfl
@[simp] theorem State.modTag_tet (i : Nat) (f : Tag → Tag) : (s.modTag i f).tet = s.tet := rfl
@[simp] theorem State.modTag_halted (i : Nat) (f : Tag → Tag) : (s.modTag i f).halted = s.halted := rfl
@[simp] theorem State.modTag_sqs (i : Nat) (f : Tag → Tag) : (s.modTag i f).sqs = s.sqs := rfl
@[simp] theorem State.modTag_cqs (i : Nat) (f : Tag → Tag) : (s.modTag i f).cqs = s.cqs := rfl
@[simp] theorem State.modTag_cos (i : Nat) (f : Tag → Tag) : (s.modTag i f).cos = s.cos := rfl
@[simp] theorem State.modTag_parked (i : Nat) (f : Tag → Tag) : (s.modTag i f).parked = s.parked := rfl
@[simp] theorem State.modTag_todo (i : Nat) (f : Tag → Tag) : (s.modTag i f).todo = s.todo := rfl
@[simp] theorem State.modTag_held (i : Nat) (f : Tag → Tag) : (s.modTag i f).held = s.held := rfl
@[simp] theorem State.modTag_intakeSeq (i : Nat) (f : Tag → Tag) : (s.modTag i f).intakeSeq = s.intakeSeq := rfl
@[simp] theorem State.modTag_rrSq (i : Nat) (f : Tag → Tag) : (s.modTag i f).rrSq = s.rrSq := rfl
@[simp] theorem State.modTag_wakeSeq (i : Nat) (f : Tag → Tag) : (s.modTag i f).wakeSeq = s.wakeSeq := rfl
@[simp] theorem State.modTag_rings (i : Nat) (f : Tag → Tag) : (s.modTag i f).rings = s.rings := rfl
@[simp] theorem State.modTag_snaps (i : Nat) (f : Tag → Tag) : (s.modTag i f).snaps = s.snaps := rfl
@[simp] theorem State.modTag_luns (i : Nat) (f : Tag → Tag) : (s.modTag i f).luns = s.luns := rfl
@[simp] theorem State.modTag_chans (i : Nat) (f : Tag → Tag) : (s.modTag i f).chans = s.chans := rfl
@[simp] theorem State.modTag_ctxs (i : Nat) (f : Tag → Tag) : (s.modTag i f).ctxs = s.ctxs := rfl
@[simp] theorem State.modTag_quads (i : Nat) (f : Tag → Tag) : (s.modTag i f).quads = s.quads := rfl
@[simp] theorem State.modTag_pat0 (i : Nat) (f : Tag → Tag) : (s.modTag i f).pat0 = s.pat0 := rfl
@[simp] theorem State.modTag_pat1 (i : Nat) (f : Tag → Tag) : (s.modTag i f).pat1 = s.pat1 := rfl
@[simp] theorem State.modTag_force (i : Nat) (f : Tag → Tag) : (s.modTag i f).force = s.force := rfl
@[simp] theorem State.modTag_checking (i : Nat) (f : Tag → Tag) : (s.modTag i f).checking = s.checking := rfl
@[simp] theorem State.modTag_stripes (i : Nat) (f : Tag → Tag) : (s.modTag i f).stripes = s.stripes := rfl
@[simp] theorem State.modTag_rows (i : Nat) (f : Tag → Tag) : (s.modTag i f).rows = s.rows := rfl
@[simp] theorem State.modTag_accs (i : Nat) (f : Tag → Tag) : (s.modTag i f).accs = s.accs := rfl
@[simp] theorem State.modTag_ops (i : Nat) (f : Tag → Tag) : (s.modTag i f).ops = s.ops := rfl
@[simp] theorem State.modTag_jobs (i : Nat) (f : Tag → Tag) : (s.modTag i f).jobs = s.jobs := rfl
@[simp] theorem State.modTag_jobSeq (i : Nat) (f : Tag → Tag) : (s.modTag i f).jobSeq = s.jobSeq := rfl
@[simp] theorem State.modTag_slices (i : Nat) (f : Tag → Tag) : (s.modTag i f).slices = s.slices := rfl
@[simp] theorem State.modTag_rlh (i : Nat) (f : Tag → Tag) : (s.modTag i f).rlh = s.rlh := rfl
@[simp] theorem State.modTag_ready (i : Nat) (f : Tag → Tag) : (s.modTag i f).ready = s.ready := rfl
@[simp] theorem State.modTag_flying (i : Nat) (f : Tag → Tag) : (s.modTag i f).flying = s.flying := rfl
@[simp] theorem State.modTag_pool (i : Nat) (f : Tag → Tag) : (s.modTag i f).pool = s.pool := rfl
@[simp] theorem State.modTag_subs (i : Nat) (f : Tag → Tag) : (s.modTag i f).subs = s.subs := rfl
@[simp] theorem State.modTag_racs (i : Nat) (f : Tag → Tag) : (s.modTag i f).racs = s.racs := rfl
@[simp] theorem State.modTag_reads (i : Nat) (f : Tag → Tag) : (s.modTag i f).reads = s.reads := rfl
@[simp] theorem State.modTag_nextId (i : Nat) (f : Tag → Tag) : (s.modTag i f).nextId = s.nextId := rfl
@[simp] theorem State.modTag_freset (i : Nat) (f : Tag → Tag) : (s.modTag i f).freset = s.freset := rfl
@[simp] theorem State.modTag_ballast (i : Nat) (f : Tag → Tag) : (s.modTag i f).ballast = s.ballast := rfl
@[simp] theorem State.modRing_pending (i : Nat) (f : Ring → Ring) : (s.modRing i f).pending = s.pending := rfl
@[simp] theorem State.modRing_freeCount (i : Nat) (f : Ring → Ring) : (s.modRing i f).freeCount = s.freeCount := rfl
@[simp] theorem State.modRing_pins (i : Nat) (f : Ring → Ring) : (s.modRing i f).pins = s.pins := rfl
@[simp] theorem State.modRing_regs (i : Nat) (f : Ring → Ring) : (s.modRing i f).regs = s.regs := rfl
@[simp] theorem State.modRing_tet (i : Nat) (f : Ring → Ring) : (s.modRing i f).tet = s.tet := rfl
@[simp] theorem State.modRing_halted (i : Nat) (f : Ring → Ring) : (s.modRing i f).halted = s.halted := rfl
@[simp] theorem State.modRing_sqs (i : Nat) (f : Ring → Ring) : (s.modRing i f).sqs = s.sqs := rfl
@[simp] theorem State.modRing_cqs (i : Nat) (f : Ring → Ring) : (s.modRing i f).cqs = s.cqs := rfl
@[simp] theorem State.modRing_tags (i : Nat) (f : Ring → Ring) : (s.modRing i f).tags = s.tags := rfl
@[simp] theorem State.modRing_cos (i : Nat) (f : Ring → Ring) : (s.modRing i f).cos = s.cos := rfl
@[simp] theorem State.modRing_parked (i : Nat) (f : Ring → Ring) : (s.modRing i f).parked = s.parked := rfl
@[simp] theorem State.modRing_todo (i : Nat) (f : Ring → Ring) : (s.modRing i f).todo = s.todo := rfl
@[simp] theorem State.modRing_held (i : Nat) (f : Ring → Ring) : (s.modRing i f).held = s.held := rfl
@[simp] theorem State.modRing_intakeSeq (i : Nat) (f : Ring → Ring) : (s.modRing i f).intakeSeq = s.intakeSeq := rfl
@[simp] theorem State.modRing_rrSq (i : Nat) (f : Ring → Ring) : (s.modRing i f).rrSq = s.rrSq := rfl
@[simp] theorem State.modRing_wakeSeq (i : Nat) (f : Ring → Ring) : (s.modRing i f).wakeSeq = s.wakeSeq := rfl
@[simp] theorem State.modRing_snaps (i : Nat) (f : Ring → Ring) : (s.modRing i f).snaps = s.snaps := rfl
@[simp] theorem State.modRing_luns (i : Nat) (f : Ring → Ring) : (s.modRing i f).luns = s.luns := rfl
@[simp] theorem State.modRing_chans (i : Nat) (f : Ring → Ring) : (s.modRing i f).chans = s.chans := rfl
@[simp] theorem State.modRing_ctxs (i : Nat) (f : Ring → Ring) : (s.modRing i f).ctxs = s.ctxs := rfl
@[simp] theorem State.modRing_quads (i : Nat) (f : Ring → Ring) : (s.modRing i f).quads = s.quads := rfl
@[simp] theorem State.modRing_pat0 (i : Nat) (f : Ring → Ring) : (s.modRing i f).pat0 = s.pat0 := rfl
@[simp] theorem State.modRing_pat1 (i : Nat) (f : Ring → Ring) : (s.modRing i f).pat1 = s.pat1 := rfl
@[simp] theorem State.modRing_force (i : Nat) (f : Ring → Ring) : (s.modRing i f).force = s.force := rfl
@[simp] theorem State.modRing_checking (i : Nat) (f : Ring → Ring) : (s.modRing i f).checking = s.checking := rfl
@[simp] theorem State.modRing_stripes (i : Nat) (f : Ring → Ring) : (s.modRing i f).stripes = s.stripes := rfl
@[simp] theorem State.modRing_rows (i : Nat) (f : Ring → Ring) : (s.modRing i f).rows = s.rows := rfl
@[simp] theorem State.modRing_accs (i : Nat) (f : Ring → Ring) : (s.modRing i f).accs = s.accs := rfl
@[simp] theorem State.modRing_ops (i : Nat) (f : Ring → Ring) : (s.modRing i f).ops = s.ops := rfl
@[simp] theorem State.modRing_jobs (i : Nat) (f : Ring → Ring) : (s.modRing i f).jobs = s.jobs := rfl
@[simp] theorem State.modRing_jobSeq (i : Nat) (f : Ring → Ring) : (s.modRing i f).jobSeq = s.jobSeq := rfl
@[simp] theorem State.modRing_slices (i : Nat) (f : Ring → Ring) : (s.modRing i f).slices = s.slices := rfl
@[simp] theorem State.modRing_rlh (i : Nat) (f : Ring → Ring) : (s.modRing i f).rlh = s.rlh := rfl
@[simp] theorem State.modRing_ready (i : Nat) (f : Ring → Ring) : (s.modRing i f).ready = s.ready := rfl
@[simp] theorem State.modRing_flying (i : Nat) (f : Ring → Ring) : (s.modRing i f).flying = s.flying := rfl
@[simp] theorem State.modRing_pool (i : Nat) (f : Ring → Ring) : (s.modRing i f).pool = s.pool := rfl
@[simp] theorem State.modRing_subs (i : Nat) (f : Ring → Ring) : (s.modRing i f).subs = s.subs := rfl
@[simp] theorem State.modRing_racs (i : Nat) (f : Ring → Ring) : (s.modRing i f).racs = s.racs := rfl
@[simp] theorem State.modRing_reads (i : Nat) (f : Ring → Ring) : (s.modRing i f).reads = s.reads := rfl
@[simp] theorem State.modRing_nextId (i : Nat) (f : Ring → Ring) : (s.modRing i f).nextId = s.nextId := rfl
@[simp] theorem State.modRing_freset (i : Nat) (f : Ring → Ring) : (s.modRing i f).freset = s.freset := rfl
@[simp] theorem State.modRing_ballast (i : Nat) (f : Ring → Ring) : (s.modRing i f).ballast = s.ballast := rfl
@[simp] theorem State.modLun_pending (i : Nat) (f : Lun → Lun) : (s.modLun i f).pending = s.pending := rfl
@[simp] theorem State.modLun_freeCount (i : Nat) (f : Lun → Lun) : (s.modLun i f).freeCount = s.freeCount := rfl
@[simp] theorem State.modLun_pins (i : Nat) (f : Lun → Lun) : (s.modLun i f).pins = s.pins := rfl
@[simp] theorem State.modLun_regs (i : Nat) (f : Lun → Lun) : (s.modLun i f).regs = s.regs := rfl
@[simp] theorem State.modLun_tet (i : Nat) (f : Lun → Lun) : (s.modLun i f).tet = s.tet := rfl
@[simp] theorem State.modLun_halted (i : Nat) (f : Lun → Lun) : (s.modLun i f).halted = s.halted := rfl
@[simp] theorem State.modLun_sqs (i : Nat) (f : Lun → Lun) : (s.modLun i f).sqs = s.sqs := rfl
@[simp] theorem State.modLun_cqs (i : Nat) (f : Lun → Lun) : (s.modLun i f).cqs = s.cqs := rfl
@[simp] theorem State.modLun_tags (i : Nat) (f : Lun → Lun) : (s.modLun i f).tags = s.tags := rfl
@[simp] theorem State.modLun_cos (i : Nat) (f : Lun → Lun) : (s.modLun i f).cos = s.cos := rfl
@[simp] theorem State.modLun_parked (i : Nat) (f : Lun → Lun) : (s.modLun i f).parked = s.parked := rfl
@[simp] theorem State.modLun_todo (i : Nat) (f : Lun → Lun) : (s.modLun i f).todo = s.todo := rfl
@[simp] theorem State.modLun_held (i : Nat) (f : Lun → Lun) : (s.modLun i f).held = s.held := rfl
@[simp] theorem State.modLun_intakeSeq (i : Nat) (f : Lun → Lun) : (s.modLun i f).intakeSeq = s.intakeSeq := rfl
@[simp] theorem State.modLun_rrSq (i : Nat) (f : Lun → Lun) : (s.modLun i f).rrSq = s.rrSq := rfl
@[simp] theorem State.modLun_wakeSeq (i : Nat) (f : Lun → Lun) : (s.modLun i f).wakeSeq = s.wakeSeq := rfl
@[simp] theorem State.modLun_rings (i : Nat) (f : Lun → Lun) : (s.modLun i f).rings = s.rings := rfl
@[simp] theorem State.modLun_snaps (i : Nat) (f : Lun → Lun) : (s.modLun i f).snaps = s.snaps := rfl
@[simp] theorem State.modLun_chans (i : Nat) (f : Lun → Lun) : (s.modLun i f).chans = s.chans := rfl
@[simp] theorem State.modLun_ctxs (i : Nat) (f : Lun → Lun) : (s.modLun i f).ctxs = s.ctxs := rfl
@[simp] theorem State.modLun_quads (i : Nat) (f : Lun → Lun) : (s.modLun i f).quads = s.quads := rfl
@[simp] theorem State.modLun_pat0 (i : Nat) (f : Lun → Lun) : (s.modLun i f).pat0 = s.pat0 := rfl
@[simp] theorem State.modLun_pat1 (i : Nat) (f : Lun → Lun) : (s.modLun i f).pat1 = s.pat1 := rfl
@[simp] theorem State.modLun_force (i : Nat) (f : Lun → Lun) : (s.modLun i f).force = s.force := rfl
@[simp] theorem State.modLun_checking (i : Nat) (f : Lun → Lun) : (s.modLun i f).checking = s.checking := rfl
@[simp] theorem State.modLun_stripes (i : Nat) (f : Lun → Lun) : (s.modLun i f).stripes = s.stripes := rfl
@[simp] theorem State.modLun_rows (i : Nat) (f : Lun → Lun) : (s.modLun i f).rows = s.rows := rfl
@[simp] theorem State.modLun_accs (i : Nat) (f : Lun → Lun) : (s.modLun i f).accs = s.accs := rfl
@[simp] theorem State.modLun_ops (i : Nat) (f : Lun → Lun) : (s.modLun i f).ops = s.ops := rfl
@[simp] theorem State.modLun_jobs (i : Nat) (f : Lun → Lun) : (s.modLun i f).jobs = s.jobs := rfl
@[simp] theorem State.modLun_jobSeq (i : Nat) (f : Lun → Lun) : (s.modLun i f).jobSeq = s.jobSeq := rfl
@[simp] theorem State.modLun_slices (i : Nat) (f : Lun → Lun) : (s.modLun i f).slices = s.slices := rfl
@[simp] theorem State.modLun_rlh (i : Nat) (f : Lun → Lun) : (s.modLun i f).rlh = s.rlh := rfl
@[simp] theorem State.modLun_ready (i : Nat) (f : Lun → Lun) : (s.modLun i f).ready = s.ready := rfl
@[simp] theorem State.modLun_flying (i : Nat) (f : Lun → Lun) : (s.modLun i f).flying = s.flying := rfl
@[simp] theorem State.modLun_pool (i : Nat) (f : Lun → Lun) : (s.modLun i f).pool = s.pool := rfl
@[simp] theorem State.modLun_subs (i : Nat) (f : Lun → Lun) : (s.modLun i f).subs = s.subs := rfl
@[simp] theorem State.modLun_racs (i : Nat) (f : Lun → Lun) : (s.modLun i f).racs = s.racs := rfl
@[simp] theorem State.modLun_reads (i : Nat) (f : Lun → Lun) : (s.modLun i f).reads = s.reads := rfl
@[simp] theorem State.modLun_nextId (i : Nat) (f : Lun → Lun) : (s.modLun i f).nextId = s.nextId := rfl
@[simp] theorem State.modLun_freset (i : Nat) (f : Lun → Lun) : (s.modLun i f).freset = s.freset := rfl
@[simp] theorem State.modLun_ballast (i : Nat) (f : Lun → Lun) : (s.modLun i f).ballast = s.ballast := rfl
@[simp] theorem State.modChan_pending (i : Nat) (f : Chan → Chan) : (s.modChan i f).pending = s.pending := rfl
@[simp] theorem State.modChan_freeCount (i : Nat) (f : Chan → Chan) : (s.modChan i f).freeCount = s.freeCount := rfl
@[simp] theorem State.modChan_pins (i : Nat) (f : Chan → Chan) : (s.modChan i f).pins = s.pins := rfl
@[simp] theorem State.modChan_regs (i : Nat) (f : Chan → Chan) : (s.modChan i f).regs = s.regs := rfl
@[simp] theorem State.modChan_tet (i : Nat) (f : Chan → Chan) : (s.modChan i f).tet = s.tet := rfl
@[simp] theorem State.modChan_halted (i : Nat) (f : Chan → Chan) : (s.modChan i f).halted = s.halted := rfl
@[simp] theorem State.modChan_sqs (i : Nat) (f : Chan → Chan) : (s.modChan i f).sqs = s.sqs := rfl
@[simp] theorem State.modChan_cqs (i : Nat) (f : Chan → Chan) : (s.modChan i f).cqs = s.cqs := rfl
@[simp] theorem State.modChan_tags (i : Nat) (f : Chan → Chan) : (s.modChan i f).tags = s.tags := rfl
@[simp] theorem State.modChan_cos (i : Nat) (f : Chan → Chan) : (s.modChan i f).cos = s.cos := rfl
@[simp] theorem State.modChan_parked (i : Nat) (f : Chan → Chan) : (s.modChan i f).parked = s.parked := rfl
@[simp] theorem State.modChan_todo (i : Nat) (f : Chan → Chan) : (s.modChan i f).todo = s.todo := rfl
@[simp] theorem State.modChan_held (i : Nat) (f : Chan → Chan) : (s.modChan i f).held = s.held := rfl
@[simp] theorem State.modChan_intakeSeq (i : Nat) (f : Chan → Chan) : (s.modChan i f).intakeSeq = s.intakeSeq := rfl
@[simp] theorem State.modChan_rrSq (i : Nat) (f : Chan → Chan) : (s.modChan i f).rrSq = s.rrSq := rfl
@[simp] theorem State.modChan_wakeSeq (i : Nat) (f : Chan → Chan) : (s.modChan i f).wakeSeq = s.wakeSeq := rfl
@[simp] theorem State.modChan_rings (i : Nat) (f : Chan → Chan) : (s.modChan i f).rings = s.rings := rfl
@[simp] theorem State.modChan_snaps (i : Nat) (f : Chan → Chan) : (s.modChan i f).snaps = s.snaps := rfl
@[simp] theorem State.modChan_luns (i : Nat) (f : Chan → Chan) : (s.modChan i f).luns = s.luns := rfl
@[simp] theorem State.modChan_ctxs (i : Nat) (f : Chan → Chan) : (s.modChan i f).ctxs = s.ctxs := rfl
@[simp] theorem State.modChan_quads (i : Nat) (f : Chan → Chan) : (s.modChan i f).quads = s.quads := rfl
@[simp] theorem State.modChan_pat0 (i : Nat) (f : Chan → Chan) : (s.modChan i f).pat0 = s.pat0 := rfl
@[simp] theorem State.modChan_pat1 (i : Nat) (f : Chan → Chan) : (s.modChan i f).pat1 = s.pat1 := rfl
@[simp] theorem State.modChan_force (i : Nat) (f : Chan → Chan) : (s.modChan i f).force = s.force := rfl
@[simp] theorem State.modChan_checking (i : Nat) (f : Chan → Chan) : (s.modChan i f).checking = s.checking := rfl
@[simp] theorem State.modChan_stripes (i : Nat) (f : Chan → Chan) : (s.modChan i f).stripes = s.stripes := rfl
@[simp] theorem State.modChan_rows (i : Nat) (f : Chan → Chan) : (s.modChan i f).rows = s.rows := rfl
@[simp] theorem State.modChan_accs (i : Nat) (f : Chan → Chan) : (s.modChan i f).accs = s.accs := rfl
@[simp] theorem State.modChan_ops (i : Nat) (f : Chan → Chan) : (s.modChan i f).ops = s.ops := rfl
@[simp] theorem State.modChan_jobs (i : Nat) (f : Chan → Chan) : (s.modChan i f).jobs = s.jobs := rfl
@[simp] theorem State.modChan_jobSeq (i : Nat) (f : Chan → Chan) : (s.modChan i f).jobSeq = s.jobSeq := rfl
@[simp] theorem State.modChan_slices (i : Nat) (f : Chan → Chan) : (s.modChan i f).slices = s.slices := rfl
@[simp] theorem State.modChan_rlh (i : Nat) (f : Chan → Chan) : (s.modChan i f).rlh = s.rlh := rfl
@[simp] theorem State.modChan_ready (i : Nat) (f : Chan → Chan) : (s.modChan i f).ready = s.ready := rfl
@[simp] theorem State.modChan_flying (i : Nat) (f : Chan → Chan) : (s.modChan i f).flying = s.flying := rfl
@[simp] theorem State.modChan_pool (i : Nat) (f : Chan → Chan) : (s.modChan i f).pool = s.pool := rfl
@[simp] theorem State.modChan_subs (i : Nat) (f : Chan → Chan) : (s.modChan i f).subs = s.subs := rfl
@[simp] theorem State.modChan_racs (i : Nat) (f : Chan → Chan) : (s.modChan i f).racs = s.racs := rfl
@[simp] theorem State.modChan_reads (i : Nat) (f : Chan → Chan) : (s.modChan i f).reads = s.reads := rfl
@[simp] theorem State.modChan_nextId (i : Nat) (f : Chan → Chan) : (s.modChan i f).nextId = s.nextId := rfl
@[simp] theorem State.modChan_freset (i : Nat) (f : Chan → Chan) : (s.modChan i f).freset = s.freset := rfl
@[simp] theorem State.modChan_ballast (i : Nat) (f : Chan → Chan) : (s.modChan i f).ballast = s.ballast := rfl
@[simp] theorem State.modCtx_pending (i : Nat) (f : Ctx → Ctx) : (s.modCtx i f).pending = s.pending := rfl
@[simp] theorem State.modCtx_freeCount (i : Nat) (f : Ctx → Ctx) : (s.modCtx i f).freeCount = s.freeCount := rfl
@[simp] theorem State.modCtx_pins (i : Nat) (f : Ctx → Ctx) : (s.modCtx i f).pins = s.pins := rfl
@[simp] theorem State.modCtx_regs (i : Nat) (f : Ctx → Ctx) : (s.modCtx i f).regs = s.regs := rfl
@[simp] theorem State.modCtx_tet (i : Nat) (f : Ctx → Ctx) : (s.modCtx i f).tet = s.tet := rfl
@[simp] theorem State.modCtx_halted (i : Nat) (f : Ctx → Ctx) : (s.modCtx i f).halted = s.halted := rfl
@[simp] theorem State.modCtx_sqs (i : Nat) (f : Ctx → Ctx) : (s.modCtx i f).sqs = s.sqs := rfl
@[simp] theorem State.modCtx_cqs (i : Nat) (f : Ctx → Ctx) : (s.modCtx i f).cqs = s.cqs := rfl
@[simp] theorem State.modCtx_tags (i : Nat) (f : Ctx → Ctx) : (s.modCtx i f).tags = s.tags := rfl
@[simp] theorem State.modCtx_cos (i : Nat) (f : Ctx → Ctx) : (s.modCtx i f).cos = s.cos := rfl
@[simp] theorem State.modCtx_parked (i : Nat) (f : Ctx → Ctx) : (s.modCtx i f).parked = s.parked := rfl
@[simp] theorem State.modCtx_todo (i : Nat) (f : Ctx → Ctx) : (s.modCtx i f).todo = s.todo := rfl
@[simp] theorem State.modCtx_held (i : Nat) (f : Ctx → Ctx) : (s.modCtx i f).held = s.held := rfl
@[simp] theorem State.modCtx_intakeSeq (i : Nat) (f : Ctx → Ctx) : (s.modCtx i f).intakeSeq = s.intakeSeq := rfl
@[simp] theorem State.modCtx_rrSq (i : Nat) (f : Ctx → Ctx) : (s.modCtx i f).rrSq = s.rrSq := rfl
@[simp] theorem State.modCtx_wakeSeq (i : Nat) (f : Ctx → Ctx) : (s.modCtx i f).wakeSeq = s.wakeSeq := rfl
@[simp] theorem State.modCtx_rings (i : Nat) (f : Ctx → Ctx) : (s.modCtx i f).rings = s.rings := rfl
@[simp] theorem State.modCtx_snaps (i : Nat) (f : Ctx → Ctx) : (s.modCtx i f).snaps = s.snaps := rfl
@[simp] theorem State.modCtx_luns (i : Nat) (f : Ctx → Ctx) : (s.modCtx i f).luns = s.luns := rfl
@[simp] theorem State.modCtx_chans (i : Nat) (f : Ctx → Ctx) : (s.modCtx i f).chans = s.chans := rfl
@[simp] theorem State.modCtx_quads (i : Nat) (f : Ctx → Ctx) : (s.modCtx i f).quads = s.quads := rfl
@[simp] theorem State.modCtx_pat0 (i : Nat) (f : Ctx → Ctx) : (s.modCtx i f).pat0 = s.pat0 := rfl
@[simp] theorem State.modCtx_pat1 (i : Nat) (f : Ctx → Ctx) : (s.modCtx i f).pat1 = s.pat1 := rfl
@[simp] theorem State.modCtx_force (i : Nat) (f : Ctx → Ctx) : (s.modCtx i f).force = s.force := rfl
@[simp] theorem State.modCtx_checking (i : Nat) (f : Ctx → Ctx) : (s.modCtx i f).checking = s.checking := rfl
@[simp] theorem State.modCtx_stripes (i : Nat) (f : Ctx → Ctx) : (s.modCtx i f).stripes = s.stripes := rfl
@[simp] theorem State.modCtx_rows (i : Nat) (f : Ctx → Ctx) : (s.modCtx i f).rows = s.rows := rfl
@[simp] theorem State.modCtx_accs (i : Nat) (f : Ctx → Ctx) : (s.modCtx i f).accs = s.accs := rfl
@[simp] theorem State.modCtx_ops (i : Nat) (f : Ctx → Ctx) : (s.modCtx i f).ops = s.ops := rfl
@[simp] theorem State.modCtx_jobs (i : Nat) (f : Ctx → Ctx) : (s.modCtx i f).jobs = s.jobs := rfl
@[simp] theorem State.modCtx_jobSeq (i : Nat) (f : Ctx → Ctx) : (s.modCtx i f).jobSeq = s.jobSeq := rfl
@[simp] theorem State.modCtx_slices (i : Nat) (f : Ctx → Ctx) : (s.modCtx i f).slices = s.slices := rfl
@[simp] theorem State.modCtx_rlh (i : Nat) (f : Ctx → Ctx) : (s.modCtx i f).rlh = s.rlh := rfl
@[simp] theorem State.modCtx_ready (i : Nat) (f : Ctx → Ctx) : (s.modCtx i f).ready = s.ready := rfl
@[simp] theorem State.modCtx_flying (i : Nat) (f : Ctx → Ctx) : (s.modCtx i f).flying = s.flying := rfl
@[simp] theorem State.modCtx_pool (i : Nat) (f : Ctx → Ctx) : (s.modCtx i f).pool = s.pool := rfl
@[simp] theorem State.modCtx_subs (i : Nat) (f : Ctx → Ctx) : (s.modCtx i f).subs = s.subs := rfl
@[simp] theorem State.modCtx_racs (i : Nat) (f : Ctx → Ctx) : (s.modCtx i f).racs = s.racs := rfl
@[simp] theorem State.modCtx_reads (i : Nat) (f : Ctx → Ctx) : (s.modCtx i f).reads = s.reads := rfl
@[simp] theorem State.modCtx_nextId (i : Nat) (f : Ctx → Ctx) : (s.modCtx i f).nextId = s.nextId := rfl
@[simp] theorem State.modCtx_freset (i : Nat) (f : Ctx → Ctx) : (s.modCtx i f).freset = s.freset := rfl
@[simp] theorem State.modCtx_ballast (i : Nat) (f : Ctx → Ctx) : (s.modCtx i f).ballast = s.ballast := rfl
@[simp] theorem State.modQuad_pending (i : Nat) (f : Quad → Quad) : (s.modQuad i f).pending = s.pending := rfl
@[simp] theorem State.modQuad_freeCount (i : Nat) (f : Quad → Quad) : (s.modQuad i f).freeCount = s.freeCount := rfl
@[simp] theorem State.modQuad_pins (i : Nat) (f : Quad → Quad) : (s.modQuad i f).pins = s.pins := rfl
@[simp] theorem State.modQuad_regs (i : Nat) (f : Quad → Quad) : (s.modQuad i f).regs = s.regs := rfl
@[simp] theorem State.modQuad_tet (i : Nat) (f : Quad → Quad) : (s.modQuad i f).tet = s.tet := rfl
@[simp] theorem State.modQuad_halted (i : Nat) (f : Quad → Quad) : (s.modQuad i f).halted = s.halted := rfl
@[simp] theorem State.modQuad_sqs (i : Nat) (f : Quad → Quad) : (s.modQuad i f).sqs = s.sqs := rfl
@[simp] theorem State.modQuad_cqs (i : Nat) (f : Quad → Quad) : (s.modQuad i f).cqs = s.cqs := rfl
@[simp] theorem State.modQuad_tags (i : Nat) (f : Quad → Quad) : (s.modQuad i f).tags = s.tags := rfl
@[simp] theorem State.modQuad_cos (i : Nat) (f : Quad → Quad) : (s.modQuad i f).cos = s.cos := rfl
@[simp] theorem State.modQuad_parked (i : Nat) (f : Quad → Quad) : (s.modQuad i f).parked = s.parked := rfl
@[simp] theorem State.modQuad_todo (i : Nat) (f : Quad → Quad) : (s.modQuad i f).todo = s.todo := rfl
@[simp] theorem State.modQuad_held (i : Nat) (f : Quad → Quad) : (s.modQuad i f).held = s.held := rfl
@[simp] theorem State.modQuad_intakeSeq (i : Nat) (f : Quad → Quad) : (s.modQuad i f).intakeSeq = s.intakeSeq := rfl
@[simp] theorem State.modQuad_rrSq (i : Nat) (f : Quad → Quad) : (s.modQuad i f).rrSq = s.rrSq := rfl
@[simp] theorem State.modQuad_wakeSeq (i : Nat) (f : Quad → Quad) : (s.modQuad i f).wakeSeq = s.wakeSeq := rfl
@[simp] theorem State.modQuad_rings (i : Nat) (f : Quad → Quad) : (s.modQuad i f).rings = s.rings := rfl
@[simp] theorem State.modQuad_snaps (i : Nat) (f : Quad → Quad) : (s.modQuad i f).snaps = s.snaps := rfl
@[simp] theorem State.modQuad_luns (i : Nat) (f : Quad → Quad) : (s.modQuad i f).luns = s.luns := rfl
@[simp] theorem State.modQuad_chans (i : Nat) (f : Quad → Quad) : (s.modQuad i f).chans = s.chans := rfl
@[simp] theorem State.modQuad_ctxs (i : Nat) (f : Quad → Quad) : (s.modQuad i f).ctxs = s.ctxs := rfl
@[simp] theorem State.modQuad_pat0 (i : Nat) (f : Quad → Quad) : (s.modQuad i f).pat0 = s.pat0 := rfl
@[simp] theorem State.modQuad_pat1 (i : Nat) (f : Quad → Quad) : (s.modQuad i f).pat1 = s.pat1 := rfl
@[simp] theorem State.modQuad_force (i : Nat) (f : Quad → Quad) : (s.modQuad i f).force = s.force := rfl
@[simp] theorem State.modQuad_checking (i : Nat) (f : Quad → Quad) : (s.modQuad i f).checking = s.checking := rfl
@[simp] theorem State.modQuad_stripes (i : Nat) (f : Quad → Quad) : (s.modQuad i f).stripes = s.stripes := rfl
@[simp] theorem State.modQuad_rows (i : Nat) (f : Quad → Quad) : (s.modQuad i f).rows = s.rows := rfl
@[simp] theorem State.modQuad_accs (i : Nat) (f : Quad → Quad) : (s.modQuad i f).accs = s.accs := rfl
@[simp] theorem State.modQuad_ops (i : Nat) (f : Quad → Quad) : (s.modQuad i f).ops = s.ops := rfl
@[simp] theorem State.modQuad_jobs (i : Nat) (f : Quad → Quad) : (s.modQuad i f).jobs = s.jobs := rfl
@[simp] theorem State.modQuad_jobSeq (i : Nat) (f : Quad → Quad) : (s.modQuad i f).jobSeq = s.jobSeq := rfl
@[simp] theorem State.modQuad_slices (i : Nat) (f : Quad → Quad) : (s.modQuad i f).slices = s.slices := rfl
@[simp] theorem State.modQuad_rlh (i : Nat) (f : Quad → Quad) : (s.modQuad i f).rlh = s.rlh := rfl
@[simp] theorem State.modQuad_ready (i : Nat) (f : Quad → Quad) : (s.modQuad i f).ready = s.ready := rfl
@[simp] theorem State.modQuad_flying (i : Nat) (f : Quad → Quad) : (s.modQuad i f).flying = s.flying := rfl
@[simp] theorem State.modQuad_pool (i : Nat) (f : Quad → Quad) : (s.modQuad i f).pool = s.pool := rfl
@[simp] theorem State.modQuad_subs (i : Nat) (f : Quad → Quad) : (s.modQuad i f).subs = s.subs := rfl
@[simp] theorem State.modQuad_racs (i : Nat) (f : Quad → Quad) : (s.modQuad i f).racs = s.racs := rfl
@[simp] theorem State.modQuad_reads (i : Nat) (f : Quad → Quad) : (s.modQuad i f).reads = s.reads := rfl
@[simp] theorem State.modQuad_nextId (i : Nat) (f : Quad → Quad) : (s.modQuad i f).nextId = s.nextId := rfl
@[simp] theorem State.modQuad_freset (i : Nat) (f : Quad → Quad) : (s.modQuad i f).freset = s.freset := rfl
@[simp] theorem State.modQuad_ballast (i : Nat) (f : Quad → Quad) : (s.modQuad i f).ballast = s.ballast := rfl
@[simp] theorem State.modStripe_pending (i : Nat) (f : Stripe → Stripe) : (s.modStripe i f).pending = s.pending := rfl
@[simp] theorem State.modStripe_freeCount (i : Nat) (f : Stripe → Stripe) : (s.modStripe i f).freeCount = s.freeCount := rfl
@[simp] theorem State.modStripe_pins (i : Nat) (f : Stripe → Stripe) : (s.modStripe i f).pins = s.pins := rfl
@[simp] theorem State.modStripe_regs (i : Nat) (f : Stripe → Stripe) : (s.modStripe i f).regs = s.regs := rfl
@[simp] theorem State.modStripe_tet (i : Nat) (f : Stripe → Stripe) : (s.modStripe i f).tet = s.tet := rfl
@[simp] theorem State.modStripe_halted (i : Nat) (f : Stripe → Stripe) : (s.modStripe i f).halted = s.halted := rfl
@[simp] theorem State.modStripe_sqs (i : Nat) (f : Stripe → Stripe) : (s.modStripe i f).sqs = s.sqs := rfl
@[simp] theorem State.modStripe_cqs (i : Nat) (f : Stripe → Stripe) : (s.modStripe i f).cqs = s.cqs := rfl
@[simp] theorem State.modStripe_tags (i : Nat) (f : Stripe → Stripe) : (s.modStripe i f).tags = s.tags := rfl
@[simp] theorem State.modStripe_cos (i : Nat) (f : Stripe → Stripe) : (s.modStripe i f).cos = s.cos := rfl
@[simp] theorem State.modStripe_parked (i : Nat) (f : Stripe → Stripe) : (s.modStripe i f).parked = s.parked := rfl
@[simp] theorem State.modStripe_todo (i : Nat) (f : Stripe → Stripe) : (s.modStripe i f).todo = s.todo := rfl
@[simp] theorem State.modStripe_held (i : Nat) (f : Stripe → Stripe) : (s.modStripe i f).held = s.held := rfl
@[simp] theorem State.modStripe_intakeSeq (i : Nat) (f : Stripe → Stripe) : (s.modStripe i f).intakeSeq = s.intakeSeq := rfl
@[simp] theorem State.modStripe_rrSq (i : Nat) (f : Stripe → Stripe) : (s.modStripe i f).rrSq = s.rrSq := rfl
@[simp] theorem State.modStripe_wakeSeq (i : Nat) (f : Stripe → Stripe) : (s.modStripe i f).wakeSeq = s.wakeSeq := rfl
@[simp] theorem State.modStripe_rings (i : Nat) (f : Stripe → Stripe) : (s.modStripe i f).rings = s.rings := rfl
@[simp] theorem State.modStripe_snaps (i : Nat) (f : Stripe → Stripe) : (s.modStripe i f).snaps = s.snaps := rfl
@[simp] theorem State.modStripe_luns (i : Nat) (f : Stripe → Stripe) : (s.modStripe i f).luns = s.luns := rfl
@[simp] theorem State.modStripe_chans (i : Nat) (f : Stripe → Stripe) : (s.modStripe i f).chans = s.chans := rfl
@[simp] theorem State.modStripe_ctxs (i : Nat) (f : Stripe → Stripe) : (s.modStripe i f).ctxs = s.ctxs := rfl
@[simp] theorem State.modStripe_quads (i : Nat) (f : Stripe → Stripe) : (s.modStripe i f).quads = s.quads := rfl
@[simp] theorem State.modStripe_pat0 (i : Nat) (f : Stripe → Stripe) : (s.modStripe i f).pat0 = s.pat0 := rfl
@[simp] theorem State.modStripe_pat1 (i : Nat) (f : Stripe → Stripe) : (s.modStripe i f).pat1 = s.pat1 := rfl
@[simp] theorem State.modStripe_force (i : Nat) (f : Stripe → Stripe) : (s.modStripe i f).force = s.force := rfl
@[simp] theorem State.modStripe_checking (i : Nat) (f : Stripe → Stripe) : (s.modStripe i f).checking = s.checking := rfl
@[simp] theorem State.modStripe_rows (i : Nat) (f : Stripe → Stripe) : (s.modStripe i f).rows = s.rows := rfl
@[simp] theorem State.modStripe_accs (i : Nat) (f : Stripe → Stripe) : (s.modStripe i f).accs = s.accs := rfl
@[simp] theorem State.modStripe_ops (i : Nat) (f : Stripe → Stripe) : (s.modStripe i f).ops = s.ops := rfl
@[simp] theorem State.modStripe_jobs (i : Nat) (f : Stripe → Stripe) : (s.modStripe i f).jobs = s.jobs := rfl
@[simp] theorem State.modStripe_jobSeq (i : Nat) (f : Stripe → Stripe) : (s.modStripe i f).jobSeq = s.jobSeq := rfl
@[simp] theorem State.modStripe_slices (i : Nat) (f : Stripe → Stripe) : (s.modStripe i f).slices = s.slices := rfl
@[simp] theorem State.modStripe_rlh (i : Nat) (f : Stripe → Stripe) : (s.modStripe i f).rlh = s.rlh := rfl
@[simp] theorem State.modStripe_ready (i : Nat) (f : Stripe → Stripe) : (s.modStripe i f).ready = s.ready := rfl
@[simp] theorem State.modStripe_flying (i : Nat) (f : Stripe → Stripe) : (s.modStripe i f).flying = s.flying := rfl
@[simp] theorem State.modStripe_pool (i : Nat) (f : Stripe → Stripe) : (s.modStripe i f).pool = s.pool := rfl
@[simp] theorem State.modStripe_subs (i : Nat) (f : Stripe → Stripe) : (s.modStripe i f).subs = s.subs := rfl
@[simp] theorem State.modStripe_racs (i : Nat) (f : Stripe → Stripe) : (s.modStripe i f).racs = s.racs := rfl
@[simp] theorem State.modStripe_reads (i : Nat) (f : Stripe → Stripe) : (s.modStripe i f).reads = s.reads := rfl
@[simp] theorem State.modStripe_nextId (i : Nat) (f : Stripe → Stripe) : (s.modStripe i f).nextId = s.nextId := rfl
@[simp] theorem State.modStripe_freset (i : Nat) (f : Stripe → Stripe) : (s.modStripe i f).freset = s.freset := rfl
@[simp] theorem State.modStripe_ballast (i : Nat) (f : Stripe → Stripe) : (s.modStripe i f).ballast = s.ballast := rfl
@[simp] theorem State.modSlice_pending (i : Nat) (f : Slice → Slice) : (s.modSlice i f).pending = s.pending := rfl
@[simp] theorem State.modSlice_freeCount (i : Nat) (f : Slice → Slice) : (s.modSlice i f).freeCount = s.freeCount := rfl
@[simp] theorem State.modSlice_pins (i : Nat) (f : Slice → Slice) : (s.modSlice i f).pins = s.pins := rfl
@[simp] theorem State.modSlice_regs (i : Nat) (f : Slice → Slice) : (s.modSlice i f).regs = s.regs := rfl
@[simp] theorem State.modSlice_tet (i : Nat) (f : Slice → Slice) : (s.modSlice i f).tet = s.tet := rfl
@[simp] theorem State.modSlice_halted (i : Nat) (f : Slice → Slice) : (s.modSlice i f).halted = s.halted := rfl
@[simp] theorem State.modSlice_sqs (i : Nat) (f : Slice → Slice) : (s.modSlice i f).sqs = s.sqs := rfl
@[simp] theorem State.modSlice_cqs (i : Nat) (f : Slice → Slice) : (s.modSlice i f).cqs = s.cqs := rfl
@[simp] theorem State.modSlice_tags (i : Nat) (f : Slice → Slice) : (s.modSlice i f).tags = s.tags := rfl
@[simp] theorem State.modSlice_cos (i : Nat) (f : Slice → Slice) : (s.modSlice i f).cos = s.cos := rfl
@[simp] theorem State.modSlice_parked (i : Nat) (f : Slice → Slice) : (s.modSlice i f).parked = s.parked := rfl
@[simp] theorem State.modSlice_todo (i : Nat) (f : Slice → Slice) : (s.modSlice i f).todo = s.todo := rfl
@[simp] theorem State.modSlice_held (i : Nat) (f : Slice → Slice) : (s.modSlice i f).held = s.held := rfl
@[simp] theorem State.modSlice_intakeSeq (i : Nat) (f : Slice → Slice) : (s.modSlice i f).intakeSeq = s.intakeSeq := rfl
@[simp] theorem State.modSlice_rrSq (i : Nat) (f : Slice → Slice) : (s.modSlice i f).rrSq = s.rrSq := rfl
@[simp] theorem State.modSlice_wakeSeq (i : Nat) (f : Slice → Slice) : (s.modSlice i f).wakeSeq = s.wakeSeq := rfl
@[simp] theorem State.modSlice_rings (i : Nat) (f : Slice → Slice) : (s.modSlice i f).rings = s.rings := rfl
@[simp] theorem State.modSlice_snaps (i : Nat) (f : Slice → Slice) : (s.modSlice i f).snaps = s.snaps := rfl
@[simp] theorem State.modSlice_luns (i : Nat) (f : Slice → Slice) : (s.modSlice i f).luns = s.luns := rfl
@[simp] theorem State.modSlice_chans (i : Nat) (f : Slice → Slice) : (s.modSlice i f).chans = s.chans := rfl
@[simp] theorem State.modSlice_ctxs (i : Nat) (f : Slice → Slice) : (s.modSlice i f).ctxs = s.ctxs := rfl
@[simp] theorem State.modSlice_quads (i : Nat) (f : Slice → Slice) : (s.modSlice i f).quads = s.quads := rfl
@[simp] theorem State.modSlice_pat0 (i : Nat) (f : Slice → Slice) : (s.modSlice i f).pat0 = s.pat0 := rfl
@[simp] theorem State.modSlice_pat1 (i : Nat) (f : Slice → Slice) : (s.modSlice i f).pat1 = s.pat1 := rfl
@[simp] theorem State.modSlice_force (i : Nat) (f : Slice → Slice) : (s.modSlice i f).force = s.force := rfl
@[simp] theorem State.modSlice_checking (i : Nat) (f : Slice → Slice) : (s.modSlice i f).checking = s.checking := rfl
@[simp] theorem State.modSlice_stripes (i : Nat) (f : Slice → Slice) : (s.modSlice i f).stripes = s.stripes := rfl
@[simp] theorem State.modSlice_rows (i : Nat) (f : Slice → Slice) : (s.modSlice i f).rows = s.rows := rfl
@[simp] theorem State.modSlice_accs (i : Nat) (f : Slice → Slice) : (s.modSlice i f).accs = s.accs := rfl
@[simp] theorem State.modSlice_ops (i : Nat) (f : Slice → Slice) : (s.modSlice i f).ops = s.ops := rfl
@[simp] theorem State.modSlice_jobs (i : Nat) (f : Slice → Slice) : (s.modSlice i f).jobs = s.jobs := rfl
@[simp] theorem State.modSlice_jobSeq (i : Nat) (f : Slice → Slice) : (s.modSlice i f).jobSeq = s.jobSeq := rfl
@[simp] theorem State.modSlice_rlh (i : Nat) (f : Slice → Slice) : (s.modSlice i f).rlh = s.rlh := rfl
@[simp] theorem State.modSlice_ready (i : Nat) (f : Slice → Slice) : (s.modSlice i f).ready = s.ready := rfl
@[simp] theorem State.modSlice_flying (i : Nat) (f : Slice → Slice) : (s.modSlice i f).flying = s.flying := rfl
@[simp] theorem State.modSlice_pool (i : Nat) (f : Slice → Slice) : (s.modSlice i f).pool = s.pool := rfl
@[simp] theorem State.modSlice_subs (i : Nat) (f : Slice → Slice) : (s.modSlice i f).subs = s.subs := rfl
@[simp] theorem State.modSlice_racs (i : Nat) (f : Slice → Slice) : (s.modSlice i f).racs = s.racs := rfl
@[simp] theorem State.modSlice_reads (i : Nat) (f : Slice → Slice) : (s.modSlice i f).reads = s.reads := rfl
@[simp] theorem State.modSlice_nextId (i : Nat) (f : Slice → Slice) : (s.modSlice i f).nextId = s.nextId := rfl
@[simp] theorem State.modSlice_freset (i : Nat) (f : Slice → Slice) : (s.modSlice i f).freset = s.freset := rfl
@[simp] theorem State.modSlice_ballast (i : Nat) (f : Slice → Slice) : (s.modSlice i f).ballast = s.ballast := rfl
@[simp] theorem State.later_pending (x : Todo) : (s.later x).pending = s.pending := rfl
@[simp] theorem State.later_freeCount (x : Todo) : (s.later x).freeCount = s.freeCount := rfl
@[simp] theorem State.later_pins (x : Todo) : (s.later x).pins = s.pins := rfl
@[simp] theorem State.later_regs (x : Todo) : (s.later x).regs = s.regs := rfl
@[simp] theorem State.later_tet (x : Todo) : (s.later x).tet = s.tet := rfl
@[simp] theorem State.later_halted (x : Todo) : (s.later x).halted = s.halted := rfl
@[simp] theorem State.later_sqs (x : Todo) : (s.later x).sqs = s.sqs := rfl
@[simp] theorem State.later_cqs (x : Todo) : (s.later x).cqs = s.cqs := rfl
@[simp] theorem State.later_tags (x : Todo) : (s.later x).tags = s.tags := rfl
@[simp] theorem State.later_cos (x : Todo) : (s.later x).cos = s.cos := rfl
@[simp] theorem State.later_parked (x : Todo) : (s.later x).parked = s.parked := rfl
@[simp] theorem State.later_held (x : Todo) : (s.later x).held = s.held := rfl
@[simp] theorem State.later_intakeSeq (x : Todo) : (s.later x).intakeSeq = s.intakeSeq := rfl
@[simp] theorem State.later_rrSq (x : Todo) : (s.later x).rrSq = s.rrSq := rfl
@[simp] theorem State.later_wakeSeq (x : Todo) : (s.later x).wakeSeq = s.wakeSeq := rfl
@[simp] theorem State.later_rings (x : Todo) : (s.later x).rings = s.rings := rfl
@[simp] theorem State.later_snaps (x : Todo) : (s.later x).snaps = s.snaps := rfl
@[simp] theorem State.later_luns (x : Todo) : (s.later x).luns = s.luns := rfl
@[simp] theorem State.later_chans (x : Todo) : (s.later x).chans = s.chans := rfl
@[simp] theorem State.later_ctxs (x : Todo) : (s.later x).ctxs = s.ctxs := rfl
@[simp] theorem State.later_quads (x : Todo) : (s.later x).quads = s.quads := rfl
@[simp] theorem State.later_pat0 (x : Todo) : (s.later x).pat0 = s.pat0 := rfl
@[simp] theorem State.later_pat1 (x : Todo) : (s.later x).pat1 = s.pat1 := rfl
@[simp] theorem State.later_force (x : Todo) : (s.later x).force = s.force := rfl
@[simp] theorem State.later_checking (x : Todo) : (s.later x).checking = s.checking := rfl
@[simp] theorem State.later_stripes (x : Todo) : (s.later x).stripes = s.stripes := rfl
@[simp] theorem State.later_rows (x : Todo) : (s.later x).rows = s.rows := rfl
@[simp] theorem State.later_accs (x : Todo) : (s.later x).accs = s.accs := rfl
@[simp] theorem State.later_ops (x : Todo) : (s.later x).ops = s.ops := rfl
@[simp] theorem State.later_jobs (x : Todo) : (s.later x).jobs = s.jobs := rfl
@[simp] theorem State.later_jobSeq (x : Todo) : (s.later x).jobSeq = s.jobSeq := rfl
@[simp] theorem State.later_slices (x : Todo) : (s.later x).slices = s.slices := rfl
@[simp] theorem State.later_rlh (x : Todo) : (s.later x).rlh = s.rlh := rfl
@[simp] theorem State.later_ready (x : Todo) : (s.later x).ready = s.ready := rfl
@[simp] theorem State.later_flying (x : Todo) : (s.later x).flying = s.flying := rfl
@[simp] theorem State.later_pool (x : Todo) : (s.later x).pool = s.pool := rfl
@[simp] theorem State.later_subs (x : Todo) : (s.later x).subs = s.subs := rfl
@[simp] theorem State.later_racs (x : Todo) : (s.later x).racs = s.racs := rfl
@[simp] theorem State.later_reads (x : Todo) : (s.later x).reads = s.reads := rfl
@[simp] theorem State.later_nextId (x : Todo) : (s.later x).nextId = s.nextId := rfl
@[simp] theorem State.later_freset (x : Todo) : (s.later x).freset = s.freset := rfl
@[simp] theorem State.later_ballast (x : Todo) : (s.later x).ballast = s.ballast := rfl

/-! ### The reads that an update leaves -/

@[simp] theorem State.setReg_sqOf (a : Nat) (w : Word32) (k : Nat) : (s.setReg a w).sqOf k = s.sqOf k := rfl
@[simp] theorem State.setReg_cqOf (a : Nat) (w : Word32) (k : Nat) : (s.setReg a w).cqOf k = s.cqOf k := rfl
@[simp] theorem State.setReg_tagOf (a : Nat) (w : Word32) (k : Nat) : (s.setReg a w).tagOf k = s.tagOf k := rfl
@[simp] theorem State.setReg_ringOf (a : Nat) (w : Word32) (k : Nat) : (s.setReg a w).ringOf k = s.ringOf k := rfl
@[simp] theorem State.setReg_lunOf (a : Nat) (w : Word32) (k : Nat) : (s.setReg a w).lunOf k = s.lunOf k := rfl
@[simp] theorem State.setReg_chanOf (a : Nat) (w : Word32) (k : Nat) : (s.setReg a w).chanOf k = s.chanOf k := rfl
@[simp] theorem State.setReg_ctxOf (a : Nat) (w : Word32) (k : Nat) : (s.setReg a w).ctxOf k = s.ctxOf k := rfl
@[simp] theorem State.setReg_quadOf (a : Nat) (w : Word32) (k : Nat) : (s.setReg a w).quadOf k = s.quadOf k := rfl
@[simp] theorem State.setReg_stripeOf (a : Nat) (w : Word32) (k : Nat) : (s.setReg a w).stripeOf k = s.stripeOf k := rfl
@[simp] theorem State.setReg_sliceOf (a : Nat) (w : Word32) (k : Nat) : (s.setReg a w).sliceOf k = s.sliceOf k := rfl
@[simp] theorem State.modSq_reg (i : Nat) (f : Sq → Sq) (a : Nat) : (s.modSq i f).reg a = s.reg a := rfl
@[simp] theorem State.modSq_get (i : Nat) (f : Sq → Sq) (g : Fld) : (s.modSq i f).get g = s.get g := rfl
@[simp] theorem State.modSq_on (i : Nat) (f : Sq → Sq) (g : Fld) : (s.modSq i f).on g = s.on g := rfl
@[simp] theorem State.modSq_cqOf (i : Nat) (f : Sq → Sq) (k : Nat) : (s.modSq i f).cqOf k = s.cqOf k := rfl
@[simp] theorem State.modSq_tagOf (i : Nat) (f : Sq → Sq) (k : Nat) : (s.modSq i f).tagOf k = s.tagOf k := rfl
@[simp] theorem State.modSq_ringOf (i : Nat) (f : Sq → Sq) (k : Nat) : (s.modSq i f).ringOf k = s.ringOf k := rfl
@[simp] theorem State.modSq_lunOf (i : Nat) (f : Sq → Sq) (k : Nat) : (s.modSq i f).lunOf k = s.lunOf k := rfl
@[simp] theorem State.modSq_chanOf (i : Nat) (f : Sq → Sq) (k : Nat) : (s.modSq i f).chanOf k = s.chanOf k := rfl
@[simp] theorem State.modSq_ctxOf (i : Nat) (f : Sq → Sq) (k : Nat) : (s.modSq i f).ctxOf k = s.ctxOf k := rfl
@[simp] theorem State.modSq_quadOf (i : Nat) (f : Sq → Sq) (k : Nat) : (s.modSq i f).quadOf k = s.quadOf k := rfl
@[simp] theorem State.modSq_stripeOf (i : Nat) (f : Sq → Sq) (k : Nat) : (s.modSq i f).stripeOf k = s.stripeOf k := rfl
@[simp] theorem State.modSq_sliceOf (i : Nat) (f : Sq → Sq) (k : Nat) : (s.modSq i f).sliceOf k = s.sliceOf k := rfl
@[simp] theorem State.modCq_reg (i : Nat) (f : Cq → Cq) (a : Nat) : (s.modCq i f).reg a = s.reg a := rfl
@[simp] theorem State.modCq_get (i : Nat) (f : Cq → Cq) (g : Fld) : (s.modCq i f).get g = s.get g := rfl
@[simp] theorem State.modCq_on (i : Nat) (f : Cq → Cq) (g : Fld) : (s.modCq i f).on g = s.on g := rfl
@[simp] theorem State.modCq_sqOf (i : Nat) (f : Cq → Cq) (k : Nat) : (s.modCq i f).sqOf k = s.sqOf k := rfl
@[simp] theorem State.modCq_tagOf (i : Nat) (f : Cq → Cq) (k : Nat) : (s.modCq i f).tagOf k = s.tagOf k := rfl
@[simp] theorem State.modCq_ringOf (i : Nat) (f : Cq → Cq) (k : Nat) : (s.modCq i f).ringOf k = s.ringOf k := rfl
@[simp] theorem State.modCq_lunOf (i : Nat) (f : Cq → Cq) (k : Nat) : (s.modCq i f).lunOf k = s.lunOf k := rfl
@[simp] theorem State.modCq_chanOf (i : Nat) (f : Cq → Cq) (k : Nat) : (s.modCq i f).chanOf k = s.chanOf k := rfl
@[simp] theorem State.modCq_ctxOf (i : Nat) (f : Cq → Cq) (k : Nat) : (s.modCq i f).ctxOf k = s.ctxOf k := rfl
@[simp] theorem State.modCq_quadOf (i : Nat) (f : Cq → Cq) (k : Nat) : (s.modCq i f).quadOf k = s.quadOf k := rfl
@[simp] theorem State.modCq_stripeOf (i : Nat) (f : Cq → Cq) (k : Nat) : (s.modCq i f).stripeOf k = s.stripeOf k := rfl
@[simp] theorem State.modCq_sliceOf (i : Nat) (f : Cq → Cq) (k : Nat) : (s.modCq i f).sliceOf k = s.sliceOf k := rfl
@[simp] theorem State.modTag_reg (i : Nat) (f : Tag → Tag) (a : Nat) : (s.modTag i f).reg a = s.reg a := rfl
@[simp] theorem State.modTag_get (i : Nat) (f : Tag → Tag) (g : Fld) : (s.modTag i f).get g = s.get g := rfl
@[simp] theorem State.modTag_on (i : Nat) (f : Tag → Tag) (g : Fld) : (s.modTag i f).on g = s.on g := rfl
@[simp] theorem State.modTag_sqOf (i : Nat) (f : Tag → Tag) (k : Nat) : (s.modTag i f).sqOf k = s.sqOf k := rfl
@[simp] theorem State.modTag_cqOf (i : Nat) (f : Tag → Tag) (k : Nat) : (s.modTag i f).cqOf k = s.cqOf k := rfl
@[simp] theorem State.modTag_ringOf (i : Nat) (f : Tag → Tag) (k : Nat) : (s.modTag i f).ringOf k = s.ringOf k := rfl
@[simp] theorem State.modTag_lunOf (i : Nat) (f : Tag → Tag) (k : Nat) : (s.modTag i f).lunOf k = s.lunOf k := rfl
@[simp] theorem State.modTag_chanOf (i : Nat) (f : Tag → Tag) (k : Nat) : (s.modTag i f).chanOf k = s.chanOf k := rfl
@[simp] theorem State.modTag_ctxOf (i : Nat) (f : Tag → Tag) (k : Nat) : (s.modTag i f).ctxOf k = s.ctxOf k := rfl
@[simp] theorem State.modTag_quadOf (i : Nat) (f : Tag → Tag) (k : Nat) : (s.modTag i f).quadOf k = s.quadOf k := rfl
@[simp] theorem State.modTag_stripeOf (i : Nat) (f : Tag → Tag) (k : Nat) : (s.modTag i f).stripeOf k = s.stripeOf k := rfl
@[simp] theorem State.modTag_sliceOf (i : Nat) (f : Tag → Tag) (k : Nat) : (s.modTag i f).sliceOf k = s.sliceOf k := rfl
@[simp] theorem State.modRing_reg (i : Nat) (f : Ring → Ring) (a : Nat) : (s.modRing i f).reg a = s.reg a := rfl
@[simp] theorem State.modRing_get (i : Nat) (f : Ring → Ring) (g : Fld) : (s.modRing i f).get g = s.get g := rfl
@[simp] theorem State.modRing_on (i : Nat) (f : Ring → Ring) (g : Fld) : (s.modRing i f).on g = s.on g := rfl
@[simp] theorem State.modRing_sqOf (i : Nat) (f : Ring → Ring) (k : Nat) : (s.modRing i f).sqOf k = s.sqOf k := rfl
@[simp] theorem State.modRing_cqOf (i : Nat) (f : Ring → Ring) (k : Nat) : (s.modRing i f).cqOf k = s.cqOf k := rfl
@[simp] theorem State.modRing_tagOf (i : Nat) (f : Ring → Ring) (k : Nat) : (s.modRing i f).tagOf k = s.tagOf k := rfl
@[simp] theorem State.modRing_lunOf (i : Nat) (f : Ring → Ring) (k : Nat) : (s.modRing i f).lunOf k = s.lunOf k := rfl
@[simp] theorem State.modRing_chanOf (i : Nat) (f : Ring → Ring) (k : Nat) : (s.modRing i f).chanOf k = s.chanOf k := rfl
@[simp] theorem State.modRing_ctxOf (i : Nat) (f : Ring → Ring) (k : Nat) : (s.modRing i f).ctxOf k = s.ctxOf k := rfl
@[simp] theorem State.modRing_quadOf (i : Nat) (f : Ring → Ring) (k : Nat) : (s.modRing i f).quadOf k = s.quadOf k := rfl
@[simp] theorem State.modRing_stripeOf (i : Nat) (f : Ring → Ring) (k : Nat) : (s.modRing i f).stripeOf k = s.stripeOf k := rfl
@[simp] theorem State.modRing_sliceOf (i : Nat) (f : Ring → Ring) (k : Nat) : (s.modRing i f).sliceOf k = s.sliceOf k := rfl
@[simp] theorem State.modLun_reg (i : Nat) (f : Lun → Lun) (a : Nat) : (s.modLun i f).reg a = s.reg a := rfl
@[simp] theorem State.modLun_get (i : Nat) (f : Lun → Lun) (g : Fld) : (s.modLun i f).get g = s.get g := rfl
@[simp] theorem State.modLun_on (i : Nat) (f : Lun → Lun) (g : Fld) : (s.modLun i f).on g = s.on g := rfl
@[simp] theorem State.modLun_sqOf (i : Nat) (f : Lun → Lun) (k : Nat) : (s.modLun i f).sqOf k = s.sqOf k := rfl
@[simp] theorem State.modLun_cqOf (i : Nat) (f : Lun → Lun) (k : Nat) : (s.modLun i f).cqOf k = s.cqOf k := rfl
@[simp] theorem State.modLun_tagOf (i : Nat) (f : Lun → Lun) (k : Nat) : (s.modLun i f).tagOf k = s.tagOf k := rfl
@[simp] theorem State.modLun_ringOf (i : Nat) (f : Lun → Lun) (k : Nat) : (s.modLun i f).ringOf k = s.ringOf k := rfl
@[simp] theorem State.modLun_chanOf (i : Nat) (f : Lun → Lun) (k : Nat) : (s.modLun i f).chanOf k = s.chanOf k := rfl
@[simp] theorem State.modLun_ctxOf (i : Nat) (f : Lun → Lun) (k : Nat) : (s.modLun i f).ctxOf k = s.ctxOf k := rfl
@[simp] theorem State.modLun_quadOf (i : Nat) (f : Lun → Lun) (k : Nat) : (s.modLun i f).quadOf k = s.quadOf k := rfl
@[simp] theorem State.modLun_stripeOf (i : Nat) (f : Lun → Lun) (k : Nat) : (s.modLun i f).stripeOf k = s.stripeOf k := rfl
@[simp] theorem State.modLun_sliceOf (i : Nat) (f : Lun → Lun) (k : Nat) : (s.modLun i f).sliceOf k = s.sliceOf k := rfl
@[simp] theorem State.modChan_reg (i : Nat) (f : Chan → Chan) (a : Nat) : (s.modChan i f).reg a = s.reg a := rfl
@[simp] theorem State.modChan_get (i : Nat) (f : Chan → Chan) (g : Fld) : (s.modChan i f).get g = s.get g := rfl
@[simp] theorem State.modChan_on (i : Nat) (f : Chan → Chan) (g : Fld) : (s.modChan i f).on g = s.on g := rfl
@[simp] theorem State.modChan_sqOf (i : Nat) (f : Chan → Chan) (k : Nat) : (s.modChan i f).sqOf k = s.sqOf k := rfl
@[simp] theorem State.modChan_cqOf (i : Nat) (f : Chan → Chan) (k : Nat) : (s.modChan i f).cqOf k = s.cqOf k := rfl
@[simp] theorem State.modChan_tagOf (i : Nat) (f : Chan → Chan) (k : Nat) : (s.modChan i f).tagOf k = s.tagOf k := rfl
@[simp] theorem State.modChan_ringOf (i : Nat) (f : Chan → Chan) (k : Nat) : (s.modChan i f).ringOf k = s.ringOf k := rfl
@[simp] theorem State.modChan_lunOf (i : Nat) (f : Chan → Chan) (k : Nat) : (s.modChan i f).lunOf k = s.lunOf k := rfl
@[simp] theorem State.modChan_ctxOf (i : Nat) (f : Chan → Chan) (k : Nat) : (s.modChan i f).ctxOf k = s.ctxOf k := rfl
@[simp] theorem State.modChan_quadOf (i : Nat) (f : Chan → Chan) (k : Nat) : (s.modChan i f).quadOf k = s.quadOf k := rfl
@[simp] theorem State.modChan_stripeOf (i : Nat) (f : Chan → Chan) (k : Nat) : (s.modChan i f).stripeOf k = s.stripeOf k := rfl
@[simp] theorem State.modChan_sliceOf (i : Nat) (f : Chan → Chan) (k : Nat) : (s.modChan i f).sliceOf k = s.sliceOf k := rfl
@[simp] theorem State.modCtx_reg (i : Nat) (f : Ctx → Ctx) (a : Nat) : (s.modCtx i f).reg a = s.reg a := rfl
@[simp] theorem State.modCtx_get (i : Nat) (f : Ctx → Ctx) (g : Fld) : (s.modCtx i f).get g = s.get g := rfl
@[simp] theorem State.modCtx_on (i : Nat) (f : Ctx → Ctx) (g : Fld) : (s.modCtx i f).on g = s.on g := rfl
@[simp] theorem State.modCtx_sqOf (i : Nat) (f : Ctx → Ctx) (k : Nat) : (s.modCtx i f).sqOf k = s.sqOf k := rfl
@[simp] theorem State.modCtx_cqOf (i : Nat) (f : Ctx → Ctx) (k : Nat) : (s.modCtx i f).cqOf k = s.cqOf k := rfl
@[simp] theorem State.modCtx_tagOf (i : Nat) (f : Ctx → Ctx) (k : Nat) : (s.modCtx i f).tagOf k = s.tagOf k := rfl
@[simp] theorem State.modCtx_ringOf (i : Nat) (f : Ctx → Ctx) (k : Nat) : (s.modCtx i f).ringOf k = s.ringOf k := rfl
@[simp] theorem State.modCtx_lunOf (i : Nat) (f : Ctx → Ctx) (k : Nat) : (s.modCtx i f).lunOf k = s.lunOf k := rfl
@[simp] theorem State.modCtx_chanOf (i : Nat) (f : Ctx → Ctx) (k : Nat) : (s.modCtx i f).chanOf k = s.chanOf k := rfl
@[simp] theorem State.modCtx_quadOf (i : Nat) (f : Ctx → Ctx) (k : Nat) : (s.modCtx i f).quadOf k = s.quadOf k := rfl
@[simp] theorem State.modCtx_stripeOf (i : Nat) (f : Ctx → Ctx) (k : Nat) : (s.modCtx i f).stripeOf k = s.stripeOf k := rfl
@[simp] theorem State.modCtx_sliceOf (i : Nat) (f : Ctx → Ctx) (k : Nat) : (s.modCtx i f).sliceOf k = s.sliceOf k := rfl
@[simp] theorem State.modQuad_reg (i : Nat) (f : Quad → Quad) (a : Nat) : (s.modQuad i f).reg a = s.reg a := rfl
@[simp] theorem State.modQuad_get (i : Nat) (f : Quad → Quad) (g : Fld) : (s.modQuad i f).get g = s.get g := rfl
@[simp] theorem State.modQuad_on (i : Nat) (f : Quad → Quad) (g : Fld) : (s.modQuad i f).on g = s.on g := rfl
@[simp] theorem State.modQuad_sqOf (i : Nat) (f : Quad → Quad) (k : Nat) : (s.modQuad i f).sqOf k = s.sqOf k := rfl
@[simp] theorem State.modQuad_cqOf (i : Nat) (f : Quad → Quad) (k : Nat) : (s.modQuad i f).cqOf k = s.cqOf k := rfl
@[simp] theorem State.modQuad_tagOf (i : Nat) (f : Quad → Quad) (k : Nat) : (s.modQuad i f).tagOf k = s.tagOf k := rfl
@[simp] theorem State.modQuad_ringOf (i : Nat) (f : Quad → Quad) (k : Nat) : (s.modQuad i f).ringOf k = s.ringOf k := rfl
@[simp] theorem State.modQuad_lunOf (i : Nat) (f : Quad → Quad) (k : Nat) : (s.modQuad i f).lunOf k = s.lunOf k := rfl
@[simp] theorem State.modQuad_chanOf (i : Nat) (f : Quad → Quad) (k : Nat) : (s.modQuad i f).chanOf k = s.chanOf k := rfl
@[simp] theorem State.modQuad_ctxOf (i : Nat) (f : Quad → Quad) (k : Nat) : (s.modQuad i f).ctxOf k = s.ctxOf k := rfl
@[simp] theorem State.modQuad_stripeOf (i : Nat) (f : Quad → Quad) (k : Nat) : (s.modQuad i f).stripeOf k = s.stripeOf k := rfl
@[simp] theorem State.modQuad_sliceOf (i : Nat) (f : Quad → Quad) (k : Nat) : (s.modQuad i f).sliceOf k = s.sliceOf k := rfl
@[simp] theorem State.modStripe_reg (i : Nat) (f : Stripe → Stripe) (a : Nat) : (s.modStripe i f).reg a = s.reg a := rfl
@[simp] theorem State.modStripe_get (i : Nat) (f : Stripe → Stripe) (g : Fld) : (s.modStripe i f).get g = s.get g := rfl
@[simp] theorem State.modStripe_on (i : Nat) (f : Stripe → Stripe) (g : Fld) : (s.modStripe i f).on g = s.on g := rfl
@[simp] theorem State.modStripe_sqOf (i : Nat) (f : Stripe → Stripe) (k : Nat) : (s.modStripe i f).sqOf k = s.sqOf k := rfl
@[simp] theorem State.modStripe_cqOf (i : Nat) (f : Stripe → Stripe) (k : Nat) : (s.modStripe i f).cqOf k = s.cqOf k := rfl
@[simp] theorem State.modStripe_tagOf (i : Nat) (f : Stripe → Stripe) (k : Nat) : (s.modStripe i f).tagOf k = s.tagOf k := rfl
@[simp] theorem State.modStripe_ringOf (i : Nat) (f : Stripe → Stripe) (k : Nat) : (s.modStripe i f).ringOf k = s.ringOf k := rfl
@[simp] theorem State.modStripe_lunOf (i : Nat) (f : Stripe → Stripe) (k : Nat) : (s.modStripe i f).lunOf k = s.lunOf k := rfl
@[simp] theorem State.modStripe_chanOf (i : Nat) (f : Stripe → Stripe) (k : Nat) : (s.modStripe i f).chanOf k = s.chanOf k := rfl
@[simp] theorem State.modStripe_ctxOf (i : Nat) (f : Stripe → Stripe) (k : Nat) : (s.modStripe i f).ctxOf k = s.ctxOf k := rfl
@[simp] theorem State.modStripe_quadOf (i : Nat) (f : Stripe → Stripe) (k : Nat) : (s.modStripe i f).quadOf k = s.quadOf k := rfl
@[simp] theorem State.modStripe_sliceOf (i : Nat) (f : Stripe → Stripe) (k : Nat) : (s.modStripe i f).sliceOf k = s.sliceOf k := rfl
@[simp] theorem State.modSlice_reg (i : Nat) (f : Slice → Slice) (a : Nat) : (s.modSlice i f).reg a = s.reg a := rfl
@[simp] theorem State.modSlice_get (i : Nat) (f : Slice → Slice) (g : Fld) : (s.modSlice i f).get g = s.get g := rfl
@[simp] theorem State.modSlice_on (i : Nat) (f : Slice → Slice) (g : Fld) : (s.modSlice i f).on g = s.on g := rfl
@[simp] theorem State.modSlice_sqOf (i : Nat) (f : Slice → Slice) (k : Nat) : (s.modSlice i f).sqOf k = s.sqOf k := rfl
@[simp] theorem State.modSlice_cqOf (i : Nat) (f : Slice → Slice) (k : Nat) : (s.modSlice i f).cqOf k = s.cqOf k := rfl
@[simp] theorem State.modSlice_tagOf (i : Nat) (f : Slice → Slice) (k : Nat) : (s.modSlice i f).tagOf k = s.tagOf k := rfl
@[simp] theorem State.modSlice_ringOf (i : Nat) (f : Slice → Slice) (k : Nat) : (s.modSlice i f).ringOf k = s.ringOf k := rfl
@[simp] theorem State.modSlice_lunOf (i : Nat) (f : Slice → Slice) (k : Nat) : (s.modSlice i f).lunOf k = s.lunOf k := rfl
@[simp] theorem State.modSlice_chanOf (i : Nat) (f : Slice → Slice) (k : Nat) : (s.modSlice i f).chanOf k = s.chanOf k := rfl
@[simp] theorem State.modSlice_ctxOf (i : Nat) (f : Slice → Slice) (k : Nat) : (s.modSlice i f).ctxOf k = s.ctxOf k := rfl
@[simp] theorem State.modSlice_quadOf (i : Nat) (f : Slice → Slice) (k : Nat) : (s.modSlice i f).quadOf k = s.quadOf k := rfl
@[simp] theorem State.modSlice_stripeOf (i : Nat) (f : Slice → Slice) (k : Nat) : (s.modSlice i f).stripeOf k = s.stripeOf k := rfl
@[simp] theorem State.later_reg (x : Todo) (a : Nat) : (s.later x).reg a = s.reg a := rfl
@[simp] theorem State.later_get (x : Todo) (g : Fld) : (s.later x).get g = s.get g := rfl
@[simp] theorem State.later_on (x : Todo) (g : Fld) : (s.later x).on g = s.on g := rfl
@[simp] theorem State.later_sqOf (x : Todo) (k : Nat) : (s.later x).sqOf k = s.sqOf k := rfl
@[simp] theorem State.later_cqOf (x : Todo) (k : Nat) : (s.later x).cqOf k = s.cqOf k := rfl
@[simp] theorem State.later_tagOf (x : Todo) (k : Nat) : (s.later x).tagOf k = s.tagOf k := rfl
@[simp] theorem State.later_ringOf (x : Todo) (k : Nat) : (s.later x).ringOf k = s.ringOf k := rfl
@[simp] theorem State.later_lunOf (x : Todo) (k : Nat) : (s.later x).lunOf k = s.lunOf k := rfl
@[simp] theorem State.later_chanOf (x : Todo) (k : Nat) : (s.later x).chanOf k = s.chanOf k := rfl
@[simp] theorem State.later_ctxOf (x : Todo) (k : Nat) : (s.later x).ctxOf k = s.ctxOf k := rfl
@[simp] theorem State.later_quadOf (x : Todo) (k : Nat) : (s.later x).quadOf k = s.quadOf k := rfl
@[simp] theorem State.later_stripeOf (x : Todo) (k : Nat) : (s.later x).stripeOf k = s.stripeOf k := rfl
@[simp] theorem State.later_sliceOf (x : Todo) (k : Nat) : (s.later x).sliceOf k = s.sliceOf k := rfl

end Sys2Proof.Machine
end

