-- ==== Sys2Proof/Laws/Exec.lean ====
section
/-! SUPPORT. What surrounds every command: the frames `live`, `liveTop` and `onPort`, the write of a register, the end of a command
and the step. `exec_frame` says of every command but six that it is a `live` one or one on the setup port. -/

namespace Sys2Proof.Machine

variable (s : State)

/-! ### The frames of commands -/

theorem live_testMode (f : State → State) (h : s.pins.testMode = true) : live s f = .fault .testMode := if_pos h

theorem live_resetLow (f : State → State) (h : s.pins.testMode = false) (r : s.pins.resetN = false) : live s f = .next s := by
  simp [live, h, r]

theorem live_works (f : State → State) (h : s.Works) : live s f = .next (f s).settle := by
  simp [live, h.1, h.2]

theorem liveTop_works (f : State → State) (h : s.TopWorks) : liveTop s f = .next (f s).settle := by
  simp [liveTop, live_works s _ h.1, h.2]

theorem liveTop_off (f : State → State) (h : s.Works) (t : s.topOn = false) : liveTop s f = .next s.settle := by
  simp [liveTop, live_works s _ h, t]

/-- All that a live command can do. -/
theorem live_next {f : State → State} {t : State} (h : live s f = .next t) :
    s.pins.testMode = false ∧ ((s.pins.resetN = true ∧ t = (f s).settle) ∨ (s.pins.resetN = false ∧ t = s)) := by
  unfold live at h
  cases hm : s.pins.testMode <;> cases hr : s.pins.resetN <;> simp_all

theorem onPort_testMode (f : State → State) (h : s.pins.testMode = true) : onPort s f = .fault .testMode := if_pos h

theorem onPort_resetLow (f : State → State) (h : s.pins.testMode = false) (r : s.pins.resetN = false) :
    onPort s f = .next (s.respond 0 true) := by simp [onPort, h, r]

theorem onPort_works (f : State → State) (h : s.Works) : onPort s f = .next (f s).settle := by simp [onPort, h.1, h.2]

/-- All that a command on the setup port can do. -/
theorem onPort_next {f : State → State} {t : State} (h : onPort s f = .next t) :
    s.pins.testMode = false ∧ ((s.pins.resetN = true ∧ t = (f s).settle) ∨ (s.pins.resetN = false ∧ t = s.respond 0 true)) := by
  unfold onPort at h
  cases hm : s.pins.testMode <;> cases hr : s.pins.resetN <;> simp_all

/-- A command that is a live one. -/
def IsLive (m : State → Host.Outcome State Fault Refusal) : Prop := ∃ f, ∀ s, m s = live s f

theorem isLive_live (f : State → State) : IsLive (fun s => live s f) := ⟨f, fun _ => rfl⟩

theorem isLive_top (f : State → State) : IsLive (fun s => liveTop s f) := ⟨_, fun _ => rfl⟩

/-- A command that is a write or a read on the setup port. -/
def IsPort (m : State → Host.Outcome State Fault Refusal) : Prop := ∃ f, ∀ s, m s = onPort s f

theorem isPort (f : State → State) : IsPort (fun s => onPort s f) := ⟨f, fun _ => rfl⟩

/-- The functional commands but for the acknowledges that TEST_MODE or RESET_N low lets through. -/
abbrev framed (c : Instr) : Prop := functional c ∧ (∀ d, c ≠ .pwrAckRise d) ∧ (∀ d, c ≠ .pwrAckFall d) ∧ c ≠ .cclkAckFall

theorem exec_frame : ∀ c : Instr, framed c → IsLive (exec c) ∨ IsPort (exec c)
  | .resetNAssert, h => absurd rfl h.1.1
  | .resetNDeassert, h => absurd rfl h.1.2.1
  | .startupStep _, _ => .inl (isLive_live _)
  | .fuseAck _, _ => .inl (isLive_live _)
  | .fuseTimeout, _ => .inl (isLive_live _)
  | .wakeNFall, _ => .inl (isLive_live _)
  | .wakeNIdleWindow, _ => .inl (isLive_live _)
  | .pwrfailLatch, _ => .inl (isLive_live _)
  | .holdupExpiry, _ => .inl (isLive_live _)
  | .pwrAckRise _, h => absurd rfl (h.2.1 _)
  | .pwrAckFall _, h => absurd rfl (h.2.2.1 _)
  | .cclkAckRise, _ => .inl (isLive_live _)
  | .cclkAckFall, h => absurd rfl h.2.2.2
  | .pwrAckLate _ _, _ => .inl (isLive_live _)
  | .pllLockLoss _, _ => .inl (isLive_live _)
  | .pllRelock _ _, _ => .inl (isLive_live _)
  | .testModeHigh, h => absurd rfl h.1.2.2
  | .rbNTransition _ _, _ => .inl (isLive_live _)
  | .rbChatterWindow _ _ _, _ => .inl (isLive_live _)
  | .fatalCause _ _, _ => .inl (isLive_live _)
  | .safeStateRelease _, _ => .inl (isLive_live _)
  | .registerWrite _ _, _ => .inr (isPort _)
  | .apply _ _, _ => .inr (isPort _)
  | .applyDrained _, _ => .inl (isLive_live _)
  | .applyPllLockTimeout _, _ => .inl (isLive_live _)
  | .zqStart _ _, _ => .inr (isPort _)
  | .longCalibration _ _, _ => .inl (isLive_live _)
  | .shortCalibration _ _, _ => .inl (isLive_live _)
  | .trainStart _ _, _ => .inr (isPort _)
  | .trainingDone _ _, _ => .inl (isLive_live _)
  | .driftPeriodEnd _ _, _ => .inl (isLive_live _)
  | .trackingBurst _ _, _ => .inl (isLive_live _)
  | .stuckClear _ _, _ => .inr (isPort _)
  | .patchRowCommit _ _, _ => .inr (isPort _)
  | .nanoWordCommit _ _, _ => .inr (isPort _)
  | .activate _, _ => .inr (isPort _)
  | .patClear _, _ => .inr (isPort _)
  | .patchBankSwitch _, _ => .inl (isLive_live _)
  | .validate _, _ => .inr (isPort _)
  | .validateDone, _ => .inl (isLive_top _)
  | .stripeSelWrite _, _ => .inr (isPort _)
  | .tempWrite _ _, _ => .inr (isPort _)
  | .sqEnable _ _, _ => .inr (isPort _)
  | .cqEnable _ _, _ => .inr (isPort _)
  | .evEnable _ _, _ => .inr (isPort _)
  | .evDisable _ _, _ => .inr (isPort _)
  | .fresetGraceful, _ => .inr (isPort _)
  | .fresetImmediate, _ => .inr (isPort _)
  | .fresetBoundExpiry, _ => .inl (isLive_top _)
  | .fresetDone, _ => .inl (isLive_top _)
  | .lock _, _ => .inr (isPort _)
  | .blwClr _, _ => .inr (isPort _)
  | .rlhcClr _, _ => .inr (isPort _)
  | .fatalTest _, _ => .inr (isPort _)
  | .fatalClear _ _, _ => .inr (isPort _)
  | .repair _, _ => .inr (isPort _)
  | .testread _ _, _ => .inr (isPort _)
  | .balInjectArm _, _ => .inr (isPort _)
  | .blwInjectArm _, _ => .inr (isPort _)
  | .patInjectArm _, _ => .inr (isPort _)
  | .lunFence _ _, _ => .inr (isPort _)
  | .lunUnfence _ _, _ => .inr (isPort _)
  | .channelFence _ _, _ => .inr (isPort _)
  | .channelUnfence _ _, _ => .inr (isPort _)
  | .quadFence _ _, _ => .inr (isPort _)
  | .quadUnfence _ _, _ => .inr (isPort _)
  | .declare _ _, _ => .inr (isPort _)
  | .fltValidClear _ _, _ => .inr (isPort _)
  | .deep _, _ => .inr (isPort _)
  | .wake _, _ => .inr (isPort _)
  | .quadOn _ _, _ => .inr (isPort _)
  | .pwrfailLatchClear _ _, _ => .inr (isPort _)
  | .wakeNUnmask _, _ => .inr (isPort _)
  | .wakeTimerFire, _ => .inl (isLive_live _)
  | .inlinePush _, _ => .inl (isLive_live _)
  | .sqTailDoorbell _, _ => .inl (isLive_live _)
  | .cqHeadDoorbell _, _ => .inl (isLive_live _)
  | .evHeadDoorbell _, _ => .inl (isLive_live _)
  | .doorbellShadowWrite _, _ => .inl (isLive_live _)
  | .doorbellShadowDrain, _ => .inl (isLive_top _)
  | .ringFetch _, _ => .inl (isLive_top _)
  | .staleRefetch _ _, _ => .inl (isLive_top _)
  | .nop _ _, _ => .inl (isLive_top _)
  | .read _ _, _ => .inl (isLive_top _)
  | .readRaw _ _, _ => .inl (isLive_top _)
  | .copy _ _, _ => .inl (isLive_top _)
  | .programAppend _ _, _ => .inl (isLive_top _)
  | .programAt _ _, _ => .inl (isLive_top _)
  | .erase _ _, _ => .inl (isLive_top _)
  | .eraseCheck _ _, _ => .inl (isLive_top _)
  | .stripeOpen _ _, _ => .inl (isLive_top _)
  | .stripeClose _ _, _ => .inl (isLive_top _)
  | .substitute _ _, _ => .inl (isLive_top _)
  | .rebuild _ _, _ => .inl (isLive_top _)
  | .tallyWrite _ _, _ => .inl (isLive_top _)
  | .tallyScan _ _, _ => .inl (isLive_top _)
  | .flush _ _, _ => .inl (isLive_top _)
  | .abort _ _, _ => .inl (isLive_top _)
  | .rlhSync _ _, _ => .inl (isLive_top _)
  | .dieCmd _ _, _ => .inl (isLive_top _)
  | .routine _ _, _ => .inl (isLive_top _)
  | .completionWrite _, _ => .inl (isLive_top _)
  | .cqStall _, _ => .inl (isLive_top _)
  | .offerRoutine _, _ => .inl (isLive_top _)
  | .unpark _, _ => .inl (isLive_live _)
  | .chanterTimerExpire _, _ => .inl (isLive_live _)
  | .nextSeq _ _, _ => .inl (isLive_live _)
  | .jump _ _, _ => .inl (isLive_live _)
  | .branch _ _, _ => .inl (isLive_live _)
  | .callSeq _ _, _ => .inl (isLive_live _)
  | .ret _ _, _ => .inl (isLive_live _)
  | .yield _ _, _ => .inl (isLive_live _)
  | .endSeq _ _, _ => .inl (isLive_live _)
  | .trap _ _, _ => .inl (isLive_live _)
  | .runLimitFault _, _ => .inl (isLive_live _)
  | .watchdogFault _, _ => .inl (isLive_live _)
  | .reqack _ _, _ => .inl (isLive_live _)
  | .timerLoad _ _ _, _ => .inl (isLive_live _)
  | .mov _ _ _, _ => .inl (isLive_live _)
  | .movr _ _ _, _ => .inl (isLive_live _)
  | .add _ _ _ _, _ => .inl (isLive_live _)
  | .sub _ _ _ _, _ => .inl (isLive_live _)
  | .andOp _ _ _ _, _ => .inl (isLive_live _)
  | .orOp _ _ _ _, _ => .inl (isLive_live _)
  | .shr _ _ _ _, _ => .inl (isLive_live _)
  | .shl _ _ _ _, _ => .inl (isLive_live _)
  | .dec _ _, _ => .inl (isLive_live _)
  | .ldk _ _ _, _ => .inl (isLive_live _)
  | .ldx _ _ _, _ => .inl (isLive_live _)
  | .lds _ _, _ => .inl (isLive_live _)
  | .cmp _ _ _, _ => .inl (isLive_live _)
  | .ldl _ _ _, _ => .inl (isLive_live _)
  | .ceOn _, _ => .inl (isLive_live _)
  | .ceOff _, _ => .inl (isLive_live _)
  | .cmd _, _ => .inl (isLive_live _)
  | .addr _, _ => .inl (isLive_live _)
  | .din _ _, _ => .inl (isLive_live _)
  | .dout _ _, _ => .inl (isLive_live _)
  | .status _ _, _ => .inl (isLive_live _)
  | .trnRd _ _, _ => .inl (isLive_live _)
  | .trnWr _, _ => .inl (isLive_live _)
  | .stagingReserved _, _ => .inl (isLive_live _)
  | .lunTimeLimit _, _ => .inl (isLive_live _)
  | .trstExpiry _, _ => .inl (isLive_live _)
  | .suspendLimit _, _ => .inl (isLive_live _)
  | .dieCmdPollTimeout _, _ => .inl (isLive_live _)
  | .deadlinePass _, _ => .inl (isLive_top _)
  | .resumeMinWait _, _ => .inl (isLive_top _)
  | .resume _, _ => .inl (isLive_top _)
  | .holdMaxExpiry _, _ => .inl (isLive_top _)
  | .d0PeriodEnd, _ => .inl (isLive_top _)
  | .decodeJobStart _, _ => .inl (isLive_top _)
  | .decodeJobDone _ _, _ => .inl (isLive_top _)
  | .sliceJobOverrun _, _ => .inl (isLive_top _)
  | .sliceSpareActive _ _, _ => .inl (isLive_top _)
  | .rowTrackExpiry _ _, _ => .inl (isLive_live _)
  | .rlhMissWait _, _ => .inl (isLive_top _)
  | .padWaitExpiry _, _ => .inl (isLive_top _)
  | .spoolRequest _, _ => .inl (isLive_top _)
  | .spoolWriteResponse _ _ _, _ => .inl (isLive_top _)
  | .spoolReadData _ _ _ _, _ => .inl (isLive_top _)
  | .poolRequest, _ => .inl (isLive_top _)
  | .poolAnswerOk _ _, _ => .inl (isLive_top _)
  | .poolEmpty, _ => .inl (isLive_top _)
  | .poolRefused _, _ => .inl (isLive_top _)
  | .poolReservedAnswer, _ => .inl (isLive_top _)
  | .poolRetry, _ => .inl (isLive_top _)
  | .poolEmptyLimit, _ => .inl (isLive_top _)
  | .eventRecordWrite _, _ => .inl (isLive_top _)
  | .holdoffEnd _, _ => .inl (isLive_top _)
  | .spareTakeoverDone, _ => .inl (isLive_live _)
  | .quadIdleEntry _, _ => .inl (isLive_live _)
  | .quadOffEntry _, _ => .inl (isLive_live _)
  | .quadWake _, _ => .inl (isLive_live _)
  | .slicePairPower _, _ => .inl (isLive_top _)
  | .slicePairRelease _, _ => .inl (isLive_top _)
  | .deepEntryStep, _ => .inl (isLive_live _)
  | .deepEventDrainTimeout, _ => .inl (isLive_live _)
  | .deepWake _, _ => .inl (isLive_live _)
  | .pllLocked _, _ => .inl (isLive_live _)
  | .applyHoldExpiry _, _ => .inl (isLive_live _)
  | .storeFillDone _, _ => .inl (isLive_live _)
  | .rowCopyDone _, _ => .inl (isLive_live _)
  | .tetTimeLoRead, _ => .inr (isPort _)
  | .pushReservedWrite _, _ => .inl (isLive_live _)

/-! ### The write of a register -/

theorem writeWith_answers (a : Nat) (w : Word32) (f : State → State) (h : s.answers a = true) :
    s.writeWith a w f = f (s.storeReg a w) := by simp [State.writeWith, h]

theorem writeWith_silent (a : Nat) (w : Word32) (f : State → State) (h : s.answers a = false) : s.writeWith a w f = s.respond 0 (s.cfgError a) := by
  simp [State.writeWith, h]

/-! ### Work that a held record keeps back -/

theorem andThen_holds (h : Holder) (t : Todo) (f : State → State) (hh : s.holds h = true) :
    s.andThen h t f = { s with held := s.held ++ [(h, t)] } := if_pos hh

theorem andThen_free (h : Holder) (t : Todo) (f : State → State) (hh : s.holds h = false) : s.andThen h t f = f s := by
  simp [State.andThen, hh]

/-! ### The end of a command and the step -/

theorem setIrqs_shows : s.setIrqs.PinsShow := ⟨rfl, rfl, rfl⟩

/-- Every settled state shows its pins. -/
theorem settle_shows : s.settle.PinsShow := setIrqs_shows _

theorem step_cons {c : Instr} {l : List Instr} (h : s.pending = c :: l) : step s = exec c { s with pending := l } := by
  unfold step; rw [h]

theorem step_nil (h : s.pending = []) : step s = .next s.tick := by unfold step; rw [h]

end Sys2Proof.Machine
end

