-- ==== Sys2Proof/WellFormed.lean ====
section
/-! DEFINITION. Well-formed commands: operands that the environment can present at all. A command that is not well-formed
names no event of the part (a burst longer than the bus allows, a report with the wrong number of entries). -/

namespace Sys2Proof

/-- A Push write has a beat, and PSH_LAST on none but the last, where it may be missing (R54, Table 6.6). -/
def wfBeats (l : List Beat) : Bool := decide (1 ≤ l.length) && (l.dropLast.all fun b => !b.last)

/-- A Spool read returns 1 to 64 beats of 64 bytes, or an error with none (R62, R66). -/
def wfReadData (err : BitVec 2) (l : List Byte) : Bool :=
  (err != 0 && l.isEmpty) || (decide (64 ≤ l.length) && decide (l.length ≤ 4096) && l.length % 64 == 0)

/-- Calibration codes of the eight quads (R107). -/
def StartupReport.wf (r : StartupReport) : Bool := r.cal.length == 8

/-- Up to eight targets; windows for the eight DQ bits at each receiver level (R116 to R118). -/
def TrainReport.wf (r : TrainReport) : Bool :=
  decide (r.gate.length ≤ 8) && r.read.length == r.gate.length && (r.write.length == r.gate.length || r.write.isEmpty) &&
  (r.read.all fun t => t.all fun lv => lv.length == 8) && (r.write.all fun w => w.length == 8)

/-- Rows of a bank (Table 13.8). -/
def rowsOfBank (b : Nat) : Nat :=
  if b < 32 then 4096 else if b = 32 then 32768 else if b = 33 then 131072 else if b = 34 then 8192 else if b = 35 then 1024 else 2560

/-- A store read names a row that its bank has (Table 13.8). -/
def SramRead.wf (r : SramRead) : Bool := decide (r.row < rowsOfBank r.bank.val)

/-- The checks of a command's operands. -/
def Instr.wf : Instr → Bool
  | .startupStep r => r.wf
  | .driftPeriodEnd _ r => r.early.length == 8 && r.late.length == 8
  | .trainingDone _ r => r.wf
  | .inlinePush l | .sqTailDoorbell l | .cqHeadDoorbell l | .evHeadDoorbell l | .doorbellShadowWrite l | .pushReservedWrite l => wfBeats l
  | .spoolReadData _ _ e d => wfReadData e d
  | .rowTrackExpiry _ r => decide (r < 2 ^ 20)
  | .testread _ e => decide (e ≤ 79)
  | .trnRd _ d => d.length == 64
  | .din _ l | .spoolRequest ⟨_, l⟩ => l.all SramRead.wf
  | .decodeJobDone _ r => decide (4512 ≤ r.word.length) && decide (r.word.length ≤ 4608) && r.sram.all SramRead.wf
  | _ => true

end Sys2Proof
end

