-- ==== Sys2Proof/Tests/Slice0.lean ====
section
/-! SUPPORT. Tests of single commands against values of the spec, the refusals of WellFormed, and for every statement a state and
operands that meet its hypotheses, clause by clause. -/

namespace Sys2Proof.Tests

open Sys2Proof.Machine

-- Kernel evaluations one after the other: run at once they would each hold a thread.
set_option Elab.async false

/-! ### Small states -/

/-- Pins of a block in which every domain is powered and CCLK runs. -/
def onPins : Pins :=
  { resetN := true, faultN := true, pwrReq := BitVec.allOnes 28, pwrAck := BitVec.allOnes 28, cclkReq := true, cclkAck := true }

/-- The block just after start-up, every store filled. -/
def up : State :=
  ((({ pins := onPins, tet := { usable := BitVec.allOnes 28 } } : State).put TET_PWR_STAT.BLOCK blockActive).put TET_STARTUP.READY 1)

/-- RESET_N high, nothing else up. -/
def bare : State := { pins := { resetN := true, faultN := true } }

/-- up with a context of channel 0 that executes. -/
def running (c : Ctx) : State := up.modCtx 0 fun _ => { c with state := 2 }

/-- What a next state holds. -/
def nextIs (o : Host.Outcome State Fault Refusal) (p : State → Bool) : Bool :=
  match o with | .next t => p t | _ => false

/-! ### Well-formed commands -/

def beat (a : BitVec 10) (d : BitVec 512) (m : BitVec 64) (l : Bool) : Beat := { addr := a, data := d, strb := m, last := l }

theorem test_wf_push : Instr.wf (.inlinePush []) = false ∧ Instr.wf (.sqTailDoorbell [beat 0 0 0 true, beat 0 0 0 true]) = false
    ∧ Instr.wf (.cqHeadDoorbell []) = false ∧ Instr.wf (.evHeadDoorbell []) = false ∧ Instr.wf (.doorbellShadowWrite []) = false
    ∧ Instr.wf (.pushReservedWrite []) = false ∧ Instr.wf (.inlinePush [beat 0 0 0 false, beat 1 0 0 true]) = true := by decide +kernel

def report : StartupReport := { cal := [], banksBad := [], slicesBad := [], romBad := 0 }

theorem test_wf_reports : Instr.wf (.startupStep report) = false ∧ Instr.wf (.driftPeriodEnd 0 ⟨[], List.replicate 8 0⟩) = false
    ∧ Instr.wf (.driftPeriodEnd 0 ⟨List.replicate 8 0, []⟩) = false
    ∧ Instr.wf (.trainingDone 0 ⟨true, [none], [], []⟩) = false ∧ Instr.wf (.trainingDone 0 ⟨true, [], [[]], []⟩) = false
    ∧ Instr.wf (.trainingDone 0 ⟨true, List.replicate 9 none, List.replicate 9 [], []⟩) = false
    ∧ Instr.wf (.trainingDone 0 ⟨true, [none], [[[]]], []⟩) = false ∧ Instr.wf (.trainingDone 0 ⟨true, [none], [[]], [[]]⟩) = false := by decide +kernel

theorem test_wf_data : Instr.wf (.spoolReadData 0 0 0 []) = false ∧ Instr.wf (.spoolReadData 0 0 0 [0]) = false
    ∧ Instr.wf (.spoolReadData 0 0 0 (List.replicate 4160 0)) = false ∧ Instr.wf (.spoolReadData 0 0 2 []) = true
    ∧ Instr.wf (.rowTrackExpiry 0 (2 ^ 20)) = false ∧ Instr.wf (.testread 0 80) = false ∧ Instr.wf (.trnRd 0 []) = false
    ∧ Instr.wf (.decodeJobDone 0 ⟨[], 1, 0, []⟩) = false ∧ Instr.wf (.din 31 [⟨31, 4096, true, 0, false⟩]) = false
    ∧ Instr.wf (.spoolRequest ⟨1, [⟨32, 32768, true, 0, false⟩]⟩) = false
    ∧ Instr.wf (.decodeJobDone 0 ⟨List.replicate 4512 0, 1, 0, [⟨36, 2560, false, 0, false⟩]⟩) = false ∧ Instr.wf (.din 31 [⟨31, 4095, true, 0, false⟩]) = true
    ∧ Instr.wf (.decodeJobDone 0 ⟨List.replicate 4609 0, 1, 0, []⟩) = false := by decide +kernel

/-! ### Witnesses -/

theorem witness_StepRunsFrontCommand : ({ up with pending := [.fuseTimeout] } : State).pending = [.fuseTimeout] ∧ up.pending = [] ∧ up.pins.resetN = true ∧ State.reset.pending = [] ∧ State.reset.pins.resetN = false := by
  decide +kernel

theorem witness_TestModeAndResetHoldCommands :
    functional .fuseTimeout ∧ ({ up with pins := { onPins with testMode := true } } : State).pins.testMode = true
    ∧ (∀ d, Instr.fuseTimeout ≠ .pwrAckRise d) ∧ (∀ d, Instr.fuseTimeout ≠ .pwrAckFall d) ∧ Instr.fuseTimeout ≠ .cclkAckFall
    ∧ State.reset.pins.testMode = false ∧ State.reset.pins.resetN = false := by
  refine ⟨by decide, rfl, by decide, by decide, by decide, rfl, rfl⟩

/-- States in which no consequence is due, without and with a request of the command. -/
theorem witness_SettledStateShowsPins : State.Still State.reset ∧ State.reset.ready = []
    ∧ State.Still { State.reset with ready := [{ sid := 33 }, { sid := 32, fresh := true }] } := by
  unfold State.Still; exact ⟨⟨by decide +kernel, by decide +kernel⟩, rfl, by decide +kernel, by decide +kernel⟩

theorem witness_StepsKeepPinsShown : State.reset.PinsShow ∧ step State.reset = .next State.reset := by
  refine ⟨by decide +kernel, rfl⟩

theorem witness_StepsKeepRegisters : State.reset.regsWf ∧ step State.reset = .next State.reset := by
  refine ⟨by decide +kernel, rfl⟩

theorem witness_IdentityRegisters : up.answers TOP_ID.adr = true ∧ up.reg TOP_ID.adr = regReset TOP_ID.adr
    ∧ up.answers TOP_VERSION.adr = true ∧ up.reg TOP_VERSION.adr = regReset TOP_VERSION.adr := by decide +kernel

theorem witness_RegisterReads : up.answers TOP_ID.adr = true ∧ up.answers TOP_TAGS.adr = true ∧ up.answers TOP_COS.adr = true
    ∧ up.answers (SQ_STAT.adr 127) = true ∧ up.answers (CQ_STAT.adr 31) = true ∧ up.answers (CQ_WAIT.adr 31) = true
    ∧ up.answers (EV_STAT.adr + 0x1000) = true ∧ up.answers (BAL_BANK.adr 36) = true ∧ up.answers (CQ_TAIL.adr 31) = true := by decide +kernel

theorem witness_ActionRowsAreRegisterWrites :
    bit 2#32 0 = false ∧ bit 2#32 2 = false ∧ bit 1#32 1 = false ∧ bit 1#32 2 = false ∧ bit 4#32 0 = false ∧ bit 4#32 1 = false
    ∧ bit 0x40000000#32 30 = true ∧ bit 0x80000000#32 31 = true ∧ bit 0x80000000#32 30 = false ∧ bit 0x40000000#32 31 = false
    ∧ bit 0xC0000000#32 23 = false := by decide +kernel

theorem witness_ResetEdges : State.reset.pins.resetN = false ∧ State.reset.pins.testMode = false ∧ up.pins.resetN = true
    ∧ (let p : Pins := { testMode := true }; p.resetN = false ∧ p.testMode = true)
    ∧ (let p := { onPins with testMode := true, pwrAck := 0 }
       p.resetN = true ∧ p.testMode = true ∧ p.pwrReq.getLsbD (pdP 7) = true ∧ p.pwrAck.getLsbD (pdP 7) = false) := by decide +kernel

theorem witness_EveryCommandCompletes : functional (.nop 127 4095) ∧ up.Works ∧ State.reset.pins.resetN = false ∧ State.reset.pins.testMode = false
    ∧ (let p : Pins := { testMode := true }; p.resetN = false ∧ p.testMode = true) := by
  refine ⟨by decide, by decide, rfl, rfl, rfl, rfl⟩

theorem witness_RegisterWriteStoresAndActs : up.Works ∧ up.answers (4 * (BitVec.ofNat 18 0).toNat) = true
    ∧ up.answers (4 * (BitVec.ofNat 18 (2 ^ 18 - 1)).toNat) = false := by decide +kernel

theorem witness_RegistersThatDoNotAnswer :
    State.reset.pins.resetN = false ∧ bare.pins.resetN = true ∧ regRow (2 ^ 20) = none
    ∧ regDomain (PHY_CTRL.adr 7) = some (pdQ 7) ∧ (regRow (PHY_CTRL.adr 7)).isSome = true ∧ bare.powered (pdQ 7) = false := by decide +kernel

theorem witness_RegisterStoreFrame : (regRow TET_HOLDUP.adr).isSome = true ∧ (regRow GEO_STRIPE_SEL.adr).isSome = true := by decide +kernel

/-- Bit i of a register is RW or unlocked RWL, W1C, W1S, or none of these. -/
def bitKind (a i : Nat) (m c h : Bool) : Bool :=
  (regRow a).any fun r => (BitVec.ofNat 32 (r.rw + r.rwl)).getLsbD i == m && (BitVec.ofNat 32 r.w1c).getLsbD i == c
    && (BitVec.ofNat 32 r.w1s).getLsbD i == h

theorem witness_AccessCodesOfAWrite : bitKind TOP_ID.adr 31 false false false ∧ bitKind TET_HOLDUP.adr 0 true false false
    ∧ bitKind BAL_FATAL.adr 0 false true false ∧ bitKind TOP_CTRL.adr 0 false false true := by decide +kernel

theorem witness_QueueAndRingEnables :
    up.Works ∧ up.answers (SQ_CFG.adr 127) = true
    ∧ (let u := up.storeReg (SQ_CFG.adr 127) 0x80000000#32; u.on (SQ_STAT.ENABLED 127) = false ∧ u.sqCheck 127 ≠ 0)
    ∧ (let s := up.put (CQ_STAT.ENABLED 0) 1; let u := s.storeReg (SQ_CFG.adr 0) 0x84000000#32
       s.answers (SQ_CFG.adr 0) = true ∧ u.on (SQ_STAT.ENABLED 0) = false ∧ u.sqCheck 0 = 0)
    ∧ up.answers (CQ_CFG.adr 31) = true
    ∧ (let u := up.storeReg (CQ_CFG.adr 31) 0x80000000#32; u.cqEnabled 31 = false ∧ u.cqCheck 31 ≠ 0)
    ∧ (let u := up.storeReg (CQ_CFG.adr 31) 0x84000000#32; u.cqEnabled 31 = false ∧ u.cqCheck 31 = 0)
    ∧ up.answers (ringBase 1) = true
    ∧ (let u := up.storeReg (ringBase 1) 0x84000000#32; u.on (evF 1 EV_STAT.ENABLED) = false ∧ u.evCheck 1 = 0)
    ∧ (let u := up.storeReg (ringBase 1) 0x80000000#32; u.on (evF 1 EV_STAT.ENABLED) = false ∧ u.evCheck 1 ≠ 0)
    ∧ (let u := (up.put (evF 0 EV_STAT.ENABLED) 1).storeReg (ringBase 0) 0xC4000000#32
       u.on (evF 0 EV_STAT.ENABLED) = true ∧ u.ready = [] ∧ u.flying = [])
    ∧ (let u := ({ up.put (evF 0 EV_STAT.ENABLED) 1 with flying := [{ cont := .event 0 1 }] } : State).storeReg (ringBase 0) 0xC4000000#32
       u.on (evF 0 EV_STAT.ENABLED) = true
       ∧ u.flying.any (fun q => match q.cont with | .event x _ => x == 0 | _ => false) = true)
    ∧ (let s : State := { up.put (evF 0 EV_STAT.ENABLED) 1 with flying := [{ cont := .event 1 0 }] }
       let u := s.storeReg (ringBase 0) 0xC4000000#32
       s.Works ∧ s.answers (ringBase 0) = true ∧ u.on (evF 0 EV_STAT.ENABLED) = true ∧ u.ready ++ u.flying = [{ cont := .event 1 0 }]) := by decide +kernel

theorem witness_FunctionResetCommands :
    up.Works ∧ up.answers TOP_FRESET.adr = true ∧ (up.storeReg TOP_FRESET.adr 0x80000001#32).fresetMay = true
    ∧ (up.storeReg TOP_FRESET.adr 0x80000000#32).fresetMay = true ∧ up.topOn = true
    ∧ (let s : State := { up with freset := { busy := true, immediate := false, step := 3 } }; s.Works ∧ s.topOn = true)
    ∧ (let s : State := { up with freset := { busy := true, immediate := false, step := 7 } }; s.Works ∧ s.topOn = true) := by decide +kernel

/-- No die kind passes the check; one without values does not. -/
theorem witness_GeometryCommands :
    up.Works ∧ up.answers GEO_CTRL.adr = true
    ∧ (let u := up.storeReg GEO_CTRL.adr 1#32; u.on GEO_STAT.BUSY = false ∧ u.heldTags = [] ∧ (∀ q, q < 8 → u.on (PHY_STAT.APPLY_BUSY q) = false))
    ∧ (let u := (up.modTag 4095 fun x => { x with held := true }).storeReg GEO_CTRL.adr 1#32; u.on GEO_STAT.BUSY = false ∧ u.heldTags ≠ [])
    ∧ (let s : State := { up with checking := some [] }; s.Works ∧ s.topOn = true
       ∧ ((({ s with checking := none } : State).put GEO_STAT.BUSY 0).geoVerdict []) = none)
    ∧ (let t := [(GEO_DK_CTRL.adr 0, 0xFFFFFFFF#32)]; let s : State := { up with checking := some t }; s.Works ∧ s.topOn = true
       ∧ ((({ s with checking := none } : State).put GEO_STAT.BUSY 0).geoVerdict t).isSome = true)
    ∧ up.answers GEO_STRIPE_SEL.adr = true ∧ up.answers (GEO_TEMP.adr 15) = true
    ∧ (let u := (up.put (GEO_TEMP.HOLD 15) 1).storeReg (GEO_TEMP.adr 15) 0; u.holdNow 15 ≠ u.on (GEO_TEMP.HOLD 15))
    ∧ (let u := (up.put (PHY_STAT.APPLY_BUSY 7) 1).storeReg GEO_CTRL.adr 1#32
       u.on GEO_STAT.BUSY = false ∧ u.heldTags = [] ∧ u.on (PHY_STAT.APPLY_BUSY 7) = true) := by decide +kernel

theorem witness_PatchCommands :
    up.Works
    ∧ (let s : State := { up with pins := { onPins with pwrReq := putBit onPins.pwrReq (chanterDomain 7) false } }
       let u := s.storeReg PAT_CTRL.adr 1#32
       let v := (s.put PAT_STAT.ACT_PENDING 1).setReg PAT_QUAD_PATCH_STATE.adr (BitVec.ofNat 32 (2 ^ 22))
       s.answers PAT_CTRL.adr = true ∧ u.on PAT_STAT.ACT_PENDING = false ∧ u.powered (chanterDomain 7) = false
       ∧ u.powered (chanterDomain 8) = true ∧ v.pendingOf 7 = true ∧ v.powered (chanterDomain 7) = false)
    ∧ ((up.put PAT_STAT.ACT_PENDING 1).storeReg PAT_CTRL.adr 1#32).on PAT_STAT.ACT_PENDING = true
    ∧ tabWf (fun _ => 0) (up.storeReg PAT_CTRL.adr 2#32).pending'.mtch = true ∧ tabWf (fun _ => 0) (up.storeReg PAT_CTRL.adr 2#32).pending'.entry = true
    ∧ up.answers (PAT_ROW.adr 511 1) = true ∧ (up.storeReg (PAT_ROW.adr 511 1) 0).patWritable = true
    ∧ ((up.put PAT_STAT.ACT_PENDING 1).storeReg (PAT_ROW.adr 511 1) 0).patWritable = false
    ∧ up.answers (PAT_NANO.adr 127 5) = true ∧ (up.storeReg (PAT_NANO.adr 127 5) 0).patWritable = true
    ∧ ((up.put PAT_STAT.ACT_PENDING 1).storeReg (PAT_NANO.adr 127 5) 0).patWritable = false
    ∧ up.answers PAT_CTRL.adr = true ∧ (up.storeReg PAT_CTRL.adr 2#32).patWritable = true
    ∧ ((up.put PAT_STAT.ACT_PENDING 1).storeReg PAT_CTRL.adr 2#32).patWritable = false ∧ up.answers PAT_INJECT.adr = true
    ∧ (let u := up.storeReg PAT_CTRL.adr 1#32; u.on PAT_STAT.ACT_PENDING = false ∧ (∀ k, k < 9 → u.powered (chanterDomain k) = true))
    ∧ (let s := (up.put PAT_STAT.ACT_PENDING 1).setReg PAT_QUAD_PATCH_STATE.adr 2#32; s.on PAT_STAT.ACT_PENDING = true ∧ s.pendingOf 0 = true ∧ s.chanterIdle 0 = true
       ∧ ∀ j, j < 9 → (s.setReg PAT_QUAD_PATCH_STATE.adr 1#32).pendingOf j = false)
    ∧ (let s := (up.put PAT_STAT.ACT_PENDING 1).setReg PAT_QUAD_PATCH_STATE.adr 0x2000002#32; s.on PAT_STAT.ACT_PENDING = true ∧ s.pendingOf 8 = true ∧ s.chanterIdle 8 = true
       ∧ ∃ j, j < 9 ∧ (s.setReg PAT_QUAD_PATCH_STATE.adr 2#32).pendingOf j = true) := by
  refine ⟨?_, ?_, ?_, ?_, ?_, ?_, ?_, ?_, ?_, ?_, ?_, ?_, ?_, ?_, ?_, ?_, ?_, ⟨?_, ?_, ?_, 0, ?_⟩⟩ <;> decide +kernel

theorem witness_CounterAndLockWrites : up.Works ∧ up.answers BLW_CTRL.adr = true ∧ bit 1#32 0 = true ∧ up.answers GEO_RLHC_CTRL.adr = true
    ∧ bit 0x1000000#32 24 = true ∧ up.answers (CH_RB_STAT.adr 31) = true ∧ up.answers TOP_CTRL.adr = true ∧ bit 0x80000000#32 31 = true := by
  decide +kernel

theorem witness_FatalCommands : up.Works ∧ up.answers BAL_FATAL_TEST.adr = true ∧ bit 1#32 0 = true ∧ up.answers BAL_FATAL.adr = true
    ∧ (let old := ((up.setReg BAL_FATAL.adr 4#32).storeReg BAL_FATAL.adr 0).reg BAL_FATAL.adr
       old ≠ 0 ∧ ((old &&& ~~~ 4#32) ||| (old &&& (0#32 ||| 0x21#32))) = 0 ∧ ((old &&& ~~~ 4#32) ||| (old &&& (4#32 ||| 0x21#32))) ≠ 0)
    ∧ up.injected 36 (0xFFFFFFFF % queueRows) = 0 ∧ (up.put TET_PWR_STAT.BLOCK blockDeep).block = blockDeep
    ∧ (up.put TET_PWR_STAT.BLOCK blockWaking).block = blockWaking ∧ up.block ≠ blockDeep ∧ up.block ≠ blockWaking := by
  decide +kernel

theorem witness_BallastCommands :
    up.Works ∧ up.answers BAL_INJECT.adr = true ∧ up.answers BLW_INJECT.adr = true
    ∧ (let u := up.storeReg BAL_INJECT.adr 0x20800000#32
       bit 0x20800000#32 23 = true ∧ fld 0x20800000#32 31 30 = 0 ∧ u.get BAL_INJECT.BANK = 32 ∧ u.get BAL_INJECT.ROW < bankRows 32
       ∧ (∀ d, d < 28 → bankDomain 32 = some d → u.usable d = true) ∧ u.get BAL_INJECT.MODE = 0)
    ∧ fld 0x40000000#32 31 30 ≠ 0 ∧ bit 0x111#32 8 = true
    ∧ up.answers BAL_REPAIR.adr = true ∧ bit 0xA4000000#32 31 = true ∧ fld 0xA4000000#32 29 24 = 36 ∧ fld 0xA4000000#32 19 0 < bankRows 36
    ∧ (up.storeReg BAL_REPAIR.adr 0xA4000000#32).get (BAL_BANK.USED 36) < 16
    ∧ ((up.put (BAL_BANK.USED 36) 16).storeReg BAL_REPAIR.adr 0xA4000000#32).get (BAL_BANK.USED 36) ≥ 16
    ∧ (up.storeReg BAL_REPAIR.adr 0xA4000000#32).ballast.copying.any (fun c => c.1 == 36 && c.2.1 == 0) = false
    ∧ ([(36, 0, 0)] : List (Nat × Nat × Nat)).find? (fun x => x.1 == 36) = some (36, 0, 0)
    ∧ (∀ x ∈ [(31, bankRows 31 - 1), (32, 0), (34, 0), (36, queueRows - 1), (36, bankRows 36 - 1)],
       let w := BitVec.ofNat 32 (3 * 2 ^ 30 + x.1 * 2 ^ 24 + 2 ^ 23 + x.2); let u := up.storeReg BAL_INJECT.adr w
       bit w 23 = true ∧ u.get BAL_INJECT.BANK = x.1 ∧ u.get BAL_INJECT.ROW = x.2 ∧ x.2 < bankRows x.1 ∧ u.get BAL_INJECT.MODE = 3
       ∧ ∀ d, d < 28 → bankDomain x.1 = some d → u.usable d = true)
    ∧ queueRows - 1 < queueRows ∧ queueRows ≤ bankRows 36 - 1
    ∧ (let w := BitVec.ofNat 32 (2 ^ 31 + 31 * 2 ^ 24); let u := up.storeReg BAL_REPAIR.adr w
       fld w 29 24 = 31 ∧ fld w 19 0 < bankRows 31 ∧ u.get (BAL_BANK.USED 31) < 16
       ∧ u.ballast.copying.any (fun c => c.1 == 31 && c.2.1 == 0) = false) := by decide +kernel

theorem witness_FenceCommands :
    up.Works ∧ up.answers (CH_FENCE.adr 31) = true ∧ ((up.storeReg (CH_FENCE.adr 31) 0x80000000#32).lunOf 1023).fenced = false
    ∧ up.answers (CH_UNFENCE.adr 31) = true
    ∧ (let u := (up.modLun 1023 fun x => { x with fenced := true }).storeReg (CH_UNFENCE.adr 31) 0x80000000#32
       ((u.reg (CH_FLT_LUNS.adr 31)).getLsbD 31 || (u.lunOf 1023).resetting || u.untrained 31 || u.on (CH_FLT_CTRL.FENCED 31)
         || u.on (Q_FLT_CTRL.FENCED 7)) = false ∧ (u.lunOf 1023).fenced = true)
    ∧ (let u := (up.setBit (CH_FLT_LUNS.adr 31) 31 true).storeReg (CH_UNFENCE.adr 31) 0x80000000#32
       (u.reg (CH_FLT_LUNS.adr 31)).getLsbD 31 = true)
    ∧ up.answers (CH_FLT_CTRL.adr 31) = true ∧ (up.storeReg (CH_FLT_CTRL.adr 31) 2#32).on (CH_FLT_CTRL.FENCED 31) = false
    ∧ (let u := up.storeReg (CH_FLT_CTRL.adr 31) 1#32; u.on (fltValid (CH_FLT_FIRST.adr 31)) = false
       ∧ u.on (fltRecovering (CH_FLT_FIRST.adr 31)) = false ∧ u.untrained 31 = false)
    ∧ ((up.put (fltRecovering (CH_FLT_FIRST.adr 31)) 1).storeReg (CH_FLT_CTRL.adr 31) 1#32).on (fltRecovering (CH_FLT_FIRST.adr 31)) = true
    ∧ ((up.put (fltRecovering (Q_FLT_FIRST.adr 7)) 1).storeReg (Q_FLT_CTRL.adr 7) 1#32).on (fltRecovering (Q_FLT_FIRST.adr 7)) = true
    ∧ (let u := up.storeReg (Q_FLT_CTRL.adr 7) 1#32; u.on (PHY_STAT.LOCK 7) = false)
    ∧ (let u := ((up.put (PHY_STAT.LOCK 7) 1).put (Q_FLT_CTRL.CHT_FAULTED 7) 1).storeReg (Q_FLT_CTRL.adr 7) 1#32
       u.on (Q_FLT_CTRL.CHT_FAULTED 7) = true ∧ u.on (Q_FLT_CTRL.SPARE_SERVING 7) = false)
    ∧ (let u := (((up.put (PHY_STAT.LOCK 7) 1).put (Q_FLT_CTRL.CHT_FAULTED 7) 1).put (Q_FLT_CTRL.SPARE_SERVING 7) 1).storeReg (Q_FLT_CTRL.adr 7) 1#32
       u.on (fltValid (Q_FLT_FIRST.adr 7)) = false ∧ u.on (fltRecovering (Q_FLT_FIRST.adr 7)) = false
       ∧ u.on (Q_FLT_CTRL.SPARE_SERVING 7) = true ∧ u.on (PHY_STAT.LOCK 7) = true)
    ∧ ((up.modChan 31 fun x => { x with applyBad := true }).storeReg (CH_FLT_CTRL.adr 31) 1#32).untrained 31 = true
    ∧ ((up.put (fltValid (CH_FLT_FIRST.adr 31)) 1).storeReg (CH_FLT_CTRL.adr 31) 1#32).on (fltValid (CH_FLT_FIRST.adr 31)) = true
    ∧ up.answers (Q_FLT_CTRL.adr 7) = true ∧ (up.storeReg (Q_FLT_CTRL.adr 7) 2#32).on (Q_FLT_CTRL.FENCED 7) = false
    ∧ (let u := (up.put (PHY_STAT.LOCK 7) 1).storeReg (Q_FLT_CTRL.adr 7) 1#32; u.on (fltValid (Q_FLT_FIRST.adr 7)) = false
       ∧ u.on (fltRecovering (Q_FLT_FIRST.adr 7)) = false ∧ u.on (Q_FLT_CTRL.CHT_FAULTED 7) = false ∧ u.on (PHY_STAT.LOCK 7) = true)
    ∧ ((up.put (fltValid (Q_FLT_FIRST.adr 7)) 1).storeReg (Q_FLT_CTRL.adr 7) 1#32).on (fltValid (Q_FLT_FIRST.adr 7)) = true := by decide +kernel

theorem witness_SpareCommands :
    up.Works ∧ up.answers (Q_FLT_CTRL.adr 7) = true ∧ bit 4#32 2 = true
    ∧ (let u := up.storeReg (Q_FLT_CTRL.adr 7) 4#32; let c := (u.put (Q_FLT_CTRL.CHT_FAULTED 7) 1).capture (.quad 7) 0x10 2 32 false
       u.on (Q_FLT_CTRL.CHT_FAULTED 7) = false ∧ c.ballast.spcOk = false)
    ∧ (let s : State := { up with ballast := { up.ballast with spcOk := true } }; let u := s.storeReg (Q_FLT_CTRL.adr 7) 4#32
       let c := (u.put (Q_FLT_CTRL.CHT_FAULTED 7) 1).capture (.quad 7) 0x10 2 32 false
       u.on (Q_FLT_CTRL.CHT_FAULTED 7) = false ∧ c.ballast.spcOk = true ∧ c.ballast.spcQuad = none)
    ∧ (let s := ({ up with ballast := { up.ballast with spcQuad := some 7 } } : State).modQuad 7 fun x => { x with takeover := true }
       s.ballast.spcQuad = some 7 ∧ (s.quadOf 7).takeover = true ∧ s.usable pdSpc = true)
    ∧ (let s := up.modSlice 17 fun x => { x with st := sliceTesting }
       s.topOn = true ∧ (s.sliceOf 17).st = sliceTesting ∧ s.powered (pdB 8) = true)
    ∧ (let u := (up.put (fltRecovering (fltAdr (.quad 7))) 1).storeReg (Q_FLT_CTRL.adr 7) 4#32
       let c := (u.put (Q_FLT_CTRL.CHT_FAULTED 7) 1).capture (.quad 7) 0x10 2 32 false
       u.on (Q_FLT_CTRL.CHT_FAULTED 7) = false ∧ u.recovering (.quad 7) = true ∧ c.on (Q_FLT_CTRL.FENCED 7) = false)
    ∧ up.recovering (.quad 7) = false := by decide +kernel

theorem witness_FaultRecords :
    up.Works ∧ up.answers (fltAdr (.slice 17)) = true ∧ bit 0x80000000#32 31 = true
    ∧ (up.storeReg (fltAdr (.slice 17)) 0x80000000#32).on (fltRecovering (fltAdr (.slice 17))) = false
    ∧ ((up.put (fltRecovering (fltAdr (.slice 17))) 1).storeReg (fltAdr (.slice 17)) 0x80000000#32).on (fltRecovering (fltAdr (.slice 17))) = true
    ∧ up.on (fltValid (fltAdr (.chan 31))) = false
    ∧ (up.put (fltValid (fltAdr (.top 5))) 1).on (fltValid (fltAdr (.top 5))) = true := by decide +kernel

/-- A block in start-up step k. -/
def starting (k : Nat) (t : List Word32) : State :=
  ({ pins := onPins, tet := { starting := true, trim := t } } : State).put TET_STARTUP.STEP k

theorem witness_StartupAndFuses :
    (∀ k, k < 11 → (starting k []).Works ∧ (starting k []).tet.starting = true ∧ (starting k []).get TET_STARTUP.STEP = k)
    ∧ (starting 3 []).tet.trim.length ≠ 32 ∧ (starting 3 (List.replicate 32 0)).tet.trim.length = 32
    ∧ (let p := (starting 4 []).pins; p.pwrReq &&& p.pwrAck = BitVec.allOnes 28 ∧ p.cclkReq = true ∧ p.cclkAck = true)
    ∧ (let s : State := { pins := { bare.pins with fuseReq := true, fuseAddr := 30 } }; s.Works ∧ s.pins.fuseReq = true ∧ s.pins.fuseAddr < 31)
    ∧ (let s : State := { pins := { bare.pins with fuseReq := true, fuseAddr := 31 } }
       31 ≤ s.pins.fuseAddr) := by decide +kernel

/-- A Trim Row of zeros but its first word and its last, c. -/
def trimRow (w c : Word32) : State := starting 3 (w :: List.replicate 30 0 ++ [c])

theorem trimRow_word (w c : Word32) {i : Nat} (h : i < 31) : (trimRow w c).trimWord i = (trimRow w 0).trimWord i := by
  show ((w :: List.replicate 30 0) ++ [c]).getD i 0 = ((w :: List.replicate 30 0) ++ [0]).getD i 0
  have : i < (w :: List.replicate 30 (0 : Word32)).length := by simpa using h
  simp only [List.getD_eq_getElem?_getD, List.getElem?_append_left this]

theorem filterMap_agree {α β : Type} (f g : α → Option β) (l : List α) (h : ∀ x ∈ l, f x = g x) : l.filterMap f = l.filterMap g := by
  induction l <;> simp_all [List.filterMap_cons]

theorem trimRow_repairs (w c : Word32) : (trimRow w c).repairs = (trimRow w 0).repairs := by
  have hb : ∀ x ∈ (List.range 13).map (· + 18), x < 31 := by decide
  refine filterMap_agree _ _ _ fun x hx => ?_
  have e := trimRow_word w c (hb x hx)
  rw [e]

/-- With its CRC a row with LAYOUT 1 passes the check, one with LAYOUT 0 does not. -/
theorem witness_trimFault (c : Word32) :
    (c = crc32c ((1 :: List.replicate 30 0).flatMap fun (x : Word32) => natLe 4 x.toNat) → (trimRow 1 c).trimFault = none)
    ∧ (c = crc32c ((0 :: List.replicate 30 0).flatMap fun (x : Word32) => natLe 4 x.toNat) → (trimRow 0 c).trimFault = some 0) := by
  constructor <;> intro h <;> unfold State.trimFault <;> dsimp only
  · rw [show (trimRow 1 c).tet.trim.take 31 = 1 :: List.replicate 30 0 from rfl, ← h, show (trimRow 1 c).trimWord 31 = c from rfl,
      trimRow_repairs, trimRow_word 1 c (by decide)]
    simp only [bne_self_eq_false]
    decide +kernel
  · rw [show (trimRow 0 c).tet.trim.take 31 = 0 :: List.replicate 30 0 from rfl, ← h, show (trimRow 0 c).trimWord 31 = c from rfl,
      trimRow_repairs, trimRow_word 0 c (by decide)]
    simp only [bne_self_eq_false]
    decide +kernel

theorem witness_HandshakeCommands :
    up.pins.testMode = false
    ∧ (let p := { onPins with pwrAck := 0 }; p.resetN = true ∧ p.pwrReq.getLsbD 27 = true ∧ p.pwrAck.getLsbD 27 = false)
    ∧ (let p := { onPins with pwrReq := 0 }; p.pwrReq.getLsbD 27 = false ∧ p.pwrAck.getLsbD 27 = true)
    ∧ up.powered 27 = true ∧ up.tet.starting = false
    ∧ (let p := { onPins with cclkAck := false }; p.resetN = true ∧ p.cclkReq = true ∧ p.cclkAck = false ∧ (p.cclkReq && !p.cclkAck) = true)
    ∧ (let p := { onPins with cclkReq := false }; p.cclkReq = false ∧ p.cclkAck = true)
    ∧ (let s : State := { up with pins := { onPins with pwrAck := 0 } }
       (s.pins.pwrReq.getLsbD 27 && !s.pins.pwrAck.getLsbD 27) = true ∧ s.tet.late.getLsbD 27 = false ∧ s.tet.late.getLsbD 28 = false) := by
  decide +kernel

theorem witness_WakeAndPowerFailCommands :
    up.Works ∧ up.on TET_WAKEN_STAT.MASKED = false ∧ up.tet.lastWake = none ∧ (up.put TET_WAKEN_STAT.MASKED 1).on TET_WAKEN_STAT.MASKED = true
    ∧ (let s := ({ up with tet := { up.tet with lastWake := some 0 } } : State).put TET_WAKEN_CTRL.GAP 1
       s.tet.lastWake = some 0 ∧ (s.now - 0) * 16 < s.get TET_WAKEN_CTRL.GAP * 25)
    ∧ (let s := (up.put TET_WAKEN_CTRL.IDLE_MAX 3).put TET_WAKEN_STAT.IDLE 2
       let v := s.put TET_WAKEN_STAT.IDLE (min (s.get TET_WAKEN_STAT.IDLE + 1) 15)
       min (s.get TET_WAKEN_STAT.IDLE + 1) 15 = v.get TET_WAKEN_CTRL.IDLE_MAX ∧ v.on TET_WAKEN_STAT.MASKED = false)
    ∧ (let s := (up.put TET_WAKEN_CTRL.IDLE_MAX 3).put TET_WAKEN_STAT.IDLE 1
       let v := s.put TET_WAKEN_STAT.IDLE (min (s.get TET_WAKEN_STAT.IDLE + 1) 15)
       min (s.get TET_WAKEN_STAT.IDLE + 1) 15 ≠ v.get TET_WAKEN_CTRL.IDLE_MAX)
    ∧ ((up.setReg TET_WAKE_EN.adr 8).reg TET_WAKE_EN.adr).getLsbD 3 = true ∧ (up.setReg TET_WAKE_EN.adr 8).block = blockActive
    ∧ up.on TET_PWRFAIL.LATCH = false ∧ (up.put TET_PWRFAIL.LATCH 1).on TET_PWRFAIL.LATCH = true
    ∧ (up.put TET_PWRFAIL.HOLDUP 1).on TET_PWRFAIL.HOLDUP = true
    ∧ (let v := ((up.put TET_PWRFAIL.LATCH 1).put TET_PWRFAIL.HOLDUP 1).storeReg TET_PWRFAIL.adr 0x80000000#32
       v.on TET_PWRFAIL.LATCH = true ∧ v.on TET_PWRFAIL.HOLDUP = true)
    ∧ (let v := (up.put TET_PWRFAIL.LATCH 1).storeReg TET_PWRFAIL.adr 0x80000000#32
       v.on TET_PWRFAIL.LATCH = true ∧ v.on TET_PWRFAIL.HOLDUP = false)
    ∧ (let s := (up.put TET_WAKEN_CTRL.IDLE_MAX 1).put TET_WAKEN_STAT.IDLE 2
       s.get TET_WAKEN_CTRL.IDLE_MAX ≤ min (s.get TET_WAKEN_STAT.IDLE + 1) 15)
    ∧ (let s : State := { up with tet := { up.tet with windows := [true, false] } }; s.tet.windows = true :: [false])
    ∧ (let s : State := { up with tet := { up.tet with windows := [false] } }; s.tet.windows = false :: [])
    ∧ (let s := (up.put TET_PWR_STAT.BLOCK blockPreparing).setReg TET_WAKE_EN.adr 8
       s.block = blockPreparing ∧ (s.reg TET_WAKE_CAUSE.adr).getLsbD 3 = false ∧ (s.reg TET_WAKE_EN.adr).getLsbD 3 = true)
    ∧ ((up.setReg TET_WAKE_CAUSE.adr 8).reg TET_WAKE_CAUSE.adr).getLsbD 3 = true
    ∧ (up.storeReg TET_PWRFAIL.adr 0x80000000#32).on TET_PWRFAIL.LATCH = false := by decide +kernel

theorem witness_PowerStateCommands :
    up.Works ∧ bit 0x80000000#32 31 = true ∧ (up.storeReg TET_PWR_CTRL.adr 0x80000000#32).block = blockActive
    ∧ ((up.put TET_PWR_STAT.BLOCK blockPreparing).storeReg TET_PWR_CTRL.adr 0x80000000#32).block ≠ blockActive
    ∧ ((up.put TET_PWR_STAT.BLOCK blockPreparing).storeReg TET_PWR_CTRL.adr 0x40000000#32).block = blockPreparing
    ∧ ((up.put TET_PWR_STAT.BLOCK blockDeep).storeReg TET_PWR_CTRL.adr 0x40000000#32).block = blockDeep
    ∧ (let u := (up.setQstate 7 2).storeReg (TET_QPOL.adr 7) 0x80000001#32
       u.topOn = true ∧ u.halted = false ∧ u.tet.sleepStep < 5 ∧ u.qstate 7 = 2 ∧ u.on (TET_QPOL.ON 7) = true)
    ∧ (let s := up.put (TET_QPOL.IDLE_EN 7) 1
       s.topOn = true ∧ s.qstate 7 = 0 ∧ s.on (TET_QPOL.IDLE_EN 7) = true ∧ s.on (TET_QPOL.ON 7) = false ∧ s.quadAsleep 7 = true)
    ∧ (let s := (up.put (TET_QPOL.OFF_EN 7) 1).setQstate 7 1
       s.halted = false ∧ s.qstate 7 = 1 ∧ s.on (TET_QPOL.OFF_EN 7) = true ∧ s.on (TET_QPOL.ON 7) = false ∧ s.quadAsleep 7 = true)
    ∧ (let s := (up.put (TET_QPOL.ON 7) 1).setQstate 7 2
       s.topOn = true ∧ s.halted = false ∧ s.tet.sleepStep < 5 ∧ s.qstate 7 = 2 ∧ s.quadWanted 7 = true)
    ∧ ((up.put TET_PWR_STAT.BLOCK blockPreparing).storeReg TET_PWR_CTRL.adr 0xC0000000#32).block = blockPreparing
    ∧ (up.storeReg TET_PWR_CTRL.adr 0x40000000#32).block ≠ blockPreparing ∧ (up.storeReg TET_PWR_CTRL.adr 0x40000000#32).block ≠ blockDeep
    ∧ ((up.setQstate 7 2).storeReg (TET_QPOL.adr 7) 0x80000001#32).tet.topOnly = false
    ∧ (let u := (up.setQstate 7 1).storeReg (TET_QPOL.adr 7) 0x80000001#32; u.qstate 7 = 1 ∧ u.on (TET_QPOL.ON 7) = true)
    ∧ chanQuad 31 = 7 ∧ chanQuad 0 ≠ 7 := by decide +kernel

def sleeping (k : Nat) : State := { up with tet := { up.tet with sleepStep := k } }

theorem witness_DeepAndSlicePairCommands :
    (∀ k, k < 7 → (sleeping k).Works ∧ (sleeping k).halted = false ∧ (sleeping k).wakeAsked = false ∧ (sleeping k).sleepBad = none)
    ∧ (let s : State := { up with tet := { up.tet with sleepStep := 6, prepWake := true } }; s.tet.sleepStep ≠ 0 ∧ s.wakeAsked = true)
    ∧ (let s := (sleeping 2).put TET_PWRFAIL.LATCH 1; 2 ≤ s.tet.sleepStep ∧ s.wakeAsked = false ∧ s.sleepBad = some 5)
    ∧ (let s : State := { up.put TET_PWR_STAT.BLOCK blockDeep with
         pins := { onPins with pwrReq := 0, pwrAck := 0, cclkAck := false }, tet := { up.tet with prepWake := true } }
       s.Works ∧ s.block = blockDeep ∧ s.halted = false ∧ s.wakeAsked = true ∧ s.pins.pwrAck.getLsbD pdTop = false ∧ s.pins.cclkAck = false)
    ∧ (let s := ({ up.put TET_PWR_CTRL.B_GATE 1 with jobs := [{}] } : State).modSlice 17 fun x => { x with st := sliceActive }
       s.topOn = true ∧ s.halted = false ∧ s.on TET_PWR_CTRL.B_GATE = true ∧ s.pairNeeded 8 = true ∧ s.tet.sleepStep < 5 ∧ s.jobs.any (fun j => !j.dead) = true)
    ∧ (let s := up.put TET_PWR_CTRL.B_GATE 1
       s.topOn = true ∧ s.halted = false ∧ s.on TET_PWR_CTRL.B_GATE = true ∧ s.pairsKept.contains 8 = false
       ∧ ([16, 17].any fun i => (s.sliceOf i).job.isSome || (s.sliceOf i).st == sliceTesting) = false
       ∧ s.pins.pwrReq.getLsbD (pdB 8) = true)
    ∧ (∀ k, k < 7 → (sleeping k).accs = [] ∧ (sleeping k).dirtyLines = [] ∧ (sleeping k).rlh.wbq = [] ∧ (sleeping k).rlh.pooled = []
       ∧ (sleeping k).ready = [] ∧ (sleeping k).flying = [] ∧ (sleeping k).rings = up.rings)
    ∧ (∀ r, r < 2 → (up.ringOf r).queue = [] ∧ (up.ringOf r).late = [] ∧ (up.ringOf r).out = [])
    ∧ ({ sleeping 3 with ready := [{}] } : State).ready ≠ []
    ∧ (((sleeping 4).modRing 1 fun x => { x with queue := [{}] }).ringOf 1).queue ≠ []
    ∧ pdTop = 0 ∧ (∀ d, d < 28 → ({ sleeping 5 with pins := { onPins with pwrAck := 1 } } : State).pins.pwrAck.getLsbD d = decide (d = 0))
    ∧ ({ sleeping 5 with pins := { onPins with pwrAck := 1 } } : State).sleepBad = none
    ∧ (sleeping 5).pins.pwrAck.getLsbD 27 = true := by
  refine ⟨?_, ?_, ?_, ?_, ?_, ?_, ?_⟩ <;> decide +kernel

def fstR : TrainReport := { dccOk := true, gate := [], read := [], write := [] }

theorem witness_PllCommands :
    up.Works ∧ up.powered (pdP 7) = true
    ∧ (let s := up.put (PHY_STAT.LOCK 7) 1; let u := s.modQuad 7 fun x => { x with relocking := true, losses := [1, 0] }
       s.on (PHY_STAT.LOCK 7) = true ∧ u.on (PHY_STAT.STBY_LOCK 7) = false ∧ (s.quadOf 7).losses.getD 0 0 + 1 < 3)
    ∧ (let s := (up.put (PHY_STAT.LOCK 7) 1).put (PHY_STAT.STBY_LOCK 7) 1
       s.on (PHY_STAT.LOCK 7) = true ∧ (s.modQuad 7 fun x => { x with relocking := true }).on (PHY_STAT.STBY_LOCK 7) = true)
    ∧ (let s := (up.put (PHY_STAT.LOCK 7) 1).modQuad 7 fun x => { x with relocking := true }
       (s.quadOf 7).relocking = true ∧ (s.quadOf 7).apply = 0 ∧ s.powered (pdP 7) = true ∧ s.on (PHY_STAT.LOCK 7) = true)
    ∧ ((up.modQuad 7 fun x => { x with apply := 3 }).quadOf 7).apply = 3
    ∧ (let x := (up.modQuad 7 fun x => { x with waking := 2, relocking := true }).quadOf 7
       x.apply = 0 ∧ x.waking ≠ 0 ∧ x.relocking = true)
    ∧ ((up.modQuad 7 fun x => { x with apply := 3 }).quadOf 7).apply = 3 ∧ up.powered (pdP 7) = true
    ∧ (let s := (up.put (PHY_STAT.LOCK 7) 1).put (PHY_STAT.STBY_LOCK 7) 1
       let u := s.modQuad 7 fun x => { x with losses := [2, 0] }
       u.on (PHY_STAT.LOCK 7) = true ∧ u.on (PHY_STAT.STBY_LOCK 7) = true ∧ 3 ≤ (u.quadOf 7).losses.getD 0 0 + 1) := by decide +kernel

theorem witness_ApplyAndCalibration :
    up.Works ∧ up.answers (PHY_CTRL.adr 7) = true ∧ (up.storeReg (PHY_CTRL.adr 7) 1#32).on (PHY_STAT.APPLY_BUSY 7) = false
    ∧ ((up.put (PHY_STAT.APPLY_BUSY 7) 1).storeReg (PHY_CTRL.adr 7) 1#32).on (PHY_STAT.APPLY_BUSY 7) = true
    ∧ (let s := up.modQuad 7 fun x => { x with apply := 1 }
       (s.quadOf 7).apply = 1 ∧ s.quadQuiet 7 = true ∧ s.applyCheck 7 = none ∧ (s.put TET_PWRFAIL.LATCH 1).applyCheck 7 = some (7, 0))
    ∧ ((up.modQuad 7 fun x => { x with apply := 3 }).quadOf 7).apply = 3
    ∧ ((up.modQuad 7 fun x => { x with applyHeld := true }).quadOf 7).applyHeld = true
    ∧ up.answers (ZQ_CTRL.adr 7) = true ∧ bit 1#32 0 = true
    ∧ (let s := up.modQuad 7 fun x => { x with zqRuns := true }
       (s.quadOf 7).apply = 0 ∧ (s.quadOf 7).waking = 0 ∧ (s.quadOf 7).zqRuns = true ∧ s.powered (pdP 7) = true)
    ∧ (let s := up.modQuad 7 fun x => { x with waking := 2 }; (s.quadOf 7).apply = 0 ∧ (s.quadOf 7).waking ≠ 0 ∧ s.powered (pdP 7) = true)
    ∧ ((up.modQuad 7 fun x => { x with apply := 4 }).quadOf 7).apply = 4
    ∧ (let s := (up.put (ZQ_CTRL.PERIOD 7) 1).modQuad 7 fun x => { x with calDone := true }
       s.on (ZQ_CTRL.PERIOD 7) = true ∧ s.powered (pdP 7) = true ∧ (s.quadOf 7).calDone = true ∧ s.qstate 7 = 0 ∧ s.on (ZQ_STAT.BUSY 7) = false) := by
  decide +kernel

theorem witness_ApplyWhileBusyIsIgnored : up.Works ∧ (up.put (PHY_STAT.APPLY_BUSY 7) 1).on (PHY_STAT.APPLY_BUSY 7) = true := by decide +kernel

/-- Channel 31 in a DDR mode at target 7, trained. -/
def ddrUp : State := ((up.put (CH_MODE_STAT.TRAINED 31) 1).put (CH_TRAIN_CTRL.TGT_MASK 31) 0x80).modChan 31
  fun c => { c with mode := 0x40008001#32 }

theorem witness_TrainingAndDrift :
    ddrUp.Works ∧ ddrUp.answers (CH_TRAIN_CTRL.adr 31) = true
    ∧ (let u := ddrUp.storeReg (CH_TRAIN_CTRL.adr 31) 0x8001#32; (u.chanOf 31).training = 0 ∧ u.trainOk 31 = true)
    ∧ (let u := (ddrUp.modChan 31 fun c => { c with training := 2 }).storeReg (CH_TRAIN_CTRL.adr 31) 0x8001#32
       u.trainOk 31 = true ∧ (u.chanOf 31).training ≠ 0)
    ∧ (let u := up.storeReg (CH_TRAIN_CTRL.adr 31) 0x8001#32; (u.chanOf 31).training = 0 ∧ u.trainOk 31 = false)
    ∧ (let s := (ddrUp.put (CH_TRAIN_CTRL.STEPS 31) 0).modChan 31 fun c => { c with training := 1 }
       (s.chanOf 31).training = 1 ∧ s.trainClear 31 = true ∧ ((s.trainStop 31).trainSteps 31 false fstR).1 = none)
    ∧ (let s := (ddrUp.put (CH_TRAIN_CTRL.STEPS 31) 2).modChan 31 fun c => { c with training := 1 }
       s.trainClear 31 = true ∧ ((s.trainStop 31).trainSteps 31 false { fstR with gate := [none] }).1 ≠ none)
    ∧ (let s := (ddrUp.put (CH_DRIFT_CTRL.PERIOD 31) 1).put (CH_MODE_STAT.SAFE 31) 0
       s.get (CH_DRIFT_CTRL.PERIOD 31) ≠ 0 ∧ s.ddr 31 = true ∧ s.on (CH_MODE_STAT.TRAINED 31) = true ∧ s.qstate (chanQuad 31) = 0
       ∧ (s.chanOf 31).burst = false ∧ s.mayTrack 31 7 = true)
    ∧ (let s := (ddrUp.put (CH_MODE_STAT.SAFE 31) 1).modQuad 7 fun x => { x with calDone := true }
       s.safeCause 31 = false ∧ (s.quadOf (chanQuad 31)).calDone = true ∧ s.on (ZQ_STAT.BUSY (chanQuad 31)) = false ∧ s.on (CH_MODE_STAT.SAFE 31) = true) := by decide +kernel

/-- Target 7 of channel 31 with a declared LUN. -/
def rbUp : State := { up.put GEO_STAT.VALID 1 with force := (up.put (GEO_LUNMAP.ODD 511) 1).geoNow }

theorem witness_ReadyBusyCommands :
    rbUp.Works ∧ chanAt 7 3 = 31 ∧ (rbUp.put (rbDeb 31 7) 1).on (rbDeb 31 7) = true
    ∧ (let s := rbUp.put (rbDeb 31 7) 0; let u := (s.put (rbDeb 31 7) 1).put (rbRaw 31 7) 1; s.on (rbDeb 31 7) = false ∧ u.rbHonoured 31 7 = true)
    ∧ (let s := (rbUp.put (rbDeb 31 7) 0).put (CH_RB_CTRL.IGNORE 31) 0x80; let u := (s.put (rbDeb 31 7) 1).put (rbRaw 31 7) 1
       s.on (rbDeb 31 7) = false ∧ u.rbHonoured 31 7 = false)
    ∧ rbUp.rbHonoured 31 7 = true ∧ tabGet (fun _ => 0) (rbUp.chanOf 31).rbCount 7 ≤ rbUp.get (CH_RB_CTRL.CHATTER 31)
    ∧ (let s := rbUp.modChan 31 fun c => { c with rbCount := tabPut (fun _ => 0) c.rbCount 7 65536 }
       s.get (CH_RB_CTRL.CHATTER 31) < tabGet (fun _ => 0) (s.chanOf 31).rbCount 7 ∧ s.rbHonoured 31 7 = true) := by decide +kernel

/-! Submission. -/

/-- SQ 127 native with 16 entries, its CQ 0 enabled with room for tags. -/
def sqUp (mode : Nat) : State :=
  ((((up.put (SQ_CFG.LOG2N 127) 4).put (SQ_CFG.MODE 127) mode).put (SQ_STAT.ENABLED 127) 1).put (CQ_CFG.LOG2N 0) 4).put (CQ_STAT.ENABLED 0) 1

/-- One beat to SQ 127's inline window. -/
def inlineBeat : Beat := beat 508 0 (BitVec.allOnes 64) true

theorem witness_PushWrites :
    (let s := sqUp 0; s.Works ∧ s.isReady = true ∧ s.freset.busy = false ∧ s.tet.waiting = none ∧ s.toShadow = false
     ∧ pushRegion inlineBeat.addr.toNat = .inline ∧ wholeWrite [inlineBeat] = true ∧ inlineBeat.addr.toNat % 4 = 0
     ∧ (∀ x ∈ [inlineBeat], x.strb = BitVec.allOnes 64) ∧ inlineBeat.addr.toNat / 4 = 127 ∧ s.on (SQ_STAT.ENABLED 127) = true ∧ s.native 127 = true
     ∧ (s.sqOf 127).slot = [] ∧ 1 ≤ s.sqN 127 - ixCount (s.sqN 127) (s.sqHead 127) (s.sqTail 127))
    ∧ (let s := (sqUp 0).put (SQ_TAIL.INDEX 127) 0x10000
       (s.sqOf 127).slot = [] ∧ s.sqN 127 - ixCount (s.sqN 127) (s.sqHead 127) (s.sqTail 127) < 1)
    ∧ (((sqUp 0).modSq 127 fun x => { x with slot := [0] }).sqOf 127).slot ≠ []
    ∧ pushRegion (beat 648 0 0 true).addr.toNat = .reserved ∧ wholeWrite [beat 648 0 0 true] = true
    ∧ pushRegion 1023 = .reserved ∧ pushRegion 514 = .reserved
    ∧ (wholeWrite [{ inlineBeat with last := false }] = false ∧ 4 < (List.replicate 5 inlineBeat).length
      ∧ (beat 509 0 (BitVec.allOnes 64) true).addr.toNat % 4 ≠ 0 ∧ pushRegion 509 = .inline
      ∧ (beat 508 0 1 true).strb ≠ BitVec.allOnes 64 ∧ up.on (SQ_STAT.ENABLED 127) = false ∧ (sqUp 1).native 127 = false
      ∧ wholeWrite [beat 648 0 0 false] = false) := by decide +kernel

theorem witness_DoorbellWrites :
    (let s := sqUp 1; let b := beat 647 (BitVec.ofNat 512 (16 * 2 ^ 480 + 0x10000 * 2 ^ 480 - 16 * 2 ^ 480)) (BitVec.ofNat 64 (15 * 2 ^ 60)) true
     s.Works ∧ s.isReady = true ∧ s.freset.busy = false ∧ s.tet.waiting = none ∧ s.toShadow = false ∧ b.last = true ∧ partly b = []
     ∧ rung b = [15] ∧ 16 * (b.addr.toNat - 640) + 15 = 127 ∧ grpVal b 15 = 0x10000
     ∧ s.native 127 = false ∧ s.on (SQ_STAT.ENABLED 127) = true ∧ grpVal b 15 < 2 ^ 17 ∧ grpVal b 15 % 65536 < s.sqN 127
     ∧ ixCount (s.sqN 127) (s.sqTail 127) 0x10000 ≤ s.sqN 127 - ixCount (s.sqN 127) (s.sqHead 127) (s.sqTail 127))
    ∧ 2 ^ 17 ≤ grpVal (beat 647 (BitVec.allOnes 512) (BitVec.ofNat 64 (15 * 2 ^ 60)) true) 15
    ∧ (let s := (sqUp 0).put (CQ_TAIL.INDEX 0) 1; let b := beat 512 1 15 true
       partly b = [] ∧ rung b = [0] ∧ s.cqEnabled 0 = true ∧ grpVal b 0 = 1 ∧ 1 < s.cqN 0 ∧ ixCount (s.cqN 0) (s.cqHead 0) 1 ≤ s.cqCount 0)
    ∧ (let s := (sqUp 0).put (evF 1 EV_TAIL.INDEX) 0; let b := beat 576 0 0xF0 true
       partly b = [] ∧ rung b = [1] ∧ (∀ j, j < 14 → grpStrb b (j + 2) = 0) ∧ grpVal b 1 < s.evN 1
       ∧ ixCount (s.evN 1) (s.get (evF 1 EV_HEAD.INDEX)) 0 ≤ ixCount (s.evN 1) (s.get (evF 1 EV_HEAD.INDEX)) (s.get (evF 1 EV_TAIL.INDEX)))
    ∧ (let b := beat 647 0 (BitVec.ofNat 64 (7 * 2 ^ 60)) true; partly b = [15])
    ∧ (let b := beat 576 0 (BitVec.ofNat 64 (15 * 2 ^ 60)) true; pushRegion b.addr.toNat = .evHead ∧ grpStrb b 15 ≠ 0)
    ∧ (let s := sqUp 0; (rung (beat 647 0 (BitVec.ofNat 64 (15 * 2 ^ 60)) true)).find?
        (fun k => s.on (SQ_STAT.ENABLED (16 * 7 + k)) && s.native (16 * 7 + k)) = some 15)
    ∧ (sqUp 1).native (16 * 7 + 15) = false
    ∧ wholeWrite [beat 640 0 15 false] = false ∧ pushRegion 647 = .sqTail ∧ pushRegion 513 = .cqHead := by
  decide +kernel

def offTop : State := { up with pins := { onPins with pwrAck := 0 }, tet := { up.tet with usable := 0 } }

theorem witness_ShadowCommands :
    bare.Works ∧ bare.isReady = false
    ∧ (offTop.Works ∧ offTop.isReady = true ∧ offTop.freset.busy = false ∧ offTop.tet.waiting = none ∧ offTop.topOn = false
       ∧ offTop.shadowBeats + 64 ≤ 64 ∧ offTop.tet.shadow = [])
    ∧ (let s : State := { offTop with tet := { offTop.tet with shadow := [List.replicate 63 inlineBeat] } }
       s.shadowBeats + 1 ≤ 64 ∧ s.tet.shadow ≠ [] ∧ 64 < s.shadowBeats + 2)
    ∧ (let s : State := { sqUp 0 with tet := { up.tet with shadow := [[inlineBeat]] } }
       s.Works ∧ s.topOn = true ∧ s.tet.sleepStep = 0 ∧ s.freset.busy = false ∧ s.tet.shadow = [[inlineBeat]]
       ∧ (s.takeWrite [inlineBeat]).isSome = true)
    ∧ (let u : State := { sqUp 0 with tet := { up.tet with shadow := [[inlineBeat], [inlineBeat]] } }
       u.tet.shadow = [inlineBeat] :: [[inlineBeat]] ∧ (u.takeWrite [inlineBeat]).isSome = true)
    ∧ (let u : State := { (sqUp 0).modSq 127 fun x => { x with slot := [0] } with tet := { up.tet with shadow := [[inlineBeat]] } }
       u.tet.shadow = [inlineBeat] :: [] ∧ u.takeWrite [inlineBeat] = none) := by decide +kernel

/-- SQ 127 a forerunner with a descriptor of the wrong phase at its head. -/
def staleSq (n : Nat) : State :=
  ((sqUp 1).put (SQ_TAIL.INDEX 127) 2).modSq 127 fun x => { x with fetched := [(0, 0)], fetchIdx := 1, tries := n }

theorem witness_FetchCommands :
    (let s := (sqUp 1).put (SQ_TAIL.INDEX 127) 0x10000
     s.Works ∧ s.engineOn = true ∧ s.on (SQ_STAT.ENABLED 127) = true ∧ s.native 127 = false ∧ s.fetchLen 127 = 16)
    ∧ (staleSq 7).staleHead 127 = some 0 ∧ (staleSq 7).refetchOut 127 = false ∧ ((staleSq 7).sqOf 127).tries < 8
    ∧ (staleSq 8).staleHead 127 = some 0 ∧ 8 ≤ ((staleSq 8).sqOf 127).tries ∧ ((staleSq 8).tagOf 4095).held = false
    ∧ (staleSq 8).tagOk 127 = true := by decide +kernel

/-- SQ 127 with a descriptor of opcode op in its slot buffer. -/
def fronted (op : Nat) : State :=
  ((sqUp 0).modSq 127 fun x => { x with slot := [BitVec.ofNat 512 op] }).put (SQ_TAIL.INDEX 127) 1

theorem witness_DescriptorIntake :
    (∀ op, op < 256 → dOp (BitVec.ofNat 512 op) = op) ∧ opcodes.length = 19
    ∧ (let s := fronted 255; s.TopWorks ∧ s.engineOn = true ∧ s.on GEO_STAT.BUSY = false ∧ (s.tagOf 4095).held = false
       ∧ s.nextSq = some 127 ∧ s.sqFront 127 = some (BitVec.ofNat 512 255) ∧ opcodes.contains 255 = false)
    ∧ (let s := fronted opRead; s.nextSq = some 127 ∧ s.sqFront 127 = some (BitVec.ofNat 512 opRead) ∧ opRead ≠ opErase
       ∧ opRead ≠ opNop ∧ opcodes.contains opRead = true)
    ∧ (let s := fronted 255; s.intakeBad 0 (BitVec.ofNat 512 255) ≠ none) ∧ (up.intakeBad 0 (BitVec.ofNat 512 (2 ^ 31)) = none) := by decide +kernel

theorem witness_FirstInsertionIsFinal : ((up.modTag 4095 fun x => { x with inserted := true }).tagOf 4095).inserted = true := by decide +kernel

theorem witness_InsertionFillsTheEntry :
    (let s := up.modTag 4095 fun x => { x with held := true }; (s.tagOf 4095).held = true ∧ (s.tagOf 4095).inserted = false) := by decide +kernel

theorem witness_CompletionAndEventWrites :
    (let s := (sqUp 0).modCq 0 fun q => { q with waiting := [4095] }
     s.TopWorks ∧ s.halted = false ∧ s.freset.busy = false ∧ s.cqEnabled 0 = true ∧ (s.cqOf 0).retry = false ∧ s.cplOut 0 = false
     ∧ (s.cqOf 0).issued = [] ∧ s.writable (min (4 - s.cqTail 0 % 65536 % 4) (s.cqN 0 - s.cqCount 0)) (s.cqOf 0).waiting = [4095])
    ∧ (let s := (sqUp 0).modCq 0 fun q => { q with issued := [4095] }; (s.cqOf 0).issued ≠ [] ∧ s.cplOut 0 = false)
    ∧ (let s := ((sqUp 0).put (CQ_TAIL.INDEX 0) 0x10000).put (CQ_STALL.LIMIT 0) 1
       s.TopWorks ∧ s.cqFull 0 = true ∧ s.get (CQ_STALL.LIMIT 0) ≠ 0 ∧ (s.cqOf 0).stallTold = false)
    ∧ (let s := ((sqUp 0).put (CQ_TAIL.INDEX 0) 0x10000).modCq 0 fun q => { q with stallTold := true }
       s.cqFull 0 = true ∧ (s.cqOf 0).stallTold = true)
    ∧ (let s := ((up.put (evF 1 EV_STAT.ENABLED) 1).put (evF 1 EV_CFG.LOG2N) 4).modRing 1 fun x => { x with queue := [{}] }
       s.TopWorks ∧ s.halted = false ∧ s.on (evF 1 EV_STAT.ENABLED) = true ∧ (s.ringOf 1).disabling = false ∧ (s.ringOf 1).halted = false
       ∧ s.evOut 1 = false ∧ (s.ringOf 1).out = []
       ∧ (s.ringOf 1).queue.take (min (4 - s.get (evF 1 EV_TAIL.INDEX) % 65536 % 4)
           (s.evN 1 - ixCount (s.evN 1) (s.get (evF 1 EV_HEAD.INDEX)) (s.get (evF 1 EV_TAIL.INDEX)))) ≠ [])
    ∧ ((up.modRing 1 fun x => { x with out := [{}] }).ringOf 1).out ≠ []
    ∧ ((sqUp 0).modCq 0 fun q => { q with waiting := [4095] }).cplHeld 0 = false := by decide +kernel

theorem witness_EventRaise :
    (319 : Nat) < 320 ∧ offTop.powered (sourceDomain 319) = false ∧ up.powered (sourceDomain 319) = true
    ∧ (up.setReg (EV_MASK.adr 9) 0x80000000#32).srcBit (EV_MASK.adr 0) 319 = true
    ∧ (let s := up.setReg (EV_CLASS0.adr + 36) 0; s.srcBit (EV_MASK.adr 0) 319 = false ∧ sourceFixed 319 = false
       ∧ s.srcBit EV_CLASS0.adr 319 = false ∧ (s.ringOf 0).queue.length < 64)
    ∧ (288 : Nat) ≤ 288 ∧ (287 : Nat) ≠ 279 ∧ (up.ringOf 1).queue.length < 64
    ∧ (let q : State := up.modRing 0 fun x => { x with queue := List.replicate 64 {}, late := [{ src := 3 }, { src := srcReadable, info := 5 }] }
       64 ≤ (q.ringOf 0).queue.length ∧ sourceHeld 3 = false ∧ (q.ringOf 0).late = [] ++ { src := 3 } :: [{ src := srcReadable, info := 5 }]
       ∧ (q.ringOf 0).late = [{ src := 3 }] ++ { src := srcReadable, info := 5 } :: [] ∧ (3 : Nat) ≠ srcReadable
       ∧ sourceHeld srcReadable = false ∧ (5 : BitVec 64) &&& 0x3FF = (5 + 0x400) &&& 0x3FF
       ∧ (∀ e ∈ (q.ringOf 0).late, e.src ≠ 4)) ∧ sourceHeld 270 = true := by decide +kernel

/-- Channel 0's context at patch address 0x2000, where a word of the given SEQ without any action stands. -/
def wordAt (seq : Nat) (st : List Nat) : State :=
  { (running { pc := 0x2000, stack := st }).put (CH_MODE_STAT.SAFE 0) 0 with
    pat0 := { row := [(0, BitVec.ofNat 64 (2 * 2 ^ 61 + 0x1000 * 2 ^ 48 + seq * 2 ^ 17 + 0x400))], rowOk := [(0, true)], nanoOk := [(0, true)] } }

theorem witness_SequencerWords :
    (∀ k, k < 7 → let s := wordAt k [0x10]; let c := s.ctxOf 0; let f := s.fetchWord 0 {}
      s.Works ∧ s.mayRun 0 = true ∧ f.bad = none ∧ nwBusop f.nano = 0 ∧ nwAlu f.nano = 0 ∧ nwTimop f.nano = 0 ∧ nwReqack f.nano = 0
      ∧ waitsLane f.mw f.nano = false ∧ c.issued = false ∧ c.laneWait = false ∧ c.pending = false ∧ mwSeq f.mw = k ∧ c.stack = [0x10])
    ∧ ((wordAt seqCall [0, 0, 0]).ctxOf 0).stack.length < 4
    ∧ seqNext = 0 ∧ seqJump = 1 ∧ seqBranch = 2 ∧ seqCall = 3 ∧ seqRet = 4 ∧ seqYield = 5 ∧ seqEnd = 6
    ∧ (∀ x ∈ [SmallStore.slot, .lunState], ({ small := some x } : FetchErr).small = some x) ∧ ({} : FetchErr).small = none
    ∧ ((running { committed := true }).ctxOf 0).committed = true ∧ ((running {}).ctxOf 0).committed = false
    ∧ (running {} |>.put (CH_MODE_STAT.SAFE 0) 0).mayRun 0 = true := by decide +kernel

theorem witness_ContextOperations :
    (running {}).Works ∧ ((running {}).ctxOf 0).state ≠ 0 ∧ ((running {}).chanOf 0).lane = []
    ∧ (((running {}).modChan 0 fun x => { x with lane := [{}] }).chanOf 0).lane ≠ [] := by decide +kernel

theorem witness_ChanterFaults :
    (let s := wordAt seqTrap []; s.Works ∧ s.mayRun 0 = true ∧ (s.fetchWord 0 {}).bad = some { code := 9, patch := true })
    ∧ (let s := running { words := 4096 }; (s.ctxOf 0).state ≠ 0 ∧ 4096 ≤ (s.ctxOf 0).words) ∧ (0 : Fin 8).val = chanQuad 0
    ∧ ((running { committed := true }).ctxOf 0).committed = true ∧ ((running { restarts := 2 }).ctxOf 0).restarts = 2 := by decide +kernel

/-- A RESET LUN that the channel engine offers on LUN 1023. -/
def resetOp : Op := { routine := rtResetLun, role := .resetLun, loc := { lun := 1023 } }

theorem witness_RoutineCommands :
    (let s : State := { up.put (CH_MODE_STAT.SAFE 31) 0 with ops := [resetOp], halted := false }
     s.Works ∧ s.topOn = true ∧ ((s.each (chanLuns 31) State.suspendDecision).restamp 31).ctxOpen 31 = true
     ∧ (s.halted || s.freset.busy || s.on TET_PWRFAIL.LATCH) = false
     ∧ (let u := (s.each (chanLuns 31) State.suspendDecision).restamp 31; u.firstOp ((u.chanOps 31).filter u.mayStart) = some resetOp))
    ∧ (let s : State := { ((ddrUp.put (CH_TRAIN_CTRL.STEPS 31) 4).put (CH_MODE_STAT.SAFE 31) 0).modChan 31 fun c => { c with training := 1 } with halted := false }
       s.Works ∧ s.topOn = true ∧ (s.halted || s.freset.busy || s.on TET_PWRFAIL.LATCH) = false
       ∧ (let u := (s.each (chanLuns 31) State.suspendDecision).restamp 31
          u.ctxOpen 31 = true ∧ u.firstOp ((u.chanOps 31).filter u.mayStart) = none ∧ u.trainNext 31 = some (trainOp 31 (rtTrainRdeskew, 7, 8))))
    ∧ (let s := (up.put (CH_MODE_STAT.SAFE 31) 0).modLun 1023 fun l => { l with park := some {}, woken := some 0 }
       (s.ctxOf 31).state = 0 ∧ (s.quadOf (chanQuad 31)).takeover = false ∧ s.halted = false ∧ s.deadChan 31 = false
       ∧ s.on (CH_MODE_STAT.SAFE 31) = false
       ∧ s.firstWoken 31 = some 1023 ∧ (s.lunOf 1023).park = some {})
    ∧ (let s := up.modLun 1023 fun l => { l with park := some { timerOn := true } }
       (s.ctxOf (lunChan 1023)).state = 0 ∧ (s.lunOf 1023).park = some { timerOn := true })
    ∧ (let s := (running { doutWait := some {} }).modChan 0 fun x => { x with lane := List.replicate 15 {} }
       (s.ctxOf 0).doutWait = some {} ∧ (s.ctxOf 0).state ≠ 0 ∧ (s.chanOf 0).lane.length < 16
       ∧ s.stageUsed 0 + s.stageSize (s.ctxOf 0).op ≤ s.stageRoom 0)
    ∧ (let s := (running { doutWait := some { handle := 7 }, op := { role := .sense 1 } }).modChan 0 fun x =>
         { x with staging := [{ handle := 1, read := some 1, size := 262144 }, { handle := 2, size := 262144 }] }
       let u := s.dropSpent 0 (s.ctxOf 0).op 7
       (s.ctxOf 0).doutWait = some { handle := 7 } ∧ u.stageRoom 0 < u.stageUsed 0 + u.stageSize (s.ctxOf 0).op)
    ∧ (let c : Ctx := { safeYield := true, abortReq := true }; c.safeYield = true ∧ c.pending = true ∧ c.giveWay = false ∧ c.stack.length < 4) := by decide +kernel

def laned (e : Lane) : State := (up.put (CH_MODE_STAT.SAFE 31) 0).modChan 31 fun x => { x with lane := [e], mode := 0x8000#32 }

theorem witness_LaneWork :
    (laned {}).Works ∧ (laned {}).padsHeld 31 = false ∧ ((laned { op := .dout, len := 3 }).chanOf 31).lane = [{ op := .dout, len := 3 }]
    ∧ modeCe ((laned { op := .ceOn, tgt := 7 }).chanOf 31).mode 7 = true
    ∧ ((laned { op := .dout }).chanOf 31).repeated = false
    ∧ ([] : List Byte).length = (laned { op := .dout, xfer := 1, len := 0 }).laneLen 31 { op := .dout, xfer := 1, len := 0 }
    ∧ bit (0x40 : Byte) 6 = true ∧ bit (0xBF : Byte) 6 = false
    ∧ (let s := (running { op := { role := .first } }).modChan 0 fun x => { x with lane := [{ op := .din }] }
       let s := s.put (CH_MODE_STAT.SAFE 0) 0
       let r := s.dinReads 0 ((s.runOf 0 0).bind (·.op.tag)) [{ bank := 0, row := 4095, bad := true }]
       let u := r.2.laneDin 0
       s.Works ∧ (s.chanOf 0).lane = [{ op := .din }] ∧ (u.runOf 0 0).map (·.committed) = some false
       ∧ (u.ctxOf 0).state ≠ 0 ∧ (u.ctxOf 0).lun = 0)
    ∧ (((laned { op := .dout }).modChan 31 fun x => { x with repeated := true }).chanOf 31).repeated = true := by decide +kernel

/-- LUN 1023 runs a committed program pass of a kind that suspends. -/
def passOn : State :=
  ({ up.put BRD_CTRL.SUSP_EN 1 with force := [(GEO_DK_CTRL.adr 0, 0x800000#32), (GEO_DK_SUSP.adr 0, 0xFF000000#32)],
                                    reads := [{}], ops := [{ role := .sense 0, loc := { lun := 1023 }, cls := 0 }] } : State).modLun 1023
    fun l => { l with committed := true, busy := true, cur := { role := .later } }

theorem witness_LimitsAndSuspension :
    (let s := passOn; let l := s.lunOf 1023
     s.Works ∧ l.busy = true ∧ l.resetting = false ∧ l.limitHit = false ∧ s.isFenced 1023 = false ∧ s.runOf (lunChan 1023) 1023 = none)
    ∧ (let s := passOn.modLun 1023 fun l => { l with park := some { op := { role := .later } } }
       s.runOf (lunChan 1023) 1023 = some { op := { role := .later } } ∧ s.passRuns 1023 = true ∧ s.geo (GEO_DK_CTRL.SUSP (s.kind 1023)) = 1
       ∧ ({ role := .later } : Op).isEngine = false)
    ∧ (let s := up.modLun 1023 fun l => { l with resetting := true }
       (s.lunOf 1023).resetting = true ∧ (s.ctxOf (lunChan 1023)).state = 0 ∧ (s.lunOf 1023).park = none)
    ∧ (let s := up.modLun 1023 fun l => { l with park := some { op := { role := .raw } } }
       s.runOf (lunChan 1023) 1023 = some { op := { role := .raw } } ∧ (s.ctxOf (lunChan 1023)).state = 0)
    ∧ (let s := up.modCtx 31 fun c => { c with state := 1, lun := 1023, op := { role := .raw } }
       (s.runOf (lunChan 1023) 1023).isSome = true ∧ (s.ctxOf (lunChan 1023)).state ≠ 0 ∧ (s.ctxOf (lunChan 1023)).lun = 1023)
    ∧ (passOn.TopWorks ∧ passOn.maySuspend 1023 = true ∧ (passOn.nextRead 1023).isSome = true
       ∧ passOn.geo (GEO_DK_SUSP.RESUME_MIN (passOn.kind 1023)) ≤ passOn.us - (passOn.lunOf 1023).since)
    ∧ (let s := up.modLun 1023 fun l => { l with suspended := true }
       (s.lunOf 1023).suspended = true ∧ (s.lunOf 1023).abortDie = false
       ∧ s.ops.any (fun o => o.role == Role.resume && o.loc.lun == 1023) = false ∧ s.readWants 1023 = false) := by decide +kernel

theorem witness_PeriodCommands :
    (let s := up.modTag 4095 fun x => { x with held := true }; s.TopWorks ∧ s.openTag 4095 = true ∧ (s.tagOf 4095).past = false
     ∧ dOp (s.tagOf 4095).desc ≠ opRead ∧ dOp (s.tagOf 4095).desc ≠ opCopy) := by
  decide +kernel

theorem crcOk_of (p : List Byte) (h : p.length = protBytes) : crcOk (p ++ natLe 4 (crc32c p).toNat) = true := by
  unfold crcOk
  rw [List.take_left' h, List.drop_left' h]
  simp [natLe]

def sliced : State := up.modSlice 17 fun x => { x with st := sliceActive, job := some { limit := 20 } }

theorem witness_DecodeCommands :
    (let s := ({ up with jobs := [{}] } : State).modSlice 17 fun x => { x with st := sliceActive }
     s.TopWorks ∧ (s.sliceOf 17).st = sliceActive ∧ (s.sliceOf 17).job = none ∧ s.usable (pdB (17 / 2)) = true ∧ s.halted = false
     ∧ s.nextJob = some {})
    ∧ ((sliced.sliceOf 17).job = some { limit := 20 } ∧ sliced.ballast.sliceArmed = none ∧ ({ limit := 20 } : Job).dead = false)
    ∧ (({ sliced with ballast := { sliced.ballast with sliceArmed := some 17 } } : State).ballast.sliceArmed = some 17)
    ∧ ({ up with tet := { up.tet with bank32 := true } } : State).tet.bank32 = true
    ∧ (20 : Nat) < ({ word := [], iters := 21, sliceErr := 0, sram := [] } : DecodeReport).iters
    ∧ ({ word := [], iters := 20, sliceErr := 2, sram := [] } : DecodeReport).sliceErr = 2
    ∧ Mode.s3.soft = true ∧ Mode.bf.soft = false ∧ ({ dead := true } : Job).dead = true
    ∧ (sliced.jobStores {} [{ bank := 0, row := 0, bad := true }]).1 = some 1
    ∧ ldpcWeight 4 [1] ≠ 0 := by decide +kernel

/-- A word whose first bit alone is set fails four checks. -/
theorem test_weight : ldpcWeight (sliced.ldpcM 0) [1] = 4 := by decide +kernel

/-- Protected bytes whose CRC register turns 0 after four bytes and stays so; their CRC is 0xFFFFFFFF. -/
def goodProt : List Byte := [0xFF, 0xFF, 0xFF, 0xFF] ++ List.replicate 4120 0

theorem crc_zeros (n : Nat) : (List.replicate n (0 : Byte)).foldl crcByte 0 = 0 := by
  induction n with
  | zero => rfl
  | succ n ih => rw [List.replicate_succ, List.foldl_cons, show crcByte 0 0 = 0 by decide]; exact ih

theorem crc_ones (n : Nat) : crc32c ([0xFF, 0xFF, 0xFF, 0xFF] ++ List.replicate n 0) = 0xFFFFFFFF#32 := by
  rw [crc32c, List.foldl_append, show [0xFF, 0xFF, 0xFF, 0xFF].foldl crcByte 0xFFFFFFFF#32 = 0 by decide +kernel, crc_zeros]; decide

theorem test_crc : crc32c goodProt = 0xFFFFFFFF#32 := crc_ones 4120

def goodWord : List Byte :=
  let x := goodProt ++ [0xFF, 0xFF, 0xFF, 0xFF]
  x ++ ldpcParity 24 x

theorem test_good_word_crc : crcOk goodWord = true := by
  have h : goodWord = goodProt ++ natLe 4 (crc32c goodProt).toNat ++ ldpcParity 24 (goodProt ++ [0xFF, 0xFF, 0xFF, 0xFF]) := by
    rw [test_crc]; rfl
  have l : goodProt.length = protBytes := by rw [goodProt, List.length_append, List.length_replicate]; rfl
  unfold crcOk
  rw [h, List.append_assoc, List.take_left' l, List.drop_left' l]
  simp [natLe]
theorem test_good_word : ldpcWeight 24 goodWord = 0 := by decide +kernel

/-- The sliced state with its word at the end of decoding: the good word and one that fails. -/
theorem witness_DecodeCommandsWord :
    (sliced.modSlice 17 fun x => { x with job := none }).ldpcM ({} : Job).loc.lun = 24
    ∧ ({ word := goodWord, iters := 20, sliceErr := 0, sram := [] } : DecodeReport).word = goodWord ∧ 20 ≤ ({ limit := 20 } : Job).limit := by
  refine ⟨by decide +kernel, rfl, Nat.le_refl _⟩

def flown (w : Bool) : State := { up with flying := [{ port := 1, write := w, tid := 255, cont := .user 4095 0 0 }] }

/-- Every transaction ID of port 1 but 255 is in flight. -/
def full : State := { up with flying := (List.range 255).map fun i => { port := 1, tid := i }, ready := [{ port := 1, cont := .user 4095 0 0 }] }

theorem witness_SpoolCommands :
    (full.TopWorks ∧ full.halted = false ∧ full.ready.find? (fun r => r.port == 1) = some { port := 1, cont := .user 4095 0 0 }
      ∧ full.freeTid 1 = some 255 ∧ (Cont.user 4095 0 0).dataTag = some 4095)
    ∧ (let s : State := { up with ready := [{ port := 1 }] }
       s.TopWorks ∧ s.ready.find? (fun r => r.port == 1) = some { port := 1 } ∧ s.freeTid 1 = some 0 ∧ ({ port := 1 } : Spool).cont.dataTag = none)
    ∧ ((flown true).TopWorks ∧ (flown true).flight 1 255 true = some { port := 1, write := true, tid := 255, cont := .user 4095 0 0 }
       ∧ up.flight 1 255 true = none ∧ up.flight 1 255 false = none)
    ∧ ((flown false).flight 1 255 false = some { port := 1, tid := 255, cont := .user 4095 0 0 }
       ∧ (List.replicate 64 (0 : Byte)).length = 64 * 1 ∧ ([] : List Byte).length ≠ 64 * 1) := by decide +kernel

def pooled (r : PoolReq) : State := { up with pool := { up.pool with out := [r] } }

theorem witness_PoolCommands :
    (let s : State := { up with pool := { up.pool with send := [{ op := poolAlloc }, { op := poolFree }], out := List.replicate 15 {} } }
     s.TopWorks ∧ s.halted = false ∧ s.pool.out.length < 16 ∧ s.pool.send.find? (fun r => r.op != poolAlloc) = some { op := poolFree })
    ∧ (let s : State := { up with pool := { up.pool with send := [{ op := poolAlloc }] } }
       s.pool.send.find? (fun r => r.op != poolAlloc) = none ∧ s.pool.send.head? = some { op := poolAlloc })
    ∧ (16 ≤ ({ up with pool := { up.pool with out := List.replicate 16 {} } } : State).pool.out.length)
    ∧ ((pooled { op := poolAlloc, cls := 3 }).pool.out = { op := poolAlloc, cls := 3 } :: [] ∧ (3 : Nat) ≤ (3 : BitVec 2).toNat
       ∧ (0x40000 : BitVec 64).toNat % classBytes 3 = 0)
    ∧ (pooled { op := poolShare }).pool.out = { op := poolShare } :: [] ∧ (pooled { op := poolFree }).pool.out = { op := poolFree } :: []
    ∧ (let s : State := { up.put DMA_POOL_CTRL.EMPTY_LIMIT 1 with pool := { up.pool with empty := [{ op := poolAlloc, first := some 0 }] } }
       s.TopWorks ∧ s.oldestNeed = some { op := poolAlloc, first := some 0 } ∧ s.get DMA_POOL_CTRL.EMPTY_LIMIT ≠ 0 ∧ s.pool.emptyTold = false)
    ∧ ((0 : BitVec 2).toNat < ({ op := poolAlloc, cls := 3 } : PoolReq).cls) ∧ (64 : BitVec 64).toNat % classBytes 3 ≠ 0
    ∧ (pooled { op := poolDrop }).pool.out = { op := poolDrop } :: [] ∧ poolAlloc ≠ poolShare ∧ poolDrop ≠ poolFree ∧ poolShare ≠ poolDrop
    ∧ (∀ x ∈ up.accs, x.addr ≠ 0) ∧ up.racs = [] := by
  decide +kernel

theorem witness_CanonicalStores : tabWf (fun _ => 0) [(0, 1), (2, 7)] = true ∧ tabWf (fun _ => 0) ([] : Tab Nat) = true
    ∧ tabWf (fun _ => 0) [(0, 0)] = false ∧ tabWf (fun _ => 0) [(2, 7), (0, 1)] = false := by decide +kernel

theorem witness_RingIndices :
    (∀ n ∈ [1, 2, 65536], ∀ h ∈ [0, n - 1, 65536, 65536 + n - 1], h < 2 ^ 17 ∧ h % 65536 < n)
    ∧ 0 % 65536 + 1 < 2 ∧ (65536 + 65535) % 65536 + 1 = 65536 ∧ 0 % 65536 + 1 = 1 ∧ ixCount 65536 0 65536 = 65536 ∧ ixCount 65536 0 65535 < 65536
    ∧ ixNext 65536 65535 = 65536 ∧ ixNext 65536 131071 = 0 := by decide +kernel

theorem witness_RequestsKeepToPages : (0 : Nat) < 1 ∧ cutRun 2 (4095, 1) = [(4095, 1)] ∧ cutRun 2 (4095, 2) = [(4095, 1), (4096, 1)] := by
  decide +kernel

theorem witness_ScramblerGivesBack : (List.replicate infoBytes (0 : Byte)).length = infoBytes := List.length_replicate

theorem witness_EncoderSatisfiesChecks : 4 ≤ 24 ∧ (List.replicate infoBytes (0xFF : Byte)).length = infoBytes := ⟨by decide, List.length_replicate⟩

theorem witness_MissingMembersAreSolved : 0 < 32 ∧ 31 < 32 ∧ 0 ≠ 31 ∧ ([0x80] : List Byte).length = ([0xFF] : List Byte).length := by decide

/-! ### The spec's own worked values -/

/-- spec/01, after R34: channel 13, target 5, LUN 2 is LUN 438, in quad 3. -/
theorem test_lun438 : lunChan 438 = 13 ∧ lunTarget 438 = 5 ∧ lunInTarget 438 = 2 ∧ lunQuad 438 = 3 := by decide +kernel

/-- spec/02, after R56: the strobe 0x0000_00F0 rings doorbell 1 of its region only. -/
theorem test_strobes : rung (beat 512 0 0xF0 true) = [1] ∧ partly (beat 512 0 0xF0 true) = [] ∧ pushRegion 512 = .cqHead ∧ pushRegion 641 = .sqTail := by
  decide +kernel

/-- spec/03, after R105. -/
theorem test_ticks : rateMT 11 = 3600 ∧ ticksOf 3600 11 = 20 ∧ ticksOf 2800 11 = 16 ∧ ticksOf 3600 300 = 540 := by decide +kernel

/-- spec/03, after R117: a read deskew on channel 13. -/
theorem test_deskew :
    align [⟨100, 150⟩, ⟨96, 147⟩, ⟨104, 152⟩, ⟨90, 141⟩, ⟨101, 149⟩, ⟨98, 150⟩, ⟨108, 155⟩, ⟨95, 146⟩]
      = { centre := 131, x := [8, 12, 4, 18, 7, 10, 0, 13], width := 47, bad := 0 }
    ∧ (let s := up.putDelays (CH_RDQ_DLY0.adr 13) [8, 12, 4, 18, 7, 10, 0, 13]
       s.reg (CH_RDQ_DLY0.adr 13) = 0x12040C08#32 ∧ s.reg (CH_RDQ_DLY0.adr 13 + 4) = 0x0D000A07#32) := by decide +kernel

/-- The tables of spec/05's address example: die kind 1, LUN 438 of that kind; and retry set 7 of die kind 2. -/
def example1 : State :=
  let s := [(GEO_RLH_CFG.WLG_M1, 15), (GEO_RLH_CFG.EBS_M1, 1023), (GEO_RLH_BASE_HI.ADDR, 8), (GEO_DK_GEOM.NPL_M1 1, 1), (GEO_DK_GEOM.NCW_M1 1, 3),
            (GEO_DK_GEOM.PSZ 1, 1), (GEO_DK_GEOM.EBS_M1 1, 1023), (GEO_DK_GEOM.PAGES_M1 1, 2047), (GEO_DK_ADDR.LUN_BITS 1, 2), (GEO_DK_ADDR.EB_BITS 1, 10),
            (GEO_DK_ADDR.PLANE_BITS 1, 1), (GEO_DK_ADDR.PAGE_BITS 1, 11), (GEO_DK_ADDR.PAGE_BYTES 1, 18176), (GEO_DK_WL.PPWL_M1 1, 3),
            (GEO_DK_WL.WLG_M1 1, 15), (GEO_LUNMAP.EVEN 219, 5), (GEO_DK_RETRY.RS_NOFF 2, 7)].foldl (fun s (f, v) => s.put f v) up
  let s := (s.setReg 0xC2070 0x00FEFCFA#32).setReg 0xC2074 0x00050302#32
  { s with force := s.geoNow }

/-- spec/04, after Table 4.15: row 0xA2, and nano-word 0x0A4 part by part. -/
theorem test_rom : romRow 0xA2 = 0x00A20000A52A00A4#64
    ∧ romNano 0x0A4 = 0x0514000028000000#64 ++ 0x00D0000000000000#64 ++ 0x2000000000000000#64 := by decide +kernel

/-- spec/05, "Worked example: forming an address". -/
theorem test_address :
    let s := example1
    s.kind 438 = 1 ∧ s.rowAddr 438 700 1 1500 = 0xABCDDC ∧ s.cwBytes 438 = 4544 ∧ 2 * s.cwBytes 438 = 0x2380 ∧ s.wlGroup 438 1500 = 11
    ∧ s.rlhIndex 438 700 1500 = 0x6DABCB ∧ s.rlhBase + 4 * s.rlhIndex 438 700 1500 = 0x801B6AF2C := by decide +kernel

/-- spec/05, after R176: the offsets of retry set 7 of die kind 2, as LDX reads them. -/
theorem test_retrySet :
    let t := example1.force
    ldxWord t 2 7 0 = 0x00FEFCFA ∧ ldxWord t 2 7 1 = 0x00050302 ∧ ldxWord t 2 7 2 = 0 ∧ sext8 (setOff t 2 7 0) = 0xFFFFFFFA := by decide +kernel

/-- spec/05, after Table 5.12: member 5 on LUN 438, erase block 1234, in bytes 31 to 33 of the image. -/
theorem test_image : ((stripeBytes { members := List.replicate 5 (false, 0, 0) ++ [(false, 438, 1234)] }).drop 31).take 3 = [0xD2, 0x64, 0x1B] := by
  decide +kernel

/-- spec/06, Table 6.8: SQ 20 with N = 16, its tail doorbells of steps 2, 4 and 5 and the mistaken ones. -/
theorem test_table6_8 :
    ixCount 16 0 0x10000 = 16 ∧ ixCount 16 0x10000 0x10005 = 5 ∧ ixCount 16 0x10005 0x00003 = 14 ∧ ixCount 16 0x10005 0x00006 = 17
    ∧ ixNext 16 0x1000F = 0 := by decide +kernel

/-- spec/07, Table 7.10: the words of one READ. -/
def readDesc : Desc :=
  BitVec.ofNat 512 ((([0x80120001, 0x51C3, 0, 0, 0xDC2BC1B6, 0x00020225, 0x10000000, 3, 0x2000, 0, 0, 0, 0x00010001, 1, 0x10002000, 3] : List Nat).zipIdx.map
    fun (w, i) => w * 2 ^ (32 * i)).sum)

theorem test_table7_10 :
    let d := readDesc
    dPhase d = true ∧ dClass d = 0 ∧ dBarrier d = true ∧ dRacOk d = true ∧ dOrdered d = false ∧ dOp d = 1 ∧ dHostTag d = 0x51C3 ∧ dPage d = 1500
    ∧ dEb d = 700 ∧ dLun d = 438 ∧ dPlanes d = 2 ∧ dCwCount d = 2 ∧ dFirstCw d = 2 ∧ dBase d = 0x310000000 ∧ dElem d = 8192
    ∧ dCount d 0 = 1 ∧ dCount d 1 = 1 ∧ dCount d 2 = 1 ∧ dMeta d = 0x310002000 := by decide +kernel

/-- spec/08, after R276: the seed of plane 1, page 1500, code word 2 of erase block 700 of LUN 438. -/
theorem test_seed : seedOf 438 700 1500 1 2 = 0x30E2F77D#32 := by decide +kernel

/-- spec/08, Table 8.10: the line and cache set of the entry, and the fields of the entry. -/
theorem test_table8_10 : 7187403 / 16 = 0x6DABC ∧ rlhSet 0x6DABC = 0x60 ∧ eSet 0x0129F907#32 = 7 ∧ eConf 0x0129F907#32 = 9 := by decide +kernel

/-- spec/09, "Worked example: P and Q over three members"; the coefficients of members 8, 17 and 31. -/
theorem test_pq :
    foldP (foldP (foldP [] [0x5A]) [0x3C]) [0xA7] = [0xC1] ∧ foldQ 2 (foldQ 1 (foldQ 0 [] [0x5A]) [0x3C]) [0xA7] = [0x84]
    ∧ solveTwo 1 2 [0x9B] [0xDE] = [0x3C] ∧ gfPow2 8 = 0x1D ∧ gfPow2 17 = 0x98 ∧ gfPow2 31 = 0xC0 := by decide +kernel

/-- spec/12, Table 12.12: EV_TIMEOUT of channel 13 as a record. -/
def timeoutRec : EvRec :=
  { src := 6 * 13 + 3, sev := 1, time := 0x3A5C0F12#32, info := BitVec.ofNat 64 (chanInfo 438 0x2A7 1 500) }

theorem test_table12_12 :
    [0, 1, 2, 3].map (timeoutRec.word true 0) = [0x90000051#32, 0x3A5C0F12#32, 0x004A9DB6#32, 0x000001F4#32]
    ∧ ({ timeoutRec with fast := true } : EvRec).word true 0 0 = 0xD0000051#32 := by decide +kernel

/-- spec/15, after Table 15: places of three registers. -/
theorem test_addresses : CH_DRIFT_STAT.adr 13 = 0x45074 ∧ CH_FLT_FIRST.adr 13 = 0x45100 ∧ Q_FLT_CTRL.adr 3 = 0x40210 := by decide +kernel

/-! ### Single commands -/

/-- SQ 20 as Table 6.8 has it at step 4: N = 16, head and tail at 0x1_0005. -/
def sq20 : State :=
  [(SQ_CFG.LOG2N 20, 4), (SQ_CFG.MODE 20, 1), (SQ_STAT.ENABLED 20, 1), (SQ_HEAD.INDEX 20, 0x10005), (SQ_TAIL.INDEX 20, 0x10005)].foldl
    (fun s (f, v) => s.put f v) up

/-- A doorbell of SQ 20, offset 0xA050, group 4 of beat 0xA040. -/
def ring20 (v : Nat) : Instr := .sqTailDoorbell [beat 641 (BitVec.ofNat 512 (v * 2 ^ 128)) 0xF0000 true]

/-- spec/06, Table 6.8 step 5 and its first variant. -/
theorem test_doorbell :
    nextIs (exec (ring20 3) sq20) (fun t => t.get (SQ_TAIL.INDEX 20) == 3 && t.get (SQ_CNT.BAD 20) == 0) = true
    ∧ nextIs (exec (ring20 6) sq20) (fun t => t.get (SQ_TAIL.INDEX 20) == 0x10005 && t.get (SQ_CNT.BAD 20) == 1) = true := by decide +kernel

/-- A rise of RESET_N begins start-up; a second rise changes nothing. -/
theorem test_reset :
    nextIs (exec .resetNDeassert State.reset) (fun t => t.pins.resetN && t.tet.starting && t.get TET_STARTUP.STEP == 1) = true
    ∧ nextIs (exec .resetNDeassert bare) (· == bare) = true := by decide +kernel

end Sys2Proof.Tests
end

section
/-! The setup port: which registers answer, what a write stores, what a read returns. -/

namespace Sys2Proof.Machine

variable (s : State)

/-! ### Which registers answer -/

theorem cfgError_resetLow {a : Nat} (hr : s.pins.resetN = false) : s.cfgError a = true := by simp [State.cfgError, hr]

theorem answers_resetLow {a : Nat} (hr : s.pins.resetN = false) : s.answers a = false := by simp [State.answers, hr]

/-- No register, no answer (R15). -/
theorem answers_noRegister {a : Nat} (ha : regRow a = none) : s.answers a = false := by simp [State.answers, ha]

/-- A register whose domain is off does not answer (R52). -/
theorem answers_domainOff {a d : Nat} (hd : regDomain a = some d) (hp : s.powered d = false) : s.answers a = false := by
  unfold State.answers
  cases regRow a <;> simp [hd, hp]

theorem cfgError_silent {a : Nat} (hr : s.pins.resetN = true) (h : s.answers a = false) : s.cfgError a = (regRow a).isSome := by
  simp [State.cfgError, hr, h]

theorem cfgError_answers {a : Nat} (h : s.answers a = true) : s.cfgError a = false := by
  have hr : s.pins.resetN = true := by
    cases hr : s.pins.resetN
    · simp [answers_resetLow s hr] at h
    · rfl
  simp [State.cfgError, hr, h]

theorem readReg_answers {a : Nat} (h : s.answers a = true) : s.readReg a = (s.view a, false) := by
  simp [State.readReg, h, cfgError_answers s h]

theorem readReg_silent {a : Nat} (h : s.answers a = false) : s.readReg a = (0, s.cfgError a) := by simp [State.readReg, h]

/-! ### What a write stores -/

@[simp] theorem keepCredit_pins (q : Nat) : (s.keepCredit q).pins = s.pins := rfl

/-- Only a write of a BRD_CRED_CTRL settles a balance before it is stored (R368). -/
theorem portTake_otherRegister {a : Nat} (ha : isReg a 0x8100 0x10 8 = false) : s.portTake a = s.respond 0 false := by
  simp [State.portTake, ha]

theorem portTake_cfgSerr (a : Nat) : (s.portTake a).pins.cfgSerr = false := by
  unfold State.portTake
  split <;> simp [State.respond]

/-- A register write reaches the register file and nothing else. -/
theorem setReg_regs_restored (a : Nat) (w : Word32) : { s.setReg a w with regs := s.regs } = s := rfl

theorem storeReg_register {a : Nat} {r : RegRow} (ha : regRow a = some r) (w : Word32) :
    s.storeReg a w = (s.portTake a).setReg a ((s.portTake a).fieldRules a ((s.portTake a).reg a)
      (codedWord r (s.portTake a).locked ((s.portTake a).reg a) w)) := by
  simp only [State.storeReg, ha]

theorem exec_registerWrite (addr : BitVec 18) (w : Word32) :
    exec (.registerWrite addr w) s = onPort s (·.setupWrite (4 * addr.toNat) w) := rfl

/-- Bit i of a written word by its access codes (Table 0.3). -/
theorem codedWord_getLsbD (r : RegRow) (lock : Bool) (old w : Word32) {i : Nat} (hi : i < 32) :
    (codedWord r lock old w).getLsbD i =
      (((if (BitVec.ofNat 32 (if lock then r.rw else r.rw + r.rwl)).getLsbD i then w.getLsbD i else old.getLsbD i)
          && !(w.getLsbD i && (BitVec.ofNat 32 r.w1c).getLsbD i))
        || (w.getLsbD i && (BitVec.ofNat 32 r.w1s).getLsbD i)) := by
  simp only [codedWord, sel, BitVec.getLsbD_or, BitVec.getLsbD_and, BitVec.getLsbD_not, hi, decide_true, Bool.true_and]
  generalize (BitVec.ofNat 32 (if lock then r.rw else r.rw + r.rwl)).getLsbD i = m
  cases m <;> simp

/-- A register without writable bits keeps its word. -/
theorem codedWord_readOnly {r : RegRow} (hm : r.rw = 0) (hl : r.rwl = 0) (hc : r.w1c = 0) (hs : r.w1s = 0) (lock : Bool) (old w : Word32) :
    codedWord r lock old w = old := by
  apply BitVec.eq_of_getLsbD_eq
  intro i hi
  simp [codedWord_getLsbD r lock old w hi, hm, hl, hc, hs]

/-- No setup port write changes a register whose word is fixed: none of its bits is writable, and no rule of single fields names it. -/
theorem reg_storeReg_readOnly {a : Nat} {r : RegRow} (ha : regRow a = some r) (hm : r.rw = 0) (hl : r.rwl = 0) (hc : r.w1c = 0) (hs : r.w1s = 0)
    (hcred : isReg a 0x8100 0x10 8 = false) (hrule : ∀ (u : State) (old new : Word32), u.fieldRules a old new = new) (w : Word32) :
    (s.storeReg a w).reg a = s.reg a := by
  rw [storeReg_register s ha, State.reg_setReg_self, hrule, codedWord_readOnly hm hl hc hs, portTake_otherRegister s hcred]
  rfl

/-! ### What a read returns -/

/-- The registers whose value follows other state than their stored word. -/
def followsState (a : Nat) : Bool :=
  [TOP_TAGS.adr, TOP_COS.adr, TOP_WR_STAT.adr, TET_TIME_LO.adr, TET_DOM_STAT.adr, TET_PWRFAIL.adr, 0x2000, 0x3000, 0x200C, 0x300C,
    DMA_STAT.adr, DMA_POOL_HELD0.adr, DMA_POOL_HELD1.adr, DMA_POOL_WAIT.adr, BAL_SPARE.adr, BAL_ROW_STAT.adr, BLW_STAT.adr,
    BLW_SLICE_MAP.adr, GEO_RLHC_STAT.adr, GEO_RLHC_EPOCH.adr, PAT_QUAD_PATCH_STATE.adr].contains a
  || (decide (0x4000 ≤ a ∧ a < 0x5000) && [0, 0xC, 0x1C].contains (a % 0x20))
  || (decide (0x5000 ≤ a ∧ a < 0x5400) && [0, 0xC, 0x18].contains (a % 0x20))
  || isReg a 0x8104 0x10 8 || isPat a || decide (0x1010 ≤ inQuad a ∧ inQuad a < 0x1020) || decide (inChan a = 0x114)

/-- A read of an SQ's registers (chapter 6). -/
theorem view_sqRegs {a : Nat} (h : 0x4000 ≤ a) (h' : a < 0x5000) : s.view a =
    (let q := (a - 0x4000) / 0x20
    if a % 0x20 = 0 then putBit (s.reg a) 31 (s.on (SQ_STAT.ENABLED q))
    else if a % 0x20 = 0xC then
      let waits := !(s.sqOf q).slot.isEmpty || (s.on (SQ_STAT.ENABLED q) && !s.native q && s.sqHead q != s.sqTail q)
      putBit (putBit (s.reg a) 30 (waits && !s.tagOk q)) 29 (s.sqOf q).refetching
    else if a % 0x20 = 0x1C then BitVec.ofNat 32 (s.heldOn (fun t => t.sq == q))
    else s.reg a) := by
  have low : ∀ k < 0x4000, a ≠ k := by omega
  have high : ¬ 0x8104 ≤ a := by omega
  simp [State.view, TOP_TAGS.adr, TOP_COS.adr, TOP_WR_STAT.adr, TET_TIME_LO.adr, TET_DOM_STAT.adr, TET_PWRFAIL.adr, isReg, low, high, h, h']

/-- A read of a CQ's registers. -/
theorem view_cqRegs {a : Nat} (h : 0x5000 ≤ a) (h' : a < 0x5400) : s.view a =
    (let c := (a - 0x5000) / 0x20
    if a % 0x20 = 0 then putBit (s.reg a) 31 (s.cqEnabled c)
    else if a % 0x20 = 0xC then putFld (putBit (s.reg a) 30 (s.cqFull c)) 12 0 (s.heldOn (fun t => t.cq == c))
    else if a % 0x20 = 0x18 then BitVec.ofNat 32 (s.cqWait c)
    else s.reg a) := by
  have low : ∀ k < 0x5000, a ≠ k := by omega
  have high : ¬ 0x8104 ≤ a := by omega
  have sq : ¬ a < 0x5000 := by omega
  simp [State.view, TOP_TAGS.adr, TOP_COS.adr, TOP_WR_STAT.adr, TET_TIME_LO.adr, TET_DOM_STAT.adr, TET_PWRFAIL.adr, isReg, low, high, h, h', sq]

/-- Banked patch registers and no others lie between `PAT_MATCH` and the end of the patch window. -/
theorem isReg_outsidePatchWindow {a base stride n : Nat} (h : ¬ 0xA0100 ≤ a ∨ ¬ a < 0xB0000) (hb : 0xA0100 ≤ base) (hs : 0 < stride)
    (he : base + n * stride ≤ 0xB0000) : isReg a base stride n = false := by
  simp only [isReg, Bool.and_eq_false_iff, decide_eq_false_iff_not]
  rcases h with h | h
  · exact .inl (.inl (by omega))
  · exact .inr (by rw [Nat.div_lt_iff_lt_mul hs]; omega)

/-- Every other register reads as it is stored. -/
theorem view_not_followsState {a : Nat} (h : followsState a = false) : s.view a = s.reg a := by
  simp only [followsState, isPat, List.contains_cons, List.contains_nil, Bool.or_eq_false_iff, Bool.and_eq_false_iff, beq_eq_false_iff_ne,
    decide_eq_false_iff_not, ne_eq, and_true] at h
  obtain ⟨⟨⟨⟨⟨⟨hfixed, hsq⟩, hcq⟩, hcred⟩, hident, hpat⟩, hctx⟩, hluns⟩ := h
  by_cases isSq : 0x4000 ≤ a ∧ a < 0x5000
  · simp [view_sqRegs s isSq.1 isSq.2, hsq.resolve_left (not_not_intro isSq)]
  by_cases isCq : 0x5000 ≤ a ∧ a < 0x5400
  · simp [view_cqRegs s isCq.1 isCq.2, hcq.resolve_left (not_not_intro isCq)]
  have hbank : ∀ base stride n, 0xA0100 ≤ base → 0 < stride → base + n * stride ≤ 0xB0000 → isReg a base stride n = false :=
    fun _ _ _ => isReg_outsidePatchWindow hpat
  simp [State.view, hfixed, isSq, isCq, hcred, hident, hbank, hctx, hluns]

/-! The registers that O14 names among those, by what indexes them. -/

theorem followsState_fixed :
    followsState TOP_ID.adr = false ∧ followsState TOP_VERSION.adr = false ∧ followsState TOP_CTRL.adr = false
    ∧ followsState TOP_FRESET_STAT.adr = false ∧ followsState TET_STARTUP.adr = false ∧ followsState TET_PWR_STAT.adr = false
    ∧ followsState TET_WAKEN_STAT.adr = false ∧ followsState TET_WAKE_CAUSE.adr = false ∧ followsState GEO_STAT.adr = false
    ∧ followsState PAT_STAT.adr = false ∧ followsState BAL_FATAL.adr = false ∧ followsState BAL_INJECT_STAT.adr = false := by decide

theorem followsState_temp : ∀ k : Fin 16, followsState (GEO_TEMP.adr k.val) = false := by decide

theorem followsState_bank : ∀ b : Fin 37, followsState (BAL_BANK.adr b.val) = false := by decide

theorem followsState_quad : ∀ q : Fin 8,
    followsState (PHY_STAT.adr q.val) = false ∧ followsState (ZQ_STAT.adr q.val) = false
    ∧ followsState (Q_FLT_CTRL.adr q.val) = false ∧ followsState (Q_FLT_FIRST.adr q.val) = false := by decide

theorem followsState_chan : ∀ n : Fin 32,
    followsState (CH_MODE_STAT.adr n.val) = false ∧ followsState (CH_TRAIN_STAT.adr n.val) = false
    ∧ followsState (CH_DRIFT_STAT.adr n.val) = false ∧ followsState (CH_FLT_CTRL.adr n.val) = false
    ∧ followsState (CH_FLT_FIRST.adr n.val) = false ∧ followsState (CH_FLT_LUNS.adr n.val) = false := by decide

theorem followsState_sq : ∀ i : Fin 128, followsState (SQ_HEAD.adr i.val) = false ∧ followsState (SQ_TAIL.adr i.val) = false := by decide

theorem followsState_cq : ∀ n : Fin 32, followsState (CQ_HEAD.adr n.val) = false ∧ followsState (CQ_TAIL.adr n.val) = false := by decide

/-! The counts and states of the block. -/

theorem view_tags : s.view TOP_TAGS.adr = BitVec.ofNat 32 (s.sharedFree * 2 ^ 16 + s.heldTags.length) := by
  simp [State.view, State.heldOn, State.heldTags, List.countP_eq_length_filter]

theorem view_cos : s.view TOP_COS.adr = putFld (s.reg TOP_COS.adr) 12 0 s.cosUsed := by
  simp [State.view, TOP_COS.adr, TOP_TAGS.adr]

theorem view_sqStat (q : Fin 128) :
    s.view (SQ_STAT.adr q.val) =
      (let waits := !(s.sqOf q.val).slot.isEmpty || (s.on (SQ_STAT.ENABLED q.val) && !s.native q.val && s.sqHead q.val != s.sqTail q.val)
       putBit (putBit (s.reg (SQ_STAT.adr q.val)) 30 (waits && !s.tagOk q.val)) 29 (s.sqOf q.val).refetching) := by
  have hq : (SQ_STAT.adr q.val - 0x4000) / 0x20 = q.val := by simp only [SQ_STAT.adr]; omega
  have ho : SQ_STAT.adr q.val % 0x20 = 0xC := by simp only [SQ_STAT.adr]; omega
  rw [view_sqRegs s (by simp only [SQ_STAT.adr]; omega) (by simp only [SQ_STAT.adr]; omega), hq, ho]
  rfl

theorem view_cqStat (c : Fin 32) :
    s.view (CQ_STAT.adr c.val) = putFld (putBit (s.reg (CQ_STAT.adr c.val)) 30 (s.cqFull c.val)) 12 0 (s.heldOn (fun t => t.cq == c.val)) := by
  have hc : (CQ_STAT.adr c.val - 0x5000) / 0x20 = c.val := by simp only [CQ_STAT.adr]; omega
  have ho : CQ_STAT.adr c.val % 0x20 = 0xC := by simp only [CQ_STAT.adr]; omega
  rw [view_cqRegs s (by simp only [CQ_STAT.adr]; omega) (by simp only [CQ_STAT.adr]; omega), hc, ho]
  rfl

theorem view_cqWait (c : Fin 32) : s.view (CQ_WAIT.adr c.val) = BitVec.ofNat 32 (s.cqWait c.val) := by
  have hc : (CQ_WAIT.adr c.val - 0x5000) / 0x20 = c.val := by simp only [CQ_WAIT.adr]; omega
  have ho : CQ_WAIT.adr c.val % 0x20 = 0x18 := by simp only [CQ_WAIT.adr]; omega
  rw [view_cqRegs s (by simp only [CQ_WAIT.adr]; omega) (by simp only [CQ_WAIT.adr]; omega), hc, ho]
  rfl

theorem view_evStat (r : Fin 2) :
    s.view (EV_STAT.adr + 0x1000 * r.val) =
      (let full := !s.on (evF r.val EV_STAT.ENABLED)
         || ixCount (s.evN r.val) (s.get (evF r.val EV_HEAD.INDEX)) (s.get (evF r.val EV_TAIL.INDEX)) == s.evN r.val
       putFld (putBit (putBit (s.reg (EV_STAT.adr + 0x1000 * r.val)) 30 full) 28 ((s.ringOf r.val).late.any (fun x => sourceHeld x.src))) 6 0
         (s.ringOf r.val).queue.length) := by
  match r with
  | 0 => rfl
  | 1 => rfl

end Sys2Proof.Machine

open Sys2Proof Sys2Proof.Machine

/-- Settles O9: both registers read as stored, and no bit of them is writable. -/
theorem identityRegisters : Obligations.IdentityRegisters := by
  have readsReset : ∀ (s : State) {a : Nat}, followsState a = false → s.answers a = true → s.reg a = regReset a →
      s.readReg a = (regReset a, false) := by
    intro s a hv ha hreg
    rw [readReg_answers s ha, view_not_followsState s hv, hreg]
  refine ⟨rfl, rfl, fun s => readsReset s rfl, fun s => readsReset s rfl, fun s w => ⟨?_, ?_⟩⟩
  · exact reg_storeReg_readOnly s (r := ⟨0x0, [], 0x4B4E3200, 0, 0, 0, 0⟩) rfl rfl rfl rfl rfl rfl (fun _ _ _ => rfl) w
  · exact reg_storeReg_readOnly s (r := ⟨0x4, [], 0x32000201, 0, 0, 0, 0⟩) rfl rfl rfl rfl rfl rfl (fun _ _ _ => rfl) w

/-- Settles O11: a store is one register write on the state that has taken the access. -/
theorem registerStoreFrame : Obligations.RegisterStoreFrame := by
  intro a w s r ha
  simp only [storeReg_register s ha]
  exact ⟨State.reg_setReg_self _ _ _, fun b hb => State.reg_setReg_ne _ (Ne.symm hb) _, setReg_regs_restored _ a _,
    portTake_otherRegister s, portTake_cfgSerr s a⟩

/-- Settles O12, from the bit that the three masks give. -/
theorem accessCodesOfAWrite : Obligations.AccessCodesOfAWrite := by
  intro r lock old w i hi
  simp only [codedWord_getLsbD r lock old w hi]
  refine ⟨?_, ?_, ?_, ?_⟩ <;> intro hm hc hs <;> simp [hm, hc, hs]

/-- Settles O10: the write is the setup port's, taken where the register answers. -/
theorem registerWriteStoresAndActs : Obligations.RegisterWriteStoresAndActs := by
  intro addr w s hs
  rw [exec_registerWrite, onPort_works s _ hs, State.setupWrite]
  refine ⟨fun h => ?_, fun h => ?_⟩
  · rw [writeWith_answers s _ _ _ h]
  · rw [writeWith_silent s _ _ _ h, cfgError_silent s hs.2 h]

/-- Settles O13: where nothing answers, reads and writes differ in CFG_SERR alone. -/
theorem registersThatDoNotAnswer : Obligations.RegistersThatDoNotAnswer := by
  intro s a w f
  have silent : ∀ e, s.answers a = false → s.cfgError a = e → s.readReg a = (0, e) ∧ s.writeWith a w f = s.respond 0 e := by
    rintro e h rfl
    exact ⟨readReg_silent s h, writeWith_silent s a w f h⟩
  refine ⟨fun hr => ?_, fun hr ha => ?_, fun d hr ha hd hp => ?_⟩
  · exact silent _ (answers_resetLow s hr) (cfgError_resetLow s hr)
  · have h := answers_noRegister s ha
    exact silent _ h (by rw [cfgError_silent s hr h, ha]; rfl)
  · have h := answers_domainOff s hd hp
    exact silent _ h (by rw [cfgError_silent s hr h, ha])

/-- Settles O14: a register reads as stored unless `State.view` names it. -/
theorem registerReads : Obligations.RegisterReads := by
  intro s a ha
  rw [readReg_answers s ha]
  refine ⟨fun q n i b k hmem => ?_, ?_, ?_, fun q => ?_, fun c => ⟨?_, ?_⟩, fun r => ?_⟩
  · have hv : followsState a = false := by
      clear ha
      revert a
      simp [followsState_fixed, followsState_temp k, followsState_bank b, followsState_quad q, followsState_chan n, followsState_sq i,
        followsState_cq n]
    rw [view_not_followsState s hv]
  · rintro rfl; rw [view_tags]
  · rintro rfl; rw [view_cos]
  · rintro rfl; rw [view_sqStat]
  · rintro rfl; rw [view_cqStat]
  · rintro rfl; rw [view_cqWait]
  · rintro rfl; rw [view_evStat]
end

section
/-! DEEP: the boundaries of its steps (Tables 14.4 and 14.5), its wake (Table 14.6) and the decoder's slice pairs. -/

namespace Sys2Proof.Machine

variable (s : State)

/-! ### DEEP_ENTRY_STEP and DEEP_EVENT_DRAIN_TIMEOUT -/

theorem exec_deepEntryStep : exec .deepEntryStep s = live s State.sleepNext := rfl

theorem exec_deepEventDrainTimeout :
    exec .deepEventDrainTimeout s = live s fun s => if s.tet.sleepStep = 4 then s.sleepAbandon 6 else s := rfl

theorem sleepNext_wakeAsked (h0 : s.tet.sleepStep ≠ 0) (hw : s.wakeAsked = true) : s.sleepNext = s.sleepAbandon 9 := by
  simp [State.sleepNext, h0, hw]

theorem sleepNext_bad {r : Nat} (h2 : 2 ≤ s.tet.sleepStep) (hw : s.wakeAsked = false) (hb : s.sleepBad = some r) :
    s.sleepNext = s.sleepAbandon r := by
  have h0 : s.tet.sleepStep ≠ 0 := by omega
  have h1 : s.tet.sleepStep ≠ 1 := by omega
  simp [State.sleepNext, h0, h1, hw, hb]

theorem sleepNext_step1 (h1 : s.tet.sleepStep = 1) (hw : s.wakeAsked = false) :
    s.sleepNext = { s with tet := { s.tet with sleepStep := 2 } } := by
  simp [State.sleepNext, h1, hw]

/-- The entry goes on at step k (Table 14.5). -/
abbrev State.sleepAt (k : Nat) : State := { s with tet := { s.tet with sleepStep := k } }

/-- Step 3 has nothing to wait for: no accumulator on chip, no dirty line, no transfer. -/
abbrev State.sleepClean : Prop :=
  (∀ a ∈ s.accs, a.chip = false) ∧ s.dirtyLines = [] ∧ s.rlh.wbq = [] ∧ s.rlh.pooled = [] ∧ s.ready = [] ∧ s.flying = []

/-- The records of ring r have left, which step 4 waits for. -/
abbrev State.ringLeft (r : Nat) : Prop := (s.ringOf r).queue = [] ∧ (s.ringOf r).late = [] ∧ (s.ringOf r).out = []

section
variable (hw : s.wakeAsked = false) (hb : s.sleepBad = none)
include hw hb

theorem sleepNext_step2 (hk : s.tet.sleepStep = 2) :
    s.sleepNext = (let u := (s.sleepAt 3).spillAll
      u.dirtyLines.foldl (fun x l => if x.wbOut l then x else x.writeBack l) u) := by
  simp [State.sleepNext, hk, hw, hb]

theorem sleepNext_step3_clean (hk : s.tet.sleepStep = 3) (hc : s.sleepClean) : s.sleepNext = s.sleepAt 4 := by
  obtain ⟨haccs, hdirty, hwbq, hpooled, hready, hflying⟩ := hc
  have hchip : s.accs.any (·.chip) = false := by simpa using haccs
  simp [State.sleepNext, hk, hw, hb, hchip, hdirty, hwbq, hpooled, hready, hflying]

theorem sleepNext_step3_waits (hk : s.tet.sleepStep = 3) (hc : ¬ s.sleepClean) : s.sleepNext = s := by
  have hleft : (s.accs.any (·.chip) || !s.dirtyLines.isEmpty || !s.rlh.wbq.isEmpty || !s.rlh.pooled.isEmpty || !s.ready.isEmpty
      || !s.flying.isEmpty) = true :=
    eq_true_of_ne_false fun h => hc (by simpa [State.sleepClean, and_assoc] using h)
  simp only [State.sleepNext, hk, hw, hb, hleft, Nat.reduceEqDiff, Bool.false_eq_true, if_true, if_false]

theorem sleepNext_step4_left (hk : s.tet.sleepStep = 4) (h0 : s.ringLeft 0) (h1 : s.ringLeft 1) :
    s.sleepNext =
      (let u := (s.sleepAt 5).each ((List.range 8).filter (fun q => s.qstate q != 2)) fun x q =>
          (x.quadDown q).modQuad q fun y => { y with deepDown := y.deepDown || (x.qstate q != 3 || (x.quadOf q).waking != 0) }
       u.each (List.range 28) fun x d => if d = pdTop then x else x.release d) := by
  obtain ⟨hqueue0, hlate0, hout0⟩ := h0
  obtain ⟨hqueue1, hlate1, hout1⟩ := h1
  simp only [State.sleepNext, hk, hw, hb, hqueue0, hlate0, hout0, hqueue1, hlate1, hout1]; rfl

theorem sleepNext_step4_waits (hk : s.tet.sleepStep = 4) (h : ¬ (s.ringLeft 0 ∧ s.ringLeft 1)) : s.sleepNext = s := by
  have hleft : (!((s.ringOf 0).queue.isEmpty && (s.ringOf 0).late.isEmpty && (s.ringOf 0).out.isEmpty)
      || !((s.ringOf 1).queue.isEmpty && (s.ringOf 1).late.isEmpty && (s.ringOf 1).out.isEmpty)) = true :=
    eq_true_of_ne_false fun hn => h (by simpa [State.ringLeft, and_assoc] using hn)
  simp only [State.sleepNext, hk, hw, hb, hleft, Nat.reduceEqDiff, Bool.false_eq_true, if_true, if_false]

theorem sleepNext_step5_down (hk : s.tet.sleepStep = 5) (hd : ∀ d, d < 28 → d ≠ pdTop → s.pins.pwrAck.getLsbD d = false) :
    s.sleepNext = s.sleepAt 6 := by
  have hany : ((List.range 28).any fun d => d != pdTop && s.pins.pwrAck.getLsbD d) = false := by simpa using hd
  simp [State.sleepNext, hk, hw, hb, hany]

theorem sleepNext_step5_waits (hk : s.tet.sleepStep = 5) {d : Nat} (h28 : d < 28) (ht : d ≠ pdTop) (ha : s.pins.pwrAck.getLsbD d = true) :
    s.sleepNext = s := by
  have hany : ((List.range 28).any fun d => d != pdTop && s.pins.pwrAck.getLsbD d) = true :=
    List.any_eq_true.2 ⟨d, List.mem_range.2 h28, by simp [ht, ha]⟩
  simp [State.sleepNext, hk, hw, hb, hany]

theorem sleepNext_step6 (hk : s.tet.sleepStep = 6) :
    s.sleepNext =
      (let u := (s.sleepAt 0).dropCounters
       let v := { u with rlh := {}, tet := { u.tet with bank32 := false }, pins := { u.pins with cclkReq := false } }
       ((v.setReq pdTop false).put TET_PWR_STAT.BLOCK blockDeep).put TET_SLEEP_STAT.REASON 0) := by
  simp only [State.sleepNext, hk, hw, hb]
  rfl

end

/-! ### DEEP_WAKE -/

/-- The state that a wake from DEEP leaves but for what the retention check finds (Table 14.6). -/
def State.deepWoken : State :=
  let u := { s with tet := { s.tet with prepCause := 0, prepWake := false }, pins := { s.pins with cclkReq := true } }
  let v := (u.powerUp pdTop).put TET_PWR_STAT.BLOCK blockWaking
  if v.on TET_PWRFAIL.LATCH then { v with tet := { v.tet with topOnly := true } } else v.quadsUp

theorem exec_deepWake (ret : Option (BitVec 12)) : exec (.deepWake ret) s = live s (·.deepWakeUp ret) := rfl

section
variable (hd : s.block = blockDeep) (hh : s.halted = false) (hw : s.wakeAsked = true) (ht : s.pins.pwrAck.getLsbD pdTop = false)
  (hc : s.pins.cclkAck = false)
include hd hh hw ht hc

theorem deepWakeUp_retained : s.deepWakeUp none = s.deepWoken := by
  unfold State.deepWakeUp
  rw [if_neg (by simp [hd, hh, hw, ht, hc])]
  rfl

/-- A retention row that fails its check is captured and fatal (Table 14.6). -/
theorem deepWakeUp_lost (row : BitVec 12) :
    s.deepWakeUp (some row) = (s.deepWoken.capture (.top 5) 2 3 row.toNat false).fatal fatalRetention := by
  unfold State.deepWakeUp
  rw [if_neg (by simp [hd, hh, hw, ht, hc])]
  rfl

end

/-! ### TET_TIME_LO_READ -/

theorem exec_tetTimeLoRead : exec .tetTimeLoRead s = onPort s State.timeLoRead := rfl

/-- The low word is in PD_TET: its read is answered whatever is powered. -/
theorem timeLoRead_resetHigh (hr : s.pins.resetN = true) :
    s.timeLoRead = (s.setReg TET_TIME_HI.adr ((s.tet.time >>> 32).setWidth 32)).respond (s.readReg TET_TIME_LO.adr).1 false := by
  have hrow : regRow TET_TIME_LO.adr = some ⟨0x1000, [], 0, 0, 0, 0, 0⟩ := rfl
  have hdom : regDomain TET_TIME_LO.adr = none := rfl
  have herr : s.cfgError TET_TIME_LO.adr = false := by simp [State.cfgError, State.answers, hr, hrow, hdom]
  rw [State.timeLoRead, herr]

/-! ### The decoder slice pairs (R467) -/

theorem exec_slicePairPower (b : Fin 9) : exec (.slicePairPower b) s = liveTop s (·.pairUp b.val) := rfl

theorem exec_slicePairRelease (b : Fin 9) : exec (.slicePairRelease b) s = liveTop s (·.pairDown b.val) := rfl

theorem pairUp_wanted {b : Nat} (hg : s.on TET_PWR_CTRL.B_GATE = true) (hh : s.halted = false) (hn : s.pairNeeded b = true)
    (hk : s.tet.sleepStep < 5) (hj : s.jobs.any (fun j => !j.dead) = true) : s.pairUp b = s.powerUp (pdB b) := by
  simp only [State.pairUp, hg, hh, hn, hj, hk]; rfl

theorem pairDown_unkept {b : Nat} (hg : s.on TET_PWR_CTRL.B_GATE = true) (hh : s.halted = false) (hkept : s.pairsKept.contains b = false)
    (hidle : ([2 * b, 2 * b + 1].any fun i => (s.sliceOf i).job.isSome || (s.sliceOf i).st == sliceTesting) = false)
    (hreq : s.pins.pwrReq.getLsbD (pdB b) = true) : s.pairDown b = s.setReq (pdB b) false := by
  simp only [State.pairDown, hg, hh, hkept, hidle, hreq]; rfl

end Sys2Proof.Machine

open Sys2Proof Sys2Proof.Machine

/-- Settles O30: each clause is what the model's step boundary, wake or pair command does in that case. -/
theorem deepAndSlicePairCommands : Obligations.DeepAndSlicePairCommands := by
  refine ⟨fun s hs => ?_, fun s hs => ?_⟩
  · have hstep : exec .deepEntryStep s = .next s.sleepNext.settle := by rw [exec_deepEntryStep, live_works s _ hs]
    have hwake : ∀ ret, exec (.deepWake ret) s = .next (s.deepWakeUp ret).settle := fun ret => by rw [exec_deepWake, live_works s _ hs]
    rw [hstep]
    refine ⟨fun h0 hw => ?_, fun r h2 hw hb => ?_, fun h1 hw => ?_, fun hw hb => ⟨fun hk => ?_, fun hk hc => ?_, fun hk hc => ?_,
      fun hk h0 h1 => ?_, fun hk h => ?_, fun hk hd => ?_, fun d hk h28 ht ha => ?_⟩, fun hk hw hb => ?_, fun hk => ?_,
      fun hd hh hw ht hc => ⟨?_, fun row => ?_⟩⟩
    · rw [sleepNext_wakeAsked s h0 hw]
    · rw [sleepNext_bad s h2 hw hb]
    · rw [sleepNext_step1 s h1 hw]
    · rw [sleepNext_step2 s hw hb hk]
    · rw [sleepNext_step3_clean s hw hb hk hc]
    · rw [sleepNext_step3_waits s hw hb hk hc]
    · rw [sleepNext_step4_left s hw hb hk h0 h1]
    · rw [sleepNext_step4_waits s hw hb hk h]
    · rw [sleepNext_step5_down s hw hb hk hd]
    · rw [sleepNext_step5_waits s hw hb hk h28 ht ha]
    · rw [sleepNext_step6 s hw hb hk]
    · rw [exec_deepEventDrainTimeout, live_works s _ hs, if_pos hk]
    · rw [hwake, deepWakeUp_retained s hd hh hw ht hc]; rfl
    · rw [hwake, deepWakeUp_lost s hd hh hw ht hc]; rfl
  · refine ⟨?_, fun b htop hh hg => ⟨fun hn hk hj => ?_, fun hkept hidle hreq => ?_⟩⟩
    · rw [exec_tetTimeLoRead, onPort_works s _ hs, timeLoRead_resetHigh s hs.2]
    · rw [exec_slicePairPower, liveTop_works s _ ⟨hs, htop⟩, pairUp_wanted s hg hh hn hk hj]
    · rw [exec_slicePairRelease, liveTop_works s _ ⟨hs, htop⟩, pairDown_unkept s hg hh hkept hidle hreq]
end

section
/-! The Push port's writes while the shadow takes them (R32, R58 to R60), and the shadow's drain. -/

namespace Sys2Proof.Machine

variable (s : State)

theorem exec_doorbellShadowWrite (l : List Beat) : exec (.doorbellShadowWrite l) s = live s (·.pushPort l) := rfl

theorem exec_doorbellShadowDrain : exec .doorbellShadowDrain s = liveTop s State.shadowDrain := rfl

/-! ### The port -/

theorem toShadow_topOff (h : s.topOn = false) : s.toShadow = true := by simp [State.toShadow, h]

/-- R58. -/
theorem pushPort_notReady (l : List Beat) (h : s.isReady = false) : s.pushPort l = s := by simp [State.pushPort, h]

/-- The port takes no write in while a function reset runs or another write is held. -/
theorem pushPort_offers (l : List Beat) (hr : s.isReady = true) (hf : s.freset.busy = false) (hw : s.tet.waiting = none) :
    s.pushPort l = (s.pushOffer l).getD { s with tet := { s.tet with waiting := some l } } := by
  simp [State.pushPort, hr, hf, hw]

/-- A write behind others in the shadow fires no wake slot. -/
theorem pushOffer_shadowBehind {l : List Beat} (ht : s.toShadow = true) (hb : s.shadowBeats + l.length ≤ 64) (hs : s.tet.shadow ≠ []) :
    s.pushOffer l = some (State.sawWork { s with tet := { s.tet with shadow := s.tet.shadow ++ [l] } }) := by
  simp [State.pushOffer, ht, Nat.not_lt.2 hb, hs]

/-- The first write of the shadow is wake source 0. -/
theorem pushOffer_shadowFirst {l : List Beat} (ht : s.toShadow = true) (hb : s.shadowBeats + l.length ≤ 64) (hs : s.tet.shadow = []) :
    s.pushOffer l =
      some (State.sawWork { s.fireSlot 0 with tet := { (s.fireSlot 0).tet with shadow := (s.fireSlot 0).tet.shadow ++ [l] } }) := by
  simp [State.pushOffer, ht, Nat.not_lt.2 hb, hs]

theorem pushOffer_shadowFull {l : List Beat} (ht : s.toShadow = true) (hb : 64 < s.shadowBeats + l.length) : s.pushOffer l = none := by
  simp [State.pushOffer, ht, hb]

/-! ### The drain -/

theorem shadowDrain_awake (hk : s.tet.sleepStep < 2) (hf : s.freset.busy = false) : s.shadowDrain = (State.drainShadow 65 s).pushRetry := by
  simp [State.shadowDrain, hf, Nat.not_le.2 hk]

theorem drainShadow_empty (n : Nat) (h : s.tet.shadow = []) : State.drainShadow n s = s := by
  cases n with
  | zero => rfl
  | succ n => simp only [State.drainShadow, h]

theorem drainShadow_takes (n : Nat) {l : List Beat} {r : List (List Beat)} {t : State} (h : s.tet.shadow = l :: r)
    (ht : s.takeWrite l = some t) : State.drainShadow (n + 1) s = State.drainShadow n { t with tet := { t.tet with shadow := r } } := by
  simp only [State.drainShadow, h, ht]

theorem drainShadow_waits (n : Nat) {l : List Beat} {r : List (List Beat)} (h : s.tet.shadow = l :: r) (ht : s.takeWrite l = none) :
    State.drainShadow (n + 1) s = s := by
  simp only [State.drainShadow, h, ht]

end Sys2Proof.Machine

open Sys2Proof Sys2Proof.Machine

/-- Settles O38: the port's three answers while the top is off, and one turn of the drain. -/
theorem shadowCommands : Obligations.ShadowCommands := by
  refine ⟨fun s l hs => ?_, fun s hs hk hf => ?_, fun u n => ⟨?_, fun l r t => ?_, fun l r => ?_⟩⟩
  · rw [exec_doorbellShadowWrite, live_works s _ hs]
    refine ⟨fun hr => ?_, fun hr hf hw htop => ?_⟩
    · rw [pushPort_notReady s l hr]
    · have ht := toShadow_topOff s htop
      rw [pushPort_offers s l hr hf hw]
      refine ⟨fun hb hne => ?_, fun hb he => ?_, fun hb => ?_⟩
      · rw [pushOffer_shadowBehind s ht hb hne, Option.getD_some]
      · rw [pushOffer_shadowFirst s ht hb he, Option.getD_some]
      · rw [pushOffer_shadowFull s ht hb, Option.getD_none]
  · rw [exec_doorbellShadowDrain, liveTop_works s _ hs, shadowDrain_awake s hk hf]
  · exact drainShadow_empty u n
  · exact drainShadow_takes u n
  · exact drainShadow_waits u n
end

section
/-! Where a routine starts, wakes and waits for staging (R23, R144, R145, R355). -/

namespace Sys2Proof.Machine

variable (s : State)

theorem exec_offerRoutine (n : Fin 32) : exec (.offerRoutine n) s = liveTop s (·.offer n.val) := rfl

theorem exec_unpark (n : Fin 32) : exec (.unpark n) s = live s (·.unpark n.val) := rfl

theorem exec_chanterTimerExpire (g : Fin 1024) : exec (.chanterTimerExpire g) s = live s (·.timerExpire g.val) := rfl

theorem exec_stagingReserved (n : Fin 32) : exec (.stagingReserved n) s = live s (·.reserve n.val) := rfl

/-! ### OFFER_ROUTINE -/

/-- The state that OFFER_ROUTINE chooses in: its suspend decisions made (R360) and its passes stamped (R356). -/
def State.decided (n : Nat) : State :=
  (if s.halted || s.freset.busy || s.on TET_PWRFAIL.LATCH then s else s.each (chanLuns n) State.suspendDecision).restamp n

/-- The first operation that the channel may start. -/
def State.firstStartable (n : Nat) : Option Op := s.firstOp ((s.chanOps n).filter s.mayStart)

theorem offer_operation {n : Nat} {o : Op} (hc : (s.decided n).ctxOpen n = true) (ho : (s.decided n).firstStartable n = some o) :
    s.offer n = (s.decided n).offerOp o := by
  unfold State.firstStartable at ho
  unfold State.decided at hc ho ⊢
  simp only [State.offer, hc, ho]
  rfl

theorem offer_training {n : Nat} {o : Op} (hc : (s.decided n).ctxOpen n = true) (hno : (s.decided n).firstStartable n = none)
    (ho : (s.decided n).trainNext n = some o) :
    s.offer n = ((s.decided n).modChan n fun c => { c with trainAt := c.trainAt + 1 }).startRoutine o := by
  unfold State.firstStartable at hno
  unfold State.decided at hc hno ho ⊢
  simp only [State.offer, hc, hno, ho]
  rfl

/-! ### UNPARK -/

/-- No request that waits for a safe boundary (R148). -/
theorem proceed_on {c : Ctx} {safe : Bool} (next : Nat) (h : safe = false ∨ c.pending = false ∨ c.giveWay = true) :
    c.proceed safe next = some { c with pc := next } := by
  rcases h with h | h | h <;> simp [Ctx.proceed, h]

theorem proceed_givesWay {c : Ctx} (next : Nat) (hp : c.pending = true) (hg : c.giveWay = false) (hl : c.stack.length < 4) :
    c.proceed true next = some { c with stack := next :: c.stack, pc := c.entry + 1, giveWay := true } := by
  simp [Ctx.proceed, hp, hg, Nat.not_le.2 hl]

/-- The routine c parked on LUN g takes channel n's context. -/
def State.unparked (n g : Nat) (c : Ctx) : State :=
  (s.modLun g fun l => { l with park := none, woken := none }).modCtx n fun _ => { c with state := 2, safeYield := false }

theorem unpark_proceeds {n g : Nat} {c k : Ctx} (h0 : (s.ctxOf n).state = 0) (ht : (s.quadOf (chanQuad n)).takeover = false)
    (hh : s.halted = false) (hd : s.deadChan n = false) (hsafe : s.on (CH_MODE_STAT.SAFE n) = false) (hg : s.firstWoken n = some g)
    (hc : (s.lunOf g).park = some c) (hk : c.proceed c.safeYield c.pc = some k) :
    s.unpark n = (s.unparked n g c).modCtx n fun _ => { k with state := 2, safeYield := false } := by
  simp [State.unpark, h0, ht, hh, hd, hsafe, hg, hc, hk, State.unparked]

/-! ### CHANTER_TIMER_EXPIRE -/

/-- The timer of a parked routine wakes it (R144). -/
theorem timerExpire_parked {g : Nat} {p : Ctx} (h0 : (s.ctxOf (lunChan g)).state = 0) (hp : (s.lunOf g).park = some p)
    (ht : p.timerOn = true) :
    s.timerExpire g = (s.modLun g fun l => { l with park := some { p with timerOn := false } }).wakePark g := by
  simp [State.timerExpire, h0, hp, ht]

/-! ### STAGING_RESERVED -/

/-- Copies given up leave the lane as it is (log 84). -/
@[simp] theorem dropSpent_lane (n : Nat) (o : Op) (h m : Nat) : ((s.dropSpent n o h).chanOf m).lane = (s.chanOf m).lane := by
  unfold State.dropSpent
  dsimp only
  split
  · rw [State.chanOf_modChan]; split <;> simp [*]
  · rfl

/-- The DOUT e of operation o has its reservation and enters the lane (R23). -/
def State.reserved (n : Nat) (o : Op) (e : Lane) : State :=
  let new : Stage := { handle := e.handle, tag := o.tag, loc := o.loc, cw := o.cw, size := s.stageSize o, read := o.readId }
  (s.modChan n fun x => { x with
      staging := if x.staging.any (fun g => g.handle == e.handle) then
          x.staging.map (fun g => if g.handle = e.handle then { g with size := g.size + new.size } else g) else x.staging ++ [new],
      lane := x.lane ++ [e] }).modCtx n fun c => { c with doutWait := none, issued := true }

section
variable {s} {n : Nat} {e : Lane} (he : (s.ctxOf n).doutWait = some e)
include he

theorem reserve_noRoom (hr : (s.dropSpent n (s.ctxOf n).op e.handle).stageRoom n
      < (s.dropSpent n (s.ctxOf n).op e.handle).stageUsed n + (s.dropSpent n (s.ctxOf n).op e.handle).stageSize (s.ctxOf n).op) :
    s.reserve n = s.dropSpent n (s.ctxOf n).op e.handle := by
  simp [State.reserve, he, hr]

theorem reserve_room (h0 : (s.ctxOf n).state ≠ 0) (hl : (s.chanOf n).lane.length < 16)
    (hr : (s.dropSpent n (s.ctxOf n).op e.handle).stageUsed n + (s.dropSpent n (s.ctxOf n).op e.handle).stageSize (s.ctxOf n).op
      ≤ (s.dropSpent n (s.ctxOf n).op e.handle).stageRoom n) :
    s.reserve n = (s.dropSpent n (s.ctxOf n).op e.handle).reserved n (s.ctxOf n).op e := by
  simp [State.reserve, he, h0, Nat.not_le.2 hl, Nat.not_lt.2 hr, State.reserved]

end

end Sys2Proof.Machine

open Sys2Proof Sys2Proof.Machine

/-- Settles O48: each clause is what the model's offer, unpark, timer or reservation does in that case. -/
theorem routineCommands : Obligations.RoutineCommands := by
  intro s hs
  refine ⟨fun n o htop hc ho => ?_, fun n o htop hc hno ho => ?_,
    fun n g c h0 ht hh hd hsafe hg hc => ⟨fun hno => ?_, fun hy hp hgw hst => ?_⟩, fun g p h0 hp ht => ?_,
    fun n e he h0 hl => ⟨fun hr => ?_, fun hr => ?_⟩⟩
  · rw [exec_offerRoutine, liveTop_works s _ ⟨hs, htop⟩, offer_operation s hc ho]; rfl
  · rw [exec_offerRoutine, liveTop_works s _ ⟨hs, htop⟩, offer_training s hc hno ho]; rfl
  · rw [exec_unpark, live_works s _ hs, unpark_proceeds s h0 ht hh hd hsafe hg hc (proceed_on c.pc hno)]; rfl
  · rw [exec_unpark, live_works s _ hs,
      unpark_proceeds s h0 ht hh hd hsafe hg hc (by rw [hy]; exact proceed_givesWay c.pc hp hgw hst)]; rfl
  · rw [exec_chanterTimerExpire, live_works s _ hs, timerExpire_parked s h0 hp ht]
  · rw [exec_stagingReserved, live_works s _ hs, reserve_noRoom he hr]
  · rw [exec_stagingReserved, live_works s _ hs, reserve_room he h0 hl hr]; rfl
end

section
/-! One micro-word that does nothing but go on: its turn, its count and where its SEQ takes the context (R27, R138 to R140). -/

namespace Sys2Proof.Machine

variable (s : State)

/-- The commands of a micro-word's SEQ and its code (Table 4.4). -/
def seqCommands (n : Fin 32) (err : FetchErr) : List (Instr × Nat) :=
  [(.nextSeq n err, seqNext), (.jump n err, seqJump), (.branch n err, seqBranch), (.callSeq n err, seqCall), (.ret n err, seqRet),
    (.yield n err, seqYield), (.endSeq n err, seqEnd)]

theorem exec_seqCommand {n : Fin 32} {err : FetchErr} {i : Instr} {seq : Nat} (hi : (i, seq) ∈ seqCommands n err) :
    exec i s = live s (·.runWord n.val seq err) := by
  simp only [seqCommands, List.mem_cons, Prod.mk.injEq, List.not_mem_nil, or_false] at hi
  rcases hi with ⟨rfl, rfl⟩ | ⟨rfl, rfl⟩ | ⟨rfl, rfl⟩ | ⟨rfl, rfl⟩ | ⟨rfl, rfl⟩ | ⟨rfl, rfl⟩ | ⟨rfl, rfl⟩ <;> rfl

/-! ### A word that meets an uncorrectable small store (Table 13.8) -/

theorem runWord_small {n seq : Nat} {err : FetchErr} {x : SmallStore} (hm : s.mayRun n = true) (hx : err.small = some x) :
    s.runWord n seq err = s.smallBad n x := by
  simp [State.runWord, hm, hx]

theorem smallBad_eq (n : Fin 32) (x : SmallStore) :
    s.smallBad n.val x = if x = .slot ∧ (s.ctxOf n.val).committed = false then s.runFaulted n.val
      else ((s.fenceLun (s.ctxOf n.val).lun).evLunFault n.val (s.ctxOf n.val).lun ((s.ctxOf n.val).op.tag.getD 0xFFF) 2).fault (.chan n) 6 2
        ((s.ctxOf n.val).op.tag.getD 0xFFF * 2 ^ 12 + if x = .lunState then 2 ^ 24 else 0) := by
  simp [State.smallBad]

/-! ### The turn -/

theorem takeTurn_ctxOf (n corr m : Nat) : (s.takeTurn n corr).ctxOf m = s.ctxOf m := by
  unfold State.takeTurn State.bump State.put
  dsimp only
  split <;> simp

theorem takeTurn_turn (n corr : Nat) : ((s.takeTurn n corr).quadOf (chanQuad n)).turn = n % 4 := by
  unfold State.takeTurn State.bump State.put
  dsimp only
  split <;> simp [State.quadOf_modQuad]

/-! ### The rest of a word without an action -/

/-- The context has run one more word. -/
def Ctx.counted (c : Ctx) : Ctx := { c with state := 2, words := c.words + 1 }

/-- The context c has run its word on channel n and goes where the word's SEQ says (Table 4.4). -/
def State.goesOn (n : Nat) (c : Ctx) (mw : Nat) (w : Nano) : State :=
  let u := s.modCtx n fun _ => c
  let goes := fun k : Ctx => u.modCtx n fun _ => k
  match mwSeq mw with
  | 0 => goes { c with pc := c.pc + 1 }
  | 1 => goes { c with pc := nwTarget w }
  | 2 => goes { c with pc := s.branchTo n c w }
  | 3 => goes { c with stack := (c.pc + 1) :: c.stack, pc := nwTarget w }
  | 4 => goes { c with stack := c.stack.tail, pc := c.stack.headD 0, giveWay := false }
  | 5 => u.parkCtx n (nwTarget w) (mwSafe mw)
  | 6 => u.routineEnd n (mwArg mw)
  | _ => u

/-- A register operation of code 0 leaves the context (Table 4.6). -/
theorem aluOp_none (n : Nat) (c : Ctx) (mw : Nat) {w : Nano} (h : nwAlu w = 0) : s.aluOp n c mw w = c := by
  simp [State.aluOp, h]

theorem ack_zero (c : Ctx) : c.ack 0 = c := by simp [Ctx.ack]

/-- With no request pending no word gives way (R148). -/
theorem proceed_unasked {c : Ctx} (h : c.pending = false) (safe : Bool) (next : Nat) : c.proceed safe next = some { c with pc := next } :=
  proceed_on next (.inr (.inl h))

theorem wordRest_actionless (n mw : Nat) {w : Nano} (patch : Bool) (halu : nwAlu w = 0) (htim : nwTimop w = 0) (hack : nwReqack w = 0)
    (hi : (s.ctxOf n).issued = false) (hl : (s.ctxOf n).laneWait = false) (hp : (s.ctxOf n).pending = false) :
    s.wordRest n mw w patch = s.goesOn n (s.ctxOf n).counted mw w := by
  have hon : ({ s.ctxOf n with state := 2, issued := false, laneWait := false, words := (s.ctxOf n).words + 1 } : Ctx)
      = (s.ctxOf n).counted := by
    rw [Ctx.counted, hi, hl]
  have hpend : (s.ctxOf n).counted.pending = false := hp
  have hcall : ∀ st, ({ (s.ctxOf n).counted with stack := st } : Ctx).pending = false := fun _ => hp
  have htwo : (0 = 2) = False := eq_false (by decide)
  unfold State.wordRest State.goesOn
  simp only [aluOp_none s n _ mw halu, hon, htim, hack, ack_zero, Nat.zero_ne_one, if_false, htwo]
  generalize mwSeq mw = seq
  match seq with
  | 0 | 1 | 2 => simp only [proceed_unasked hpend]
  | 3 => simp only [proceed_unasked (hcall _)]
  | 4 | 6 | _ + 7 => rfl
  | 5 => simp [hpend]

/-! ### The word -/

/-- A word without a bus, register or timer action, fetched without fault for channel n, which need not wait for the lane and which no
request is pending at. -/
structure State.PlainWord (n : Nat) (err : FetchErr) : Prop where
  runs : s.mayRun n = true
  small : err.small = none
  good : (s.fetchWord n err).bad = none
  bus : nwBusop (s.fetchWord n err).nano = 0
  alu : nwAlu (s.fetchWord n err).nano = 0
  timer : nwTimop (s.fetchWord n err).nano = 0
  ack : nwReqack (s.fetchWord n err).nano = 0
  lane : waitsLane (s.fetchWord n err).mw (s.fetchWord n err).nano = false
  issued : (s.ctxOf n).issued = false
  laneWait : (s.ctxOf n).laneWait = false
  pending : (s.ctxOf n).pending = false

/-- A word of this SEQ does not overflow or underflow the return stack (R139). -/
def Ctx.stackOk (c : Ctx) (seq : Nat) : Prop := (seq = seqCall → c.stack.length < 4) ∧ (seq = seqRet → c.stack ≠ [])

theorem stackOk_otherSeq {c : Ctx} {seq : Nat} (hc : seq ≠ seqCall) (hr : seq ≠ seqRet) : c.stackOk seq :=
  ⟨fun h => absurd h hc, fun h => absurd h hr⟩

theorem runWord_plain {n seq : Nat} {err : FetchErr} (h : s.PlainWord n err) (hst : (s.ctxOf n).stackOk seq)
    (hseq : mwSeq (s.fetchWord n err).mw = seq) :
    s.runWord n seq err = (s.takeTurn n (s.fetchWord n err).corr).goesOn n (s.ctxOf n).counted (s.fetchWord n err).mw
      (s.fetchWord n err).nano := by
  have hstack : (seq == seqCall && decide ((s.ctxOf n).stack.length ≥ 4) || seq == seqRet && (s.ctxOf n).stack.isEmpty) = false := by
    obtain ⟨hcall, hret⟩ := hst
    simpa using ⟨hcall, hret⟩
  have hentry : (s.ctxOf n).laneEntry (s.fetchWord n err).mw (s.fetchWord n err).nano = none := by simp [Ctx.laneEntry, h.bus]
  have hctx := takeTurn_ctxOf s n (s.fetchWord n err).corr n
  have hrest := wordRest_actionless (s.takeTurn n (s.fetchWord n err).corr) n (s.fetchWord n err).mw (s.fetchWord n err).patch h.alu h.timer
    h.ack (by rw [hctx, h.issued]) (by rw [hctx, h.laneWait]) (by rw [hctx, h.pending])
  rw [hctx] at hrest
  simp [State.runWord, h.runs, h.small, h.good, hseq, hstack, hentry, h.lane, hrest]

end Sys2Proof.Machine

open Sys2Proof Sys2Proof.Machine

/-- Settles O46: a small store's fault, or the turn, the count and the way of the word's SEQ. -/
theorem sequencerWords : Obligations.SequencerWords := by
  refine ⟨fun s n err x hs hm hx i hi => ?_, fun s n err hs hm hsmall hgood hbus halu htim hack hlane hi hl hp => ?_⟩
  · obtain ⟨⟨i, seq⟩, hseq, rfl⟩ := List.mem_map.1 (show i ∈ (seqCommands n err).map Prod.fst from hi)
    rw [exec_seqCommand s hseq, live_works s _ hs, runWord_small s hm hx, smallBad_eq]
  · have hw : s.PlainWord n.val err := ⟨hm, hsmall, hgood, hbus, halu, htim, hack, hlane, hi, hl, hp⟩
    have runs : ∀ {j seq t}, (j, seq) ∈ seqCommands n err → mwSeq (s.fetchWord n.val err).mw = seq → (s.ctxOf n.val).stackOk seq →
        (s.takeTurn n.val (s.fetchWord n.val err).corr).goesOn n.val (s.ctxOf n.val).counted (s.fetchWord n.val err).mw
          (s.fetchWord n.val err).nano = t → exec j s = .next t.settle := by
      rintro j seq t hj hseq hst rfl
      rw [exec_seqCommand s hj, live_works s _ hs, runWord_plain s hw hst hseq]
    refine ⟨takeTurn_turn s _ _, fun h => ?_, fun h => ?_, fun h => ?_, fun h hc => ?_, fun a l h hc => ?_, fun h => ?_, fun h => ?_⟩
    · exact runs (by simp [seqCommands]) h (stackOk_otherSeq (by decide) (by decide)) (by rw [State.goesOn, h]; rfl)
    · exact runs (by simp [seqCommands]) h (stackOk_otherSeq (by decide) (by decide)) (by rw [State.goesOn, h]; rfl)
    · exact runs (by simp [seqCommands]) h (stackOk_otherSeq (by decide) (by decide)) (by rw [State.goesOn, h]; rfl)
    · exact runs (by simp [seqCommands]) h ⟨fun _ => hc, nofun⟩ (by rw [State.goesOn, h]; rfl)
    · exact runs (by simp [seqCommands]) h ⟨nofun, fun _ => by simp [hc]⟩ (by simp only [State.goesOn, h, Ctx.counted, hc]; rfl)
    · exact runs (by simp [seqCommands]) h (stackOk_otherSeq (by decide) (by decide)) (by rw [State.goesOn, h]; rfl)
    · exact runs (by simp [seqCommands]) h (stackOk_otherSeq (by decide) (by decide)) (by rw [State.goesOn, h]; rfl)
end

section
/-! Fields of a register after a write, and what a run over indices keeps. -/

namespace Sys2Proof.Machine

theorem getLsbD_fmask (n hi lo i : Nat) : (fmask n hi lo).getLsbD i = (decide (i < n) && decide (lo ≤ i) && decide (i - lo < hi + 1 - lo)) := by
  simp [fmask, BitVec.getLsbD_ofNat, Nat.testBit_mul_two_pow, Nat.testBit_two_pow_sub_one, Bool.and_assoc]

/-- A written field's bits are the value's, the others stay. -/
theorem getLsbD_putFld {n : Nat} (w : BitVec n) (hi lo v : Nat) {i : Nat} (h : i < n) :
    (putFld w hi lo v).getLsbD i = if lo ≤ i ∧ i ≤ hi then v.testBit (i - lo) else w.getLsbD i := by
  have hin : (lo ≤ i ∧ i ≤ hi) ↔ (lo ≤ i ∧ i - lo < hi + 1 - lo) := by omega
  simp only [putFld, BitVec.getLsbD_or, BitVec.getLsbD_and, BitVec.getLsbD_not, getLsbD_fmask, BitVec.getLsbD_ofNat, Nat.testBit_mul_two_pow,
    Nat.testBit_mod_two_pow, h, hin]
  by_cases hlo : lo ≤ i <;> by_cases hhi : i - lo < hi + 1 - lo <;> simp [hlo, hhi]

theorem getLsbD_putBit {n : Nat} (w : BitVec n) (i : Nat) (b : Bool) {j : Nat} (h : j < n) :
    (putBit w i b).getLsbD j = if j = i then b else w.getLsbD j := by
  rw [putBit, getLsbD_putFld w i i _ h]
  by_cases hj : j = i
  · subst hj; cases b <;> simp
  · rw [if_neg (by omega), if_neg hj]

/-- A written field reads as written. -/
theorem fld_putFld {n : Nat} (w : BitVec n) {hi lo : Nat} (v : Nat) (h : hi < n) : fld (putFld w hi lo v) hi lo = v % 2 ^ (hi + 1 - lo) := by
  apply Nat.eq_of_testBit_eq
  intro i
  simp only [fld, Nat.testBit_mod_two_pow, Nat.testBit_div_two_pow, BitVec.testBit_toNat]
  by_cases hi' : i < hi + 1 - lo
  · rw [getLsbD_putFld w hi lo v (by omega), if_pos (by omega)]
    simp [hi']
  · simp [hi']

theorem State.get_put_self (s : State) (f : Fld) (v : Nat) (h : f.hi < 32) : (s.put f v).get f = v % 2 ^ (f.hi + 1 - f.lo) := by
  rw [State.get, State.put, State.reg_setReg_self, fld_putFld _ _ h]

/-- What every turn of a run keeps holds at its end. -/
theorem State.each_keeps {P : State → Prop} {f : State → Nat → State} {l : List Nat} (hf : ∀ u k, k ∈ l → P u → P (f u k)) {s : State}
    (hs : P s) : P (s.each l f) := by
  unfold State.each
  induction l generalizing s with
  | nil => exact hs
  | cons k l ih => exact ih (fun u j hj => hf u j (List.mem_cons_of_mem _ hj)) (hf s k List.mem_cons_self hs)

/-- What one turn of a run brings about and every turn keeps holds at its end. -/
theorem State.each_reaches {P : State → Prop} {f : State → Nat → State} {l : List Nat} {k : Nat} (hk : k ∈ l) (hset : ∀ u, P (f u k))
    (hkeep : ∀ u j, P u → P (f u j)) (s : State) : P (s.each l f) := by
  obtain ⟨before, after, rfl⟩ := List.append_of_mem hk
  rw [State.each, List.foldl_append, List.foldl_cons]
  exact State.each_keeps (fun u j _ => hkeep u j) (hset _)

end Sys2Proof.Machine
end

section
/-! The two pins RESET_N and TEST_MODE, and what the interrupt lines and PSH_READY show (R50, R74, R89, R90, R206, R423). -/

namespace Sys2Proof.Machine

variable (s : State)

/-! ### The commands of the pins -/

theorem exec_resetNAssert : exec .resetNAssert s = .next s.resetAssert := rfl

theorem exec_resetNDeassert : exec .resetNDeassert s = .next s.resetDeassert := rfl

theorem exec_pwrAckRise (d : Fin 28) :
    exec (.pwrAckRise d) s = if s.pins.testMode then .next (s.ackRise d.val).setIrqs else live s (·.ackRise d.val) := rfl

theorem exec_pwrAckFall (d : Fin 28) :
    exec (.pwrAckFall d) s = .next (if s.pins.testMode then (s.ackFall d.val).testPower
      else if s.pins.resetN then (s.ackFall d.val).powerMore.settle else s.ackFall d.val) := rfl

theorem exec_cclkAckFall :
    exec .cclkAckFall s =
      if s.pins.testMode then .fault .testMode else .next (if s.pins.resetN then s.cclkFall.powerMore.settle else s.cclkFall) := rfl

/-- The commands by what lets them act: `exec_frame` speaks of the framed ones. -/
theorem command_cases (c : Instr) :
    framed c ∨ c = .resetNAssert ∨ c = .resetNDeassert ∨ c = .testModeHigh ∨ (∃ d, c = .pwrAckRise d) ∨ (∃ d, c = .pwrAckFall d)
      ∨ c = .cclkAckFall := by
  refine Classical.byContradiction fun h => ?_
  simp only [not_or, not_exists] at h
  obtain ⟨hframed, hassert, hdeassert, htest, hrise, hfall, hcclk⟩ := h
  exact hframed ⟨⟨hassert, hdeassert, htest⟩, hrise, hfall, hcclk⟩

/-! ### What the pins show -/

/-- t shows and asks at its interrupt lines and PSH_READY what s does. -/
structure State.ShowsAs (s t : State) : Prop where
  irqN : t.pins.irqN = s.pins.irqN
  irqF : t.pins.irqF = s.pins.irqF
  ready : t.pins.pshReady = s.pins.pshReady
  waiting : t.tet.waiting = s.tet.waiting
  shadow : t.tet.shadow = s.tet.shadow
  top : t.usable pdTop = s.usable pdTop
  rings : t.rings = s.rings
  /-- The registers of the event rings (Table 12.7). -/
  regs : ∀ a, 0x2000 ≤ a → a < 0x4000 → t.reg a = s.reg a

theorem State.ShowsAs.refl : s.ShowsAs s := ⟨rfl, rfl, rfl, rfl, rfl, rfl, rfl, fun _ _ _ => rfl⟩

theorem State.ShowsAs.trans {s t u : State} (h : s.ShowsAs t) (k : t.ShowsAs u) : s.ShowsAs u where
  irqN := k.irqN.trans h.irqN
  irqF := k.irqF.trans h.irqF
  ready := k.ready.trans h.ready
  waiting := k.waiting.trans h.waiting
  shadow := k.shadow.trans h.shadow
  top := k.top.trans h.top
  rings := k.rings.trans h.rings
  regs a ha hb := (k.regs a ha hb).trans (h.regs a ha hb)

theorem State.ShowsAs.irq {s t : State} (h : s.ShowsAs t) (r : Nat) (hr : r < 2) : t.irq r = s.irq r := by
  have hget : ∀ f : Fld, 0x2000 ≤ f.adr → f.adr < 0x3000 → t.get (evF r f) = s.get (evF r f) := fun f hlo hhi => by
    rw [State.get, State.get, h.regs _ (by simp only [evF]; omega) (by simp only [evF]; omega)]
  have hring : t.ringOf r = s.ringOf r := by rw [State.ringOf, State.ringOf, h.rings]
  unfold State.irq State.evN
  rw [h.top, hring, hget EV_HEAD.INDEX (by decide) (by decide), hget EV_TAIL.INDEX (by decide) (by decide),
    hget EV_IRQ.COUNT (by decide) (by decide), hget EV_CFG.LOG2N (by decide) (by decide)]

theorem State.ShowsAs.pinsShow {s t : State} (h : s.ShowsAs t) (hs : s.PinsShow) : t.PinsShow := by
  obtain ⟨hN, hF, hR⟩ := hs
  refine ⟨?_, ?_, ?_⟩
  · rw [h.irqN, hN, h.irq 0 (by decide)]
  · rw [h.irqF, hF, h.irq 1 (by decide)]
  · rw [h.ready, hR, State.pshReady, State.pshReady, State.shadowBeats, State.shadowBeats, h.waiting, h.shadow]

/-- A register outside the event rings' is not shown. -/
theorem State.showsAs_setReg {a : Nat} (h : a < 0x2000 ∨ 0x4000 ≤ a) (w : Word32) : s.ShowsAs (s.setReg a w) where
  irqN := rfl
  irqF := rfl
  ready := rfl
  waiting := rfl
  shadow := rfl
  top := rfl
  rings := rfl
  regs b hb hb' := State.reg_setReg_ne s (by omega) w

theorem State.showsAs_put {f : Fld} (h : f.adr < 0x2000 ∨ 0x4000 ≤ f.adr) (v : Nat) : s.ShowsAs (s.put f v) := s.showsAs_setReg h _

theorem State.showsAs_modChan (n : Nat) (f : Chan → Chan) : s.ShowsAs (s.modChan n f) :=
  ⟨rfl, rfl, rfl, rfl, rfl, rfl, rfl, fun _ _ _ => rfl⟩

/-- The setup port's answer is not shown. -/
theorem State.showsAs_respond (w : Word32) (e : Bool) : s.ShowsAs (s.respond w e) :=
  ⟨rfl, rfl, rfl, rfl, rfl, rfl, rfl, fun _ _ _ => rfl⟩

theorem State.showsAs_tick : s.ShowsAs s.tick := by
  unfold State.tick
  split
  · exact ⟨rfl, rfl, rfl, rfl, rfl, rfl, rfl, fun _ _ _ => rfl⟩
  · exact State.ShowsAs.refl s

theorem State.showsAs_each {f : State → Nat → State} {l : List Nat} (hf : ∀ (u : State) k, k ∈ l → u.ShowsAs (f u k)) : s.ShowsAs (s.each l f) :=
  State.each_keeps (P := s.ShowsAs) (fun u k hk hu => hu.trans (hf u k hk)) (State.ShowsAs.refl s)

theorem State.showsAs_enterSafe (n : Nat) : s.ShowsAs (s.enterSafe n) :=
  (s.showsAs_modChan n _).trans (State.showsAs_put _ (.inr (by simp only [CH_MODE_STAT.SAFE, CH_MODE_STAT.adr]; omega)) _)

theorem State.showsAs_allSafe : s.ShowsAs s.allSafe := s.showsAs_each fun u n _ => u.showsAs_enterSafe n

/-- A rising request of another domain leaves PD_TOP as it is. -/
theorem State.showsAs_setReq {d : Nat} (hd : d ≠ pdTop) : s.ShowsAs (s.setReq d true) where
  irqN := rfl
  irqF := rfl
  ready := rfl
  waiting := rfl
  shadow := rfl
  top := by
    simp only [State.usable, State.powered, State.setReq, if_true, getLsbD_putBit s.pins.pwrReq d true (show pdTop < 28 by decide), hd.symm,
      if_false]
  rings := rfl
  regs _ _ _ := rfl

theorem State.showsAs_quadFell (q : Nat) : s.ShowsAs (s.quadFell q) := by
  unfold State.quadFell
  split
  · exact s.showsAs_setReg (.inl (by decide)) _
  · exact State.ShowsAs.refl s

/-- The acknowledge of domain d has fallen. -/
def State.ackDown (d : Nat) : State :=
  { s with pins := { s.pins with pwrAck := putBit s.pins.pwrAck d false }, tet := { s.tet with late := putBit s.tet.late d false } }

theorem ackFall_falls {d : Nat} (hreq : s.pins.pwrReq.getLsbD d = false) (hack : s.pins.pwrAck.getLsbD d = true) :
    s.ackFall d = (s.ackDown d).each (List.range 8) State.quadFell := by
  simp [State.ackFall, hreq, hack, State.ackDown]

theorem ackFall_idle {d : Nat} (h : s.pins.pwrReq.getLsbD d = true ∨ s.pins.pwrAck.getLsbD d = false) : s.ackFall d = s := by
  rcases h with h | h <;> simp [State.ackFall, h]

/-- If PD_TOP's acknowledge falls, PD_TOP was off already: its request is low. -/
theorem State.showsAs_ackDown {d : Nat} (hreq : s.pins.pwrReq.getLsbD d = false) : s.ShowsAs (s.ackDown d) where
  irqN := rfl
  irqF := rfl
  ready := rfl
  waiting := rfl
  shadow := rfl
  top := by
    simp only [State.usable, State.powered, State.ackDown, getLsbD_putBit s.pins.pwrAck d false (show pdTop < 28 by decide)]
    by_cases h : pdTop = d
    · rw [← h] at hreq; simp [hreq]
    · simp [h]
  rings := rfl
  regs _ _ _ := rfl

theorem State.showsAs_ackFall (d : Nat) : s.ShowsAs (s.ackFall d) := by
  by_cases h : s.pins.pwrReq.getLsbD d = true ∨ s.pins.pwrAck.getLsbD d = false
  · rw [ackFall_idle s h]; exact State.ShowsAs.refl s
  · obtain ⟨hreq, hack⟩ : s.pins.pwrReq.getLsbD d = false ∧ s.pins.pwrAck.getLsbD d = true := by simpa using h
    rw [ackFall_falls s hreq hack]
    exact (s.showsAs_ackDown hreq).trans (State.showsAs_each _ fun u q _ => u.showsAs_quadFell q)

theorem State.showsAs_cclkFall : s.ShowsAs s.cclkFall := by
  unfold State.cclkFall
  split
  · exact ⟨rfl, rfl, rfl, rfl, rfl, rfl, rfl, fun _ _ _ => rfl⟩
  · exact State.ShowsAs.refl s

/-! ### TEST_MODE with RESET_N high (R90) -/

/-- PWR_REQ[10 + q] rises unless it is high or its acknowledge is (R79, R90). -/
def State.askPad (q : Nat) : State := if s.pins.pwrReq.getLsbD (pdP q) || s.pins.pwrAck.getLsbD (pdP q) then s else s.setReq (pdP q) true

theorem testPower_acts (ht : s.pins.testMode = true) (hr : s.pins.resetN = true) :
    s.testPower = (s.each (List.range 8) State.askPad).allSafe := by
  rw [State.testPower, ht, hr]
  rfl

theorem testPower_idle (h : s.pins.testMode = false ∨ s.pins.resetN = false) : s.testPower = s := by
  rcases h with h | h <;> simp [State.testPower, h]

theorem State.showsAs_askPad (q : Nat) : s.ShowsAs (s.askPad q) := by
  unfold State.askPad
  split
  · exact State.ShowsAs.refl s
  · exact s.showsAs_setReq (by simp only [pdP, pdTop]; omega)

theorem State.showsAs_testPower : s.ShowsAs s.testPower := by
  unfold State.testPower
  split
  · exact (s.showsAs_each fun u q _ => u.showsAs_askPad q).trans (State.showsAs_allSafe _)
  · exact State.ShowsAs.refl s

/-- A request for a quad's pads changes no pin but that request. -/
theorem askPad_pins (q : Nat) : ∃ r, (s.askPad q).pins = { s.pins with pwrReq := r } := by
  unfold State.askPad
  split
  · exact ⟨_, rfl⟩
  · exact ⟨_, rfl⟩

theorem askPad_starting (q : Nat) : (s.askPad q).tet.starting = s.tet.starting := by
  unfold State.askPad
  split <;> rfl

theorem askPad_pwrReq (q : Nat) {i : Nat} (hi : i < 28) : (s.askPad q).pins.pwrReq.getLsbD i
    = (s.pins.pwrReq.getLsbD i || (decide (i = pdP q) && !s.pins.pwrAck.getLsbD (pdP q))) := by
  unfold State.askPad
  split
  · rename_i h
    by_cases hq : i = pdP q
    · subst hq
      revert h
      cases s.pins.pwrReq.getLsbD (pdP q) <;> simp
    · simp [hq]
  · rename_i h
    simp only [State.setReq, getLsbD_putBit _ _ _ hi]
    by_cases hq : i = pdP q <;> simp_all

@[simp] theorem enterSafe_pins (n : Nat) : (s.enterSafe n).pins = s.pins := rfl

@[simp] theorem enterSafe_tet (n : Nat) : (s.enterSafe n).tet = s.tet := rfl

@[simp] theorem allSafe_pins : s.allSafe.pins = s.pins :=
  State.each_keeps (P := fun u => u.pins = s.pins) (fun u n _ hu => (enterSafe_pins u n).trans hu) rfl

@[simp] theorem allSafe_tet : s.allSafe.tet = s.tet :=
  State.each_keeps (P := fun u => u.tet = s.tet) (fun u n _ hu => (enterSafe_tet u n).trans hu) rfl

theorem enterSafe_pads (n m : Nat) : ((s.enterSafe n).chanOf m).pads = if n = m then {} else (s.chanOf m).pads := by
  have hput : (s.enterSafe n).chanOf m = (s.modChan n fun c => { c with pads := {}, lane := [], tgt := none }).chanOf m := rfl
  rw [hput, State.chanOf_modChan]
  split <;> rfl

theorem enterSafe_safe_self (n : Nat) : (s.enterSafe n).on (CH_MODE_STAT.SAFE n) = true := by
  rw [State.on, State.enterSafe, State.get_put_self _ _ _ (by decide : 0 < 32)]
  rfl

theorem enterSafe_keeps_safe (n : Nat) {m : Nat} (hs : s.on (CH_MODE_STAT.SAFE m) = true) :
    (s.enterSafe n).on (CH_MODE_STAT.SAFE m) = true := by
  by_cases h : n = m
  · subst h; exact enterSafe_safe_self s n
  · rw [State.enterSafe, State.on_put_ne _ (by simp only [CH_MODE_STAT.SAFE, CH_MODE_STAT.adr]; omega)]
    exact hs

theorem allSafe_pads {n : Nat} (hn : n < 32) : ((s.allSafe).chanOf n).pads = {} :=
  State.each_reaches (P := fun u => (u.chanOf n).pads = {}) (List.mem_range.2 hn) (fun u => by rw [enterSafe_pads, if_pos rfl])
    (fun u m hu => by rw [enterSafe_pads, hu, ite_self]) s

theorem allSafe_safe {n : Nat} (hn : n < 32) : s.allSafe.on (CH_MODE_STAT.SAFE n) = true :=
  State.each_reaches (P := fun u => u.on (CH_MODE_STAT.SAFE n) = true) (List.mem_range.2 hn) (fun u => enterSafe_safe_self u n)
    (fun u m hu => enterSafe_keeps_safe u m hu) s

/-- The requests of R90 move no pin but themselves. -/
theorem askPads_pins : ∃ r, (s.each (List.range 8) State.askPad).pins = { s.pins with pwrReq := r } :=
  State.each_keeps (P := fun u => ∃ r, u.pins = { s.pins with pwrReq := r })
    (fun u q _ ⟨r, hu⟩ => by obtain ⟨r', h⟩ := askPad_pins u q; exact ⟨r', by rw [h, hu]⟩) ⟨_, rfl⟩

theorem askPads_asked {q : Nat} (hq : q < 8) (hack : s.pins.pwrAck.getLsbD (pdP q) = false) :
    (s.each (List.range 8) State.askPad).pins.pwrReq.getLsbD (pdP q) = true := by
  have hd : pdP q < 28 := by simp only [pdP]; omega
  have hasked := State.each_reaches (P := fun u => (u.pins.pwrReq.getLsbD (pdP q) || u.pins.pwrAck.getLsbD (pdP q)) = true)
    (List.mem_range.2 hq)
    (fun u => by
      obtain ⟨r, hp⟩ := askPad_pins u q
      rw [askPad_pwrReq u q hd, hp]
      cases u.pins.pwrAck.getLsbD (pdP q) <;> simp)
    (fun u j hu => by
      obtain ⟨r, hp⟩ := askPad_pins u j
      rw [askPad_pwrReq u j hd, hp]
      rcases Bool.or_eq_true_iff.1 hu with h | h <;> simp [h]) s
  obtain ⟨r, hp⟩ := askPads_pins s
  simpa [hp, hack] using hasked

theorem askPads_others {i : Nat} (hi : ∀ q, q < 8 → i ≠ pdP q) :
    (s.each (List.range 8) State.askPad).pins.pwrReq.getLsbD i = s.pins.pwrReq.getLsbD i := by
  by_cases h28 : i < 28
  · refine State.each_keeps (P := fun u => u.pins.pwrReq.getLsbD i = s.pins.pwrReq.getLsbD i) (fun u q hq hu => ?_) rfl
    rw [askPad_pwrReq u q h28, hu]
    simp [hi q (List.mem_range.1 hq)]
  · rw [BitVec.getLsbD_of_ge _ _ (by omega), BitVec.getLsbD_of_ge _ _ (by omega)]

/-- The power requests and the safe pads of R90. -/
theorem testPower_requests (ht : s.pins.testMode = true) (hr : s.pins.resetN = true) : TestRequests s s.testPower := by
  rw [testPower_acts s ht hr]
  refine ⟨fun q hq hack => ?_, fun i hi => ?_, fun n hn => ⟨allSafe_pads _ hn, allSafe_safe _ hn⟩⟩
  · rw [allSafe_pins]; exact askPads_asked s hq hack
  · rw [allSafe_pins]; exact askPads_others s hi

theorem testPower_pins : ∃ r, s.testPower.pins = { s.pins with pwrReq := r } := by
  unfold State.testPower
  split
  · obtain ⟨r, h⟩ := askPads_pins s
    exact ⟨r, (allSafe_pins _).trans h⟩
  · exact ⟨_, rfl⟩

theorem testPower_starting : s.testPower.tet.starting = s.tet.starting := by
  unfold State.testPower
  split
  · rw [allSafe_tet]
    exact State.each_keeps (P := fun u => u.tet.starting = s.tet.starting) (fun u q _ hu => (askPad_starting u q).trans hu) rfl
  · rfl

/-! ### The edges of RESET_N and TEST_MODE -/

/-- With PD_TOP off no ring asserts its interrupt line (R423). -/
theorem irq_topOff (h : s.usable pdTop = false) (r : Nat) : s.irq r = false := by simp [State.irq, h]

/-- What RESET_N low leaves shows its pins: PD_TOP is off, no write is held and the shadow is empty. -/
theorem resetAssert_shows : s.resetAssert.PinsShow := by
  have hirq := irq_topOff s.resetAssert (by simp [State.usable, State.powered, State.resetAssert])
  exact ⟨by rw [hirq]; rfl, (hirq 1).symm, rfl⟩

theorem resetAssert_reg (a : Nat) : s.resetAssert.reg a = regReset a := rfl

theorem resetAssert_pads (n : Nat) : padsSafe (s.resetAssert.chanOf n).pads := rfl

/-- RESET_N and FAULT_N are high. -/
def State.released : State := { s with pins := { s.pins with resetN := true, faultN := true } }

/-- RESET_N and FAULT_N are high, and start-up runs. -/
def State.started : State := { s with pins := { s.pins with resetN := true, faultN := true }, tet := { s.tet with starting := true } }

theorem State.showsAs_released : s.ShowsAs s.released := ⟨rfl, rfl, rfl, rfl, rfl, rfl, rfl, fun _ _ _ => rfl⟩

theorem State.showsAs_started : s.ShowsAs s.started := ⟨rfl, rfl, rfl, rfl, rfl, rfl, rfl, fun _ _ _ => rfl⟩

theorem resetDeassert_high (hr : s.pins.resetN = true) : s.resetDeassert = s := by simp [State.resetDeassert, hr]

theorem resetDeassert_start (hr : s.pins.resetN = false) (ht : s.pins.testMode = false) :
    s.resetDeassert = s.started.put TET_STARTUP.STEP 1 := by
  simp [State.resetDeassert, hr, ht, State.started]

theorem resetDeassert_test (hr : s.pins.resetN = false) (ht : s.pins.testMode = true) : s.resetDeassert = s.released.testPower := by
  simp [State.resetDeassert, hr, ht, State.released]

theorem State.showsAs_resetDeassert : s.ShowsAs s.resetDeassert := by
  cases hr : s.pins.resetN
  · cases ht : s.pins.testMode
    · rw [resetDeassert_start s hr ht]
      exact s.showsAs_started.trans (State.showsAs_put _ (f := TET_STARTUP.STEP) (.inl (by decide)) 1)
    · rw [resetDeassert_test s hr ht]
      exact s.showsAs_released.trans (State.showsAs_testPower s.released)
  · rw [resetDeassert_high s hr]; exact State.ShowsAs.refl s

/-- TEST_MODE is high. -/
def State.tested : State := { s with pins := { s.pins with testMode := true } }

theorem State.showsAs_tested : s.ShowsAs s.tested := ⟨rfl, rfl, rfl, rfl, rfl, rfl, rfl, fun _ _ _ => rfl⟩

theorem exec_testModeHigh : exec .testModeHigh s = .next s.tested.testPower := rfl

/-! ### Acknowledges -/

theorem ackRise_rises {d : Nat} (hreq : s.pins.pwrReq.getLsbD d = true) (hack : s.pins.pwrAck.getLsbD d = false) : s.ackRise d =
    { s with pins := { s.pins with pwrAck := putBit s.pins.pwrAck d true }, tet := { s.tet with late := putBit s.tet.late d false } } := by
  simp [State.ackRise, hreq, hack]

theorem pwrAckFall_shows (d : Fin 28) {t : State} (hs : s.PinsShow) (h : exec (.pwrAckFall d) s = .next t) : t.PinsShow := by
  rw [exec_pwrAckFall] at h
  obtain rfl := Host.Outcome.next.inj h
  have hfell := s.showsAs_ackFall d.val
  split
  · exact (hfell.trans (State.showsAs_testPower _)).pinsShow hs
  · split
    · exact settle_shows _
    · exact hfell.pinsShow hs

theorem cclkAckFall_shows {t : State} (hs : s.PinsShow) (h : exec .cclkAckFall s = .next t) : t.PinsShow := by
  rw [exec_cclkAckFall] at h
  split at h
  · nomatch h
  · obtain rfl := Host.Outcome.next.inj h
    split
    · exact settle_shows _
    · exact s.showsAs_cclkFall.pinsShow hs

/-! ### Commands and pins -/

theorem live_shows {f : State → State} {t : State} (hs : s.PinsShow) (h : live s f = .next t) : t.PinsShow := by
  obtain ⟨-, ⟨-, rfl⟩ | ⟨-, rfl⟩⟩ := live_next s h
  · exact settle_shows _
  · exact hs

theorem onPort_shows {f : State → State} {t : State} (hs : s.PinsShow) (h : onPort s f = .next t) : t.PinsShow := by
  obtain ⟨-, ⟨-, rfl⟩ | ⟨-, rfl⟩⟩ := onPort_next s h
  · exact settle_shows _
  · exact (s.showsAs_respond 0 true).pinsShow hs

/-- Every command keeps the pins at what is asked. -/
theorem exec_shows {c : Instr} {t : State} (hs : s.PinsShow) (h : exec c s = .next t) : t.PinsShow := by
  rcases command_cases c with hc | rfl | rfl | rfl | ⟨d, rfl⟩ | ⟨d, rfl⟩ | rfl
  · rcases exec_frame c hc with ⟨f, hf⟩ | ⟨f, hf⟩
    · rw [hf] at h; exact live_shows s hs h
    · rw [hf] at h; exact onPort_shows s hs h
  · obtain rfl := Host.Outcome.next.inj h; exact resetAssert_shows s
  · obtain rfl := Host.Outcome.next.inj h; exact s.showsAs_resetDeassert.pinsShow hs
  · obtain rfl := Host.Outcome.next.inj h; exact (s.showsAs_tested.trans (State.showsAs_testPower _)).pinsShow hs
  · rw [exec_pwrAckRise] at h
    split at h
    · obtain rfl := Host.Outcome.next.inj h; exact setIrqs_shows _
    · exact live_shows s hs h
  · exact pwrAckFall_shows s d hs h
  · exact cclkAckFall_shows s hs h

/-- While TEST_MODE is low and RESET_N high every functional command ends in `State.settle`. -/
theorem exec_settles {c : Instr} (hc : functional c) (hs : s.Works) : ∃ u : State, exec c s = .next u.settle := by
  obtain ⟨hassert, hdeassert, htest⟩ := hc
  rcases command_cases c with hc | rfl | rfl | rfl | ⟨d, rfl⟩ | ⟨d, rfl⟩ | rfl
  · rcases exec_frame c hc with ⟨f, hf⟩ | ⟨f, hf⟩
    · exact ⟨f s, by rw [hf, live_works s f hs]⟩
    · exact ⟨f s, by rw [hf, onPort_works s f hs]⟩
  · exact absurd rfl hassert
  · exact absurd rfl hdeassert
  · exact absurd rfl htest
  · exact ⟨s.ackRise d.val, by rw [exec_pwrAckRise, hs.1, if_neg (by decide), live_works s _ hs]⟩
  · exact ⟨(s.ackFall d.val).powerMore, by rw [exec_pwrAckFall, hs.1, hs.2, if_neg (by decide), if_pos rfl]⟩
  · exact ⟨s.cclkFall.powerMore, by rw [exec_cclkAckFall, hs.1, hs.2, if_neg (by decide), if_pos rfl]⟩

end Sys2Proof.Machine

open Sys2Proof Sys2Proof.Machine

/-- Settles O4: a settled state shows its pins, and what settles nothing leaves alone all that they show. -/
theorem stepsKeepPinsShown : Obligations.StepsKeepPinsShown := by
  intro s t hs h
  cases hp : s.pending with
  | nil =>
    rw [step_nil s hp] at h
    obtain rfl := Host.Outcome.next.inj h
    exact s.showsAs_tick.pinsShow hs
  | cons c l =>
    rw [step_cons s hp] at h
    exact exec_shows { s with pending := l } hs h

/-- Settles O2, by the frame that each command has. -/
theorem testModeAndResetHoldCommands : Obligations.TestModeAndResetHoldCommands := by
  refine ⟨fun c s hc hrise hfall ht => ?_, fun c s hc hfall hcclk ht hr => ?_, fun addr w s ht hr => ⟨?_, ?_⟩⟩
  · by_cases hlast : c = .cclkAckFall
    · subst hlast; rw [exec_cclkAckFall, if_pos ht]
    · rcases exec_frame c ⟨hc, hrise, hfall, hlast⟩ with ⟨f, hf⟩ | ⟨f, hf⟩
      · rw [hf, live_testMode s f ht]
      · rw [hf, onPort_testMode s f ht]
  · by_cases hrise : ∃ d, c = .pwrAckRise d
    · obtain ⟨d, rfl⟩ := hrise
      rw [exec_pwrAckRise, ht, if_neg (by decide), live_resetLow s _ ht hr]
      exact .inl rfl
    · rcases exec_frame c ⟨hc, not_exists.1 hrise, hfall, hcclk⟩ with ⟨f, hf⟩ | ⟨f, hf⟩
      · exact .inl (by rw [hf, live_resetLow s f ht hr])
      · exact .inr (by rw [hf, onPort_resetLow s f ht hr])
  · rw [exec_registerWrite, onPort_resetLow s _ ht hr]
  · rw [exec_tetTimeLoRead, onPort_resetLow s _ ht hr]

/-- Settles O7: a functional command ends in a settled state; each edge of the pins is one update. -/
theorem everyCommandCompletes : Obligations.EveryCommandCompletes := by
  refine ⟨fun c s hc hs => ?_, fun s => ⟨?_, ⟨s.resetDeassert, exec_resetNDeassert s, ?_, fun hr => ?_, fun hr ht => ?_, fun hr ht => ?_⟩, ?_⟩⟩
  · obtain ⟨u, hu⟩ := exec_settles s hc hs
    exact ⟨_, hu, settle_shows u⟩
  · exact ⟨s.resetAssert, exec_resetNAssert s, rfl, resetAssert_reg s, resetAssert_pads s⟩
  · cases hr : s.pins.resetN
    · cases ht : s.pins.testMode
      · rw [resetDeassert_start s hr ht]; rfl
      · obtain ⟨r, hp⟩ := testPower_pins s.released
        rw [resetDeassert_test s hr ht, hp]; rfl
    · rw [resetDeassert_high s hr, hr]
  · cases ht : s.pins.testMode
    · rw [resetDeassert_start s hr ht]; rfl
    · obtain ⟨r, hp⟩ := testPower_pins s.released
      rw [resetDeassert_test s hr ht, hp]; rfl
  · rw [resetDeassert_start s hr ht]
    exact ⟨rfl, State.get_put_self _ _ _ (by decide)⟩
  · rw [resetDeassert_test s hr ht]
    exact testPower_requests s.released ht rfl
  · obtain ⟨r, hp⟩ := testPower_pins s.tested
    exact ⟨s.tested.testPower, exec_testModeHigh s, by rw [hp]; rfl, by rw [hp]; rfl⟩

/-- Settles O6, edge by edge. -/
theorem resetEdges : Obligations.ResetEdges := by
  refine ⟨fun s => ⟨s.resetAssert, exec_resetNAssert s, rfl, resetAssert_reg s, resetAssert_pads s, rfl, rfl⟩,
    fun s => ⟨fun hr ht => ?_, fun hr => ?_, fun hr => ?_, ?_, fun hr ht => ?_, fun q hr ht hreq hack => ?_⟩⟩
  · rw [exec_resetNDeassert, resetDeassert_start s hr ht]; rfl
  · rw [exec_resetNDeassert, resetDeassert_high s hr]
  · rw [exec_testModeHigh, testPower_idle s.tested (.inr hr)]; rfl
  · obtain ⟨r, hp⟩ := testPower_pins s.tested
    exact ⟨s.tested.testPower, exec_testModeHigh s, by rw [hp]; rfl, fun hr => testPower_requests s.tested rfl hr⟩
  · obtain ⟨r, hp⟩ := testPower_pins s.released
    refine ⟨s.released.testPower, by rw [exec_resetNDeassert, resetDeassert_test s hr ht], by rw [hp]; rfl, by rw [hp]; rfl, ?_, ?_⟩
    · exact testPower_starting s.released
    · exact testPower_requests s.released ht rfl
  · refine ⟨_, by rw [exec_pwrAckRise, if_pos ht], ?_⟩
    simp only
    rw [ackRise_rises s hreq hack]
    simp only [State.chainOpen, State.setIrqs, ht, hr, hreq, getLsbD_putBit s.pins.pwrAck (pdP q.val) true
      (show pdP q.val < 28 by simp only [pdP]; omega), if_true, Bool.and_self]

/-- Settles O8: at reset every store is empty, and every level is the reset one. -/
theorem resetState : Obligations.ResetState := by
  refine ⟨resetAssert_shows State.reset, resetAssert_pads State.reset, rfl, rfl, rfl, rfl, rfl, resetAssert_reg State.reset, rfl, rfl, rfl, ?_⟩
  decide
end

section
/-! Runs cut into requests (R62, R391). -/

namespace Sys2Proof.Machine

/-- The bytes from address a to the end of its 4 KiB page. -/
def pageRoom (a : Nat) : Nat := 4096 - a % 4096

/-- A run that stays in its page is one request. -/
theorem cutRun_fits (k : Nat) {a n : Nat} (h : n ≤ pageRoom a) : cutRun k (a, n) = [(a, n)] := by
  cases k with
  | zero => rfl
  | succ k => exact if_pos h

/-- A longer one fills its page first. -/
theorem cutRun_cut (k : Nat) {a n : Nat} (h : pageRoom a < n) :
    cutRun (k + 1) (a, n) = (a, pageRoom a) :: cutRun k (a + pageRoom a, n - pageRoom a) := if_neg (Nat.not_le.2 h)

/-- A cut run begins at the next page. -/
theorem pageRoom_add (a : Nat) : pageRoom (a + pageRoom a) = 4096 := by unfold pageRoom; omega

theorem cutRun_head (k a n : Nat) : ∃ m l, cutRun k (a, n) = (a, m) :: l := by
  by_cases h : n ≤ pageRoom a
  · exact ⟨n, [], cutRun_fits k h⟩
  · cases k with
    | zero => exact ⟨n, [], rfl⟩
    | succ k => exact ⟨_, _, cutRun_cut k (Nat.not_le.1 h)⟩

theorem cutRun_sum (k a n : Nat) : ((cutRun k (a, n)).map (·.2)).sum = n := by
  induction k generalizing a n with
  | zero => simp [cutRun]
  | succ k ih =>
    by_cases h : n ≤ pageRoom a
    · simp [cutRun_fits _ h]
    · rw [cutRun_cut k (Nat.not_le.1 h), List.map_cons, List.sum_cons, ih]
      exact Nat.add_sub_of_le (Nat.le_of_not_le h)

theorem cutRun_contiguous (k a n : Nat) {i : Nat} (hi : i + 1 < (cutRun k (a, n)).length) :
    ((cutRun k (a, n)).getD (i + 1) (0, 0)).1 = ((cutRun k (a, n)).getD i (0, 0)).1 + ((cutRun k (a, n)).getD i (0, 0)).2 := by
  induction k generalizing a n i with
  | zero => simp [cutRun] at hi
  | succ k ih =>
    by_cases h : n ≤ pageRoom a
    · simp [cutRun_fits _ h] at hi
    · rw [cutRun_cut k (Nat.not_le.1 h)] at hi ⊢
      cases i with
      | zero =>
        obtain ⟨m, l, hl⟩ := cutRun_head k (a + pageRoom a) (n - pageRoom a)
        simp [hl]
      | succ i => exact ih _ _ (Nat.lt_of_succ_lt_succ hi)

/-- With fuel for every page that the run touches no request is empty or crosses a page. -/
theorem cutRun_inPage {k a n : Nat} (hn : 0 < n) (hk : n ≤ pageRoom a + 4096 * k) :
    ∀ p ∈ cutRun k (a, n), 0 < p.2 ∧ p.1 / 4096 = (p.1 + p.2 - 1) / 4096 := by
  induction k generalizing a n with
  | zero =>
    simp only [cutRun, List.forall_mem_singleton]
    unfold pageRoom at hk
    omega
  | succ k ih =>
    by_cases h : n ≤ pageRoom a
    · rw [cutRun_fits _ h, List.forall_mem_singleton]
      unfold pageRoom at h
      omega
    · rw [cutRun_cut k (Nat.not_le.1 h), List.forall_mem_cons]
      refine ⟨?_, ih (by omega) (by rw [pageRoom_add]; omega)⟩
      unfold pageRoom
      omega

end Sys2Proof.Machine

open Sys2Proof Sys2Proof.Machine

/-- Settles O57, by induction on the pages that the run touches. -/
theorem requestsKeepToPages : Obligations.RequestsKeepToPages := by
  intro a n hn
  obtain ⟨m, l, hl⟩ := cutRun_head (n / 4096 + 2) a n
  exact ⟨cutRun_inPage hn (by omega), fun i => cutRun_contiguous _ a n, by simp only [hl, List.headD_cons], cutRun_sum _ a n⟩
end

section
/-! Start-up and the fuse port (R81 to R83, R475 to R477), and the handshakes of power and CCLK (R49, R79, R80, R462). -/

namespace Sys2Proof.Machine

variable (s : State)

theorem exec_startupStep (r : StartupReport) : exec (.startupStep r) s = live s (·.startStep r) := rfl

theorem exec_fuseAck (data : Word32) : exec (.fuseAck data) s = live s (·.fuseWord data) := rfl

theorem exec_fuseTimeout :
    exec .fuseTimeout s = live s fun s => if s.pins.fuseReq && s.tet.starting then s.trimBad s.pins.fuseAddr else s := rfl

theorem exec_cclkAckRise : exec .cclkAckRise s = live s State.cclkRise := rfl

theorem exec_pwrAckLate (i : Fin 29) (excess : Nat) : exec (.pwrAckLate i excess) s = live s (·.ackLate i.val excess) := rfl

theorem exec_storeFillDone (d : Fin 28) : exec (.storeFillDone d) s = live s (·.filled d.val) := rfl

/-! ### The requests of step 4 (R79, R460) -/

/-- The domains that wait for no other quad domain: all but the pads'. -/
theorem asksMask_getLsbD : ∀ d : Fin 28, (0xFFC03FF#28).getLsbD d.val = (decide (d.val < 10) || decide (18 ≤ d.val)) := by decide

/-- Each PD_Pq stands eight above its PD_Qq (Table 2.9). -/
theorem padsMask_getLsbD : ∀ d : Fin 28, 10 ≤ d.val → d.val < 18 → (0x3FC#28).getLsbD (d.val - 8) = true := by decide

theorem asks_getLsbD (p : Pins) {d : Nat} (hd : d < 28) :
    p.asks.getLsbD d = (p.pwrReq.getLsbD d
      || (!p.pwrAck.getLsbD d && (p.pwrReq.getLsbD pdTop || !p.pwrAck.getLsbD pdTop)
          && (decide (d < 10) || decide (18 ≤ d) || p.pwrReq.getLsbD (d - 8) || !p.pwrAck.getLsbD (d - 8)))) := by
  have hall : ∀ {i}, i < 28 → (p.pwrReq ||| ~~~p.pwrAck).getLsbD i = (p.pwrReq.getLsbD i || !p.pwrAck.getLsbD i) := fun h => by
    simp only [BitVec.getLsbD_or, BitVec.getLsbD_not, h, decide_true, Bool.true_and]
  have hmask := asksMask_getLsbD ⟨d, hd⟩
  simp only [Pins.asks, hall (show pdTop < 28 by decide)]
  by_cases htop : (p.pwrReq.getLsbD pdTop || !p.pwrAck.getLsbD pdTop) = true
  · simp only [htop, if_true, BitVec.getLsbD_or, BitVec.getLsbD_and, BitVec.getLsbD_not, BitVec.getLsbD_shiftLeft, hd, hmask, decide_true,
      Bool.true_and]
    by_cases hpad : d < 10 ∨ 18 ≤ d
    · rcases hpad with h | h <;> simp only [h, decide_true, Bool.true_or, Bool.or_true, Bool.and_true]
    · obtain ⟨hlo, hhi⟩ := not_or.1 hpad
      have hpads := padsMask_getLsbD ⟨d, hd⟩ (Nat.not_lt.1 hlo) (Nat.not_le.1 hhi)
      simp only [hpads, hlo, hhi, show ¬ d < 8 by omega, show d - 8 < 28 by omega, decide_true, decide_false, Bool.or_false, Bool.false_or,
        Bool.not_false, Bool.and_true, Bool.true_and]
  · simp only [htop, Bool.and_false, Bool.false_and, Bool.or_false]; rfl

/-! ### STARTUP_STEP (Table 14.7) -/

section
variable {s} (r : StartupReport) (hs : s.tet.starting = true)
include hs

theorem startStep_1 (hk : s.get TET_STARTUP.STEP = 1) : s.startStep r = s.put TET_STARTUP.STEP 2 := by
  simp [State.startStep, hs, hk]

theorem startStep_2 (hk : s.get TET_STARTUP.STEP = 2) :
    s.startStep r = ({ s with pins := { s.pins with fuseReq := true, fuseAddr := 0 } } : State).put TET_STARTUP.STEP 3 := by
  simp [State.startStep, hs, hk]

theorem startStep_3_loaded (hk : s.get TET_STARTUP.STEP = 3) (ht : s.tet.trim.length = 32) :
    s.startStep r = s.powerAll.put TET_STARTUP.STEP 4 := by
  simp [State.startStep, hs, hk, ht]

theorem startStep_3_waits (hk : s.get TET_STARTUP.STEP = 3) (ht : s.tet.trim.length ≠ 32) : s.startStep r = s := by
  simp [State.startStep, hs, hk, ht]

theorem startStep_4_powered (hk : s.get TET_STARTUP.STEP = 4) (hp : s.pins.pwrReq &&& s.pins.pwrAck = BitVec.allOnes 28)
    (hreq : s.pins.cclkReq = true) (hack : s.pins.cclkAck = true) : s.startStep r = s.put TET_STARTUP.STEP 5 := by
  simp only [State.startStep, hs, hk, hp, hreq, hack]; rfl

theorem startStep_5 (hk : s.get TET_STARTUP.STEP = 5) : s.startStep r = (s.startPhy r).put TET_STARTUP.STEP 6 := by
  simp [State.startStep, hs, hk]

theorem startStep_6 (hk : s.get TET_STARTUP.STEP = 6) :
    s.startStep r = ({ s with tet := { s.tet with usable := BitVec.allOnes 28 } } : State).put TET_STARTUP.STEP 7 := by
  simp [State.startStep, hs, hk]

theorem startStep_7 (hk : s.get TET_STARTUP.STEP = 7) : s.startStep r = (s.checkBanks r).put TET_STARTUP.STEP 8 := by
  simp [State.startStep, hs, hk]

theorem startStep_8 (hk : s.get TET_STARTUP.STEP = 8) : s.startStep r = (s.checkSlices r).put TET_STARTUP.STEP 9 := by
  simp [State.startStep, hs, hk]

theorem startStep_9 (hk : s.get TET_STARTUP.STEP = 9) : s.startStep r = ((s.checkChanters r).put TET_STARTUP.STEP 10).startEnd := by
  simp [State.startStep, hs, hk]

end

/-! ### The fuse port -/

/-- The word has come. -/
def State.trimTaken (data : Word32) : State := { s with tet := { s.tet with trim := s.tet.trim ++ [data] } }

/-- The last word has come, and no other is asked for. -/
def State.trimLoaded (data : Word32) : State :=
  { s.trimTaken data with pins := { (s.trimTaken data).pins with fuseReq := false } }

section
variable {s} {data : Word32} (hreq : s.pins.fuseReq = true) (hs : s.tet.starting = true)
include hreq hs

theorem fuseWord_next (ha : s.pins.fuseAddr < 31) :
    s.fuseWord data = { s.trimTaken data with
      pins := { (s.trimTaken data).pins with fuseAddr := (s.trimTaken data).pins.fuseAddr + 1 } } := by
  simp [State.fuseWord, hreq, hs, ha, State.trimTaken]

theorem fuseWord_last (ha : 31 ≤ s.pins.fuseAddr) :
    s.fuseWord data = (s.trimLoaded data).trimFault.elim (s.trimLoaded data).trimApply (s.trimLoaded data).trimBad := by
  have hgo : (!s.pins.fuseReq || !s.tet.starting) = false := by rw [hreq, hs]; rfl
  have hlast : ¬ (s.trimTaken data).pins.fuseAddr < 31 := Nat.not_lt.2 ha
  unfold State.fuseWord
  rw [hgo]
  refine (if_neg hlast).trans ?_
  change (match (s.trimLoaded data).trimFault with | some x => (s.trimLoaded data).trimBad x | none => (s.trimLoaded data).trimApply) = _
  cases (s.trimLoaded data).trimFault <;> rfl

end

/-! ### Acknowledges -/

theorem cclkRise_rises (hreq : s.pins.cclkReq = true) (hack : s.pins.cclkAck = false) : s.cclkRise =
    { s with pins := { s.pins with cclkAck := true }, tet := { s.tet with late := putBit s.tet.late 28 false } } := by
  simp [State.cclkRise, hreq, hack]

theorem cclkFall_falls (hreq : s.pins.cclkReq = false) (hack : s.pins.cclkAck = true) :
    s.cclkFall = { s with pins := { s.pins with cclkAck := false } } := by
  simp [State.cclkFall, hreq, hack]

theorem filled_powered {d : Nat} (hp : s.powered d = true) (hs : s.tet.starting = false) : s.filled d =
    { s with tet := { s.tet with usable := putBit s.tet.usable d true,
                                 bank32 := s.tet.bank32 || (d == pdTop && s.tet.usable.getLsbD pdTop) } } := by
  simp [State.filled, hp, hs]

/-- The handshake i waits for its acknowledge; 28 is CCLK's. -/
abbrev State.ackAwaited (i : Nat) : Bool :=
  if i = 28 then s.pins.cclkReq && !s.pins.cclkAck else s.pins.pwrReq.getLsbD i && !s.pins.pwrAck.getLsbD i

/-- A late acknowledge is marked, counted and captured. -/
def State.lateCaptured (i : Nat) : State :=
  (({ s with tet := { s.tet with late := putBit s.tet.late i true } } : State).bump TET_ACK_CNT.LATE 1).capture (.top 5) 3 1 i false

/-- A handshake that waits is told late once, at once where the top takes records. -/
theorem ackLate_awaited {i : Nat} (excess : Nat) (hw : s.ackAwaited i = true) (hl : s.tet.late.getLsbD i = false) :
    s.ackLate i excess =
      (let info := i % 28 + (i / 28) * 2 ^ 5 + min excess 65535 * 2 ^ 16
       if (s.lateCaptured i).topOn then (s.lateCaptured i).raise 281 1 info
       else { s.lateCaptured i with tet := { (s.lateCaptured i).tet with lateTold := (s.lateCaptured i).tet.lateTold ++ [info] } }) := by
  simp only [State.ackLate, hw, hl]
  rfl

end Sys2Proof.Machine

open Sys2Proof Sys2Proof.Machine

/-- Settles O26: each step by its number, each fuse word by its address and the check's verdict. -/
theorem startupAndFuses : Obligations.StartupAndFuses := by
  refine ⟨⟨fun p d hd => asks_getLsbD p hd, fun s r hw hs => ?_⟩, fun s data hw hreq hs => ⟨fun x ctx => rfl, ?_, ?_, ?_, ?_⟩⟩
  · rw [exec_startupStep, live_works s _ hw]
    refine ⟨fun hk => ?_, fun hk => ?_, fun hk ht => ?_, fun hk ht => ?_, fun hk hp hreq hack => ?_, fun hk => ?_, fun hk => ?_, fun hk => ?_,
      fun hk => ?_, fun hk => ?_⟩
    · rw [startStep_1 r hs hk, hk]
    · rw [startStep_2 r hs hk, hk]
    · rw [startStep_3_loaded r hs hk ht, hk]; rfl
    · rw [startStep_3_waits r hs hk ht]
    · rw [startStep_4_powered r hs hk hp hreq hack, hk]
    · rw [startStep_5 r hs hk, hk]
    · rw [startStep_6 r hs hk, hk]
    · rw [startStep_7 r hs hk, hk]
    · rw [startStep_8 r hs hk, hk]
    · rw [startStep_9 r hs hk]
  · intro ha
    rw [exec_fuseAck, live_works s _ hw, fuseWord_next hreq hs ha]; rfl
  · intro ha hf
    have hf : (s.trimLoaded data).trimFault = none := hf
    rw [exec_fuseAck, live_works s _ hw, fuseWord_last hreq hs ha, hf]; rfl
  · intro x ha hf
    have hf : (s.trimLoaded data).trimFault = some x := hf
    rw [exec_fuseAck, live_works s _ hw, fuseWord_last hreq hs ha, hf]; rfl
  · rw [exec_fuseTimeout, live_works s _ hw, hreq, hs, Bool.and_self, if_pos rfl]

/-- Settles O27, handshake by handshake. -/
theorem handshakeCommands : Obligations.HandshakeCommands := by
  intro s ht
  refine ⟨fun d => ⟨fun hr hreq hack => ?_, fun hreq hack => ?_, fun hr hp hs => ?_⟩, fun hr hreq hack => ?_, fun hreq hack => ?_,
    fun i excess hr hw hl => ?_⟩
  · rw [exec_pwrAckRise, ht, if_neg (by decide), live_works s _ ⟨ht, hr⟩, ackRise_rises s hreq hack]
  · rw [exec_pwrAckFall, ht, if_neg (by decide), ackFall_falls s hreq hack]; rfl
  · rw [exec_storeFillDone, live_works s _ ⟨ht, hr⟩, filled_powered s hp hs]
  · rw [exec_cclkAckRise, live_works s _ ⟨ht, hr⟩, cclkRise_rises s hreq hack]
  · rw [exec_cclkAckFall, ht, if_neg (by decide), cclkFall_falls s hreq hack]; rfl
  · rw [exec_pwrAckLate, live_works s _ ⟨ht, hr⟩, ackLate_awaited s excess hw hl]; rfl
end

section
/-! Writes at the Push port that the queue engine takes in: inline slots, reserved addresses and doorbells (Tables 2.4, 6.6 and 6.7). -/

namespace Sys2Proof.Machine

variable (s : State)

theorem exec_inlinePush (l : List Beat) : exec (.inlinePush l) s = live s (·.pushPort l) := rfl

/-- The queue engine takes writes in itself: nothing is held, reset or in the shadow. -/
structure State.TakesWrites (s : State) : Prop where
  works : s.Works
  ready : s.isReady = true
  running : s.freset.busy = false
  free : s.tet.waiting = none
  awake : s.toShadow = false

theorem inlinePush_taken {s t : State} {l : List Beat} (h : s.TakesWrites) (ht : s.takeWrite l = some t) :
    exec (.inlinePush l) s = .next t.sawWork.settle := by
  rw [exec_inlinePush, live_works s _ h.works, pushPort_offers s l h.ready h.running h.free]
  simp [State.pushOffer, h.awake, ht]

theorem inlinePush_held {s : State} {l : List Beat} (h : s.TakesWrites) (ht : s.takeWrite l = none) :
    exec (.inlinePush l) s = .next (State.settle { s with tet := { s.tet with waiting := some l } }) := by
  rw [exec_inlinePush, live_works s _ h.works, pushPort_offers s l h.ready h.running h.free]
  simp [State.pushOffer, h.awake, ht]

/-! ### Regions (Table 2.4) -/

theorem takeWrite_inline {b : Beat} (l : List Beat) (h : pushRegion b.addr.toNat = .inline) :
    s.takeWrite (b :: l) = s.takeInline b (b :: l) := by
  simp only [State.takeWrite, h]

theorem takeWrite_reserved {b : Beat} (l : List Beat) (h : pushRegion b.addr.toNat = .reserved) :
    s.takeWrite (b :: l) = some (s.pushDiscard (if wholeWrite (b :: l) then 3 else 1) b.addr.toNat none) := by
  simp only [State.takeWrite, h]

theorem takeWrite_doorbell {b : Beat} (l : List Beat) {r : PushRegion} (h : pushRegion b.addr.toNat = r) (hi : r ≠ .inline)
    (hr : r ≠ .reserved) : s.takeWrite (b :: l) = some (s.takeDoorbells r b (b :: l)) := by
  cases r with
  | inline => exact absurd rfl hi
  | reserved => exact absurd rfl hr
  | cqHead | evHead | sqTail => simp only [State.takeWrite, h]

/-! ### Inline writes (R204, R206) -/

section
variable {b : Beat} {l : List Beat}

theorem takeInline_beats (h : wholeWrite l = false ∨ 4 < l.length) :
    s.takeInline b l = some (s.pushDiscard 1 b.addr.toNat (some (b.addr.toNat / 4))) := by
  rcases h with h | h <;> simp [State.takeInline, h]

variable (hw : wholeWrite l = true) (hk : l.length ≤ 4)
include hw hk

theorem takeInline_strobes (h : b.addr.toNat % 4 ≠ 0 ∨ ¬ ∀ x ∈ l, x.strb = BitVec.allOnes 64) :
    s.takeInline b l = some (s.pushDiscard 2 b.addr.toNat (some (b.addr.toNat / 4))) := by
  have hbad : (b.addr.toNat % 4 != 0 || l.any (fun x => x.strb != BitVec.allOnes 64)) = true := by simpa using h
  unfold State.takeInline
  simp only [hw, Nat.not_lt.2 hk, hbad]
  rfl

variable (ha : b.addr.toNat % 4 = 0) (hfull : ∀ x ∈ l, x.strb = BitVec.allOnes 64)
include ha hfull

/-- A whole write of full beats to a slot is judged by its SQ. -/
theorem takeInline_slot :
    s.takeInline b l =
      (let a := b.addr.toNat
       let q := a / 4
       let n := s.sqN q
       if !s.on (SQ_STAT.ENABLED q) || !s.native q then some (s.pushDiscard 5 a (some q))
       else if !(s.sqOf q).slot.isEmpty then none
       else if l.length > n - ixCount n (s.sqHead q) (s.sqTail q) then some (s.pushDiscard 7 a (some q))
       else some ((s.modSq q fun x => { x with slot := l.map (·.data) }).put (SQ_TAIL.INDEX q) (ixAdd n (s.sqTail q) l.length))) := by
  have hgood : (b.addr.toNat % 4 != 0 || l.any (fun x => x.strb != BitVec.allOnes 64)) = false := by simpa using ⟨ha, hfull⟩
  unfold State.takeInline
  simp only [hw, Nat.not_lt.2 hk, hgood]
  rfl

theorem takeInline_queue (h : s.on (SQ_STAT.ENABLED (b.addr.toNat / 4)) = false ∨ s.native (b.addr.toNat / 4) = false) :
    s.takeInline b l = some (s.pushDiscard 5 b.addr.toNat (some (b.addr.toNat / 4))) := by
  rw [takeInline_slot s hw hk ha hfull]
  rcases h with h | h <;> simp [h]

variable (hon : s.on (SQ_STAT.ENABLED (b.addr.toNat / 4)) = true) (hnat : s.native (b.addr.toNat / 4) = true)
include hon hnat

theorem takeInline_fits (hslot : (s.sqOf (b.addr.toNat / 4)).slot = [])
    (hroom : l.length ≤ s.sqN (b.addr.toNat / 4) - ixCount (s.sqN (b.addr.toNat / 4)) (s.sqHead (b.addr.toNat / 4)) (s.sqTail (b.addr.toNat / 4))) :
    s.takeInline b l = some ((s.modSq (b.addr.toNat / 4) fun x => { x with slot := l.map (·.data) }).put (SQ_TAIL.INDEX (b.addr.toNat / 4))
      (ixAdd (s.sqN (b.addr.toNat / 4)) (s.sqTail (b.addr.toNat / 4)) l.length)) := by
  rw [takeInline_slot s hw hk ha hfull]
  simp only [hon, hnat, hslot, Nat.not_lt.2 hroom]
  rfl

theorem takeInline_noRoom (hslot : (s.sqOf (b.addr.toNat / 4)).slot = [])
    (hroom : s.sqN (b.addr.toNat / 4) - ixCount (s.sqN (b.addr.toNat / 4)) (s.sqHead (b.addr.toNat / 4)) (s.sqTail (b.addr.toNat / 4)) < l.length) :
    s.takeInline b l = some (s.pushDiscard 7 b.addr.toNat (some (b.addr.toNat / 4))) := by
  rw [takeInline_slot s hw hk ha hfull]
  simp only [hon, hnat, hslot, gt_iff_lt, hroom]
  rfl

theorem takeInline_filled (hslot : (s.sqOf (b.addr.toNat / 4)).slot ≠ []) : s.takeInline b l = none := by
  rw [takeInline_slot s hw hk ha hfull]
  simp [hon, hnat, hslot]

end

/-! ### Doorbells (Table 6.7) -/

/-- The reason of a value whose count fits when c ≤ room. -/
theorem ixReason_eq (n v c room : Nat) : ixReason n v (decide (c ≤ room))
    = if 2 ^ 17 ≤ v then 1 else if n ≤ v % 65536 then 2 else if room < c then 3 else 0 := by
  by_cases h : c ≤ room
  · simp [ixReason, h, Nat.not_lt.2 h]
  · simp [ixReason, h, Nat.not_le.1 h]

/-- A group past the two ring heads is enabled. -/
def beyondHeads (b : Beat) : Prop := ∃ k, 2 ≤ k ∧ k < 16 ∧ grpStrb b k ≠ 0

theorem any_beyondHeads (b : Beat) : (List.range 16).any (fun k => decide (k ≥ 2) && grpStrb b k != 0) = true ↔ beyondHeads b := by
  simp only [List.any_eq_true, List.mem_range, Bool.and_eq_true, decide_eq_true_eq, bne_iff_ne, beyondHeads]
  exact exists_congr fun k => and_left_comm

theorem beyondHeads_off {r : PushRegion} {b : Beat} (hb : ¬ (r = .evHead ∧ beyondHeads b)) :
    (r == .evHead && (List.range 16).any (fun k => decide (k ≥ 2) && grpStrb b k != 0)) = false :=
  eq_false_of_ne_true fun h => by
    obtain ⟨hr, hany⟩ := Bool.and_eq_true_iff.1 h
    exact hb ⟨eq_of_beq hr, (any_beyondHeads b).1 hany⟩

theorem takeDoorbells_beats (r : PushRegion) (b : Beat) {l : List Beat} (h : wholeWrite l = false ∨ 1 < l.length) :
    s.takeDoorbells r b l = s.pushDiscard 1 b.addr.toNat none := by
  rcases h with h | h <;> simp [State.takeDoorbells, h]

section
variable {r : PushRegion} {b : Beat} (hl : b.last = true)
include hl

theorem takeDoorbells_beyond (hb : beyondHeads b) : s.takeDoorbells .evHead b [b] = s.pushDiscard 3 b.addr.toNat none := by
  have hany := (any_beyondHeads b).2 hb
  simp only [State.takeDoorbells, wholeWrite, hl, hany]
  rfl

variable (hb : ¬ (r = .evHead ∧ beyondHeads b))
include hb

theorem takeDoorbells_partly {k : Nat} {ks : List Nat} (hp : partly b = k :: ks) :
    s.takeDoorbells r b [b]
      = s.pushDiscard 4 b.addr.toNat (if r == .sqTail then some (16 * (b.addr.toNat - 640) + k) else none) := by
  simp only [State.takeDoorbells, wholeWrite, hl, beyondHeads_off hb, hp]
  rfl

end

section
variable {b : Beat} (hl : b.last = true) (hp : partly b = [])
include hl hp

theorem takeDoorbells_native {k : Nat}
    (hn : (rung b).find? (fun k => s.on (SQ_STAT.ENABLED (16 * (b.addr.toNat - 640) + k)) && s.native (16 * (b.addr.toNat - 640) + k)) = some k) :
    s.takeDoorbells .sqTail b [b] = s.pushDiscard 6 b.addr.toNat (some (16 * (b.addr.toNat - 640) + k)) := by
  simp only [State.takeDoorbells, wholeWrite, hl, hp, hn]
  rfl

theorem takeDoorbells_sqTail
    (hn : ∀ k ∈ rung b, s.on (SQ_STAT.ENABLED (16 * (b.addr.toNat - 640) + k)) = true → s.native (16 * (b.addr.toNat - 640) + k) = false) :
    s.takeDoorbells .sqTail b [b]
      = (rung b).foldl (fun x k => x.sqDoorbell b.addr.toNat (16 * (b.addr.toNat - 640) + k) (grpVal b k)) s := by
  have hnone : (rung b).find? (fun k => s.on (SQ_STAT.ENABLED (16 * (b.addr.toNat - 640) + k)) && s.native (16 * (b.addr.toNat - 640) + k))
      = none := by
    simpa using hn
  simp only [State.takeDoorbells, wholeWrite, hl, hp, hnone]
  rfl

theorem takeDoorbells_cqHead : s.takeDoorbells .cqHead b [b]
    = (rung b).foldl (fun x k => x.cqDoorbell b.addr.toNat (16 * (b.addr.toNat - 512) + k) (grpVal b k)) s := by
  simp only [State.takeDoorbells, wholeWrite, hl, hp]
  rfl

theorem takeDoorbells_evHead (hb : ¬ beyondHeads b) : s.takeDoorbells .evHead b [b]
    = (rung b).foldl (fun x k => x.evDoorbell b.addr.toNat k (grpVal b k)) s := by
  have hoff := beyondHeads_off (r := .evHead) fun h => hb h.2
  simp only [State.takeDoorbells, wholeWrite, hl, hp, hoff]
  rfl

end

end Sys2Proof.Machine

open Sys2Proof Sys2Proof.Machine

/-- Settles O36: the region, then the first reason that holds. -/
theorem pushWrites : Obligations.PushWrites := by
  refine ⟨fun s l => ⟨rfl, rfl, rfl, rfl, rfl⟩, fun s b l hs hr hf hw ht => ?_⟩
  have h : s.TakesWrites := ⟨hs, hr, hf, hw, ht⟩
  refine ⟨fun hi hb => ?_, fun hi hw hk hb => ?_, fun hi hw hk ha hfull hb => ?_, fun hi hw hk ha hfull hon hnat =>
    ⟨fun hslot hroom => ?_, fun hslot hroom => ?_, fun hslot => ?_⟩, fun hres => ⟨fun hw => ?_, fun hw => ?_⟩⟩
  · exact inlinePush_taken h ((takeWrite_inline s l hi).trans (takeInline_beats s hb))
  · exact inlinePush_taken h ((takeWrite_inline s l hi).trans (takeInline_strobes s hw hk hb))
  · exact inlinePush_taken h ((takeWrite_inline s l hi).trans (takeInline_queue s hw hk ha hfull hb))
  · exact inlinePush_taken h ((takeWrite_inline s l hi).trans (takeInline_fits s hw hk ha hfull hon hnat hslot hroom))
  · exact inlinePush_taken h ((takeWrite_inline s l hi).trans (takeInline_noRoom s hw hk ha hfull hon hnat hslot hroom))
  · exact inlinePush_held h ((takeWrite_inline s l hi).trans (takeInline_filled s hw hk ha hfull hon hnat hslot))
  · exact inlinePush_taken h (by rw [takeWrite_reserved s l hres, hw]; rfl)
  · exact inlinePush_taken h (by rw [takeWrite_reserved s l hres, hw]; rfl)

/-- Settles O37: one register's doorbell by its reason, one write by its region and its groups. -/
theorem doorbellWrites : Obligations.DoorbellWrites := by
  refine ⟨fun x a q v => ?_, fun x a c v => ?_, fun x a r v => ?_, fun s b l hs hr hf hw ht c hc => ?_⟩
  · simp only [State.sqDoorbell, ixReason_eq, Bool.not_eq_true', State.doorbellBad]
    simp
  · simp only [State.cqDoorbell, ixReason_eq, Bool.not_eq_true', State.doorbellBad]
    rfl
  · simp only [State.evDoorbell, ixReason_eq, State.doorbellBad]
    rfl
  · have h : s.TakesWrites := ⟨hs, hr, hf, hw, ht⟩
    have hsame : exec (c (b :: l)) s = exec (.inlinePush (b :: l)) s := by
      simp only [List.mem_cons, List.not_mem_nil, or_false] at hc
      rcases hc with rfl | rfl | rfl <;> rfl
    have does : ∀ {r x}, pushRegion b.addr.toNat = r → r ≠ .inline → r ≠ .reserved → s.takeDoorbells r b (b :: l) = x →
        exec (c (b :: l)) s = .next (State.settle x.sawWork) := by
      rintro r x hreg hi hres rfl
      exact hsame.trans (inlinePush_taken h (takeWrite_doorbell s l hreg hi hres))
    dsimp only
    refine ⟨fun hreg => ?_, fun hl hnil hp => ?_⟩
    · have hi : pushRegion b.addr.toNat ≠ .inline := by rcases hreg with h | h | h <;> rw [h] <;> decide
      have hres : pushRegion b.addr.toNat ≠ .reserved := by rcases hreg with h | h | h <;> rw [h] <;> decide
      refine ⟨fun hb => ?_, fun hl hnil hb => ?_, fun k ks hl hnil hb hp => ?_⟩
      · refine does rfl hi hres (takeDoorbells_beats s _ b ?_)
        exact hb.imp_right fun hne => Nat.lt_add_of_pos_left (List.length_pos_iff.2 hne)
      · subst hnil
        exact does hb.1 (by decide) (by decide) (takeDoorbells_beyond s hl hb.2)
      · subst hnil
        refine does rfl hi hres ((takeDoorbells_partly s hl hb hp).trans ?_)
        simp only [beq_iff_eq]
    · subst hnil
      refine ⟨fun hreg => ⟨fun k hn => ?_, fun hn => ?_⟩, fun hreg => ?_, fun hreg hb => ?_⟩
      · exact does hreg (by decide) (by decide) (takeDoorbells_native s hl hp hn)
      · exact does hreg (by decide) (by decide) (takeDoorbells_sqTail s hl hp hn)
      · exact does hreg (by decide) (by decide) (takeDoorbells_cqHead s hl hp)
      · exact does hreg (by decide) (by decide) (takeDoorbells_evHead s hl hp fun hh => hb ⟨hreg, hh⟩)
end

section
/-! The Spool ports and the Pool port (R62, R65, R66, R70 to R73, R395, R396, R403 to R406). -/

namespace Sys2Proof.Machine

variable (s : State)

/-! ### The commands -/

theorem exec_spoolRequest (p : Fin 2) (l : List SramRead) : exec (.spoolRequest ⟨p, l⟩) s = liveTop s (·.spoolRequest p.val l) := rfl

theorem exec_poolRequest : exec .poolRequest s = liveTop s State.poolSend := rfl

theorem exec_poolRetry : exec .poolRetry s = liveTop s State.askAgain := rfl

theorem exec_poolEmptyLimit : exec .poolEmptyLimit s = liveTop s State.emptyLimit := rfl

theorem exec_spoolWriteResponse (p : Fin 2) (tid : Fin 256) (err : BitVec 2) :
    exec (.spoolWriteResponse p tid err) s = execSpoolWriteResponse p tid err s := rfl

theorem exec_spoolReadData (p : Fin 2) (tid : Fin 256) (err : BitVec 2) (data : List Byte) :
    exec (.spoolReadData p tid err data) s = execSpoolReadData p tid err data s := rfl

/-! ### SPOOL_REQUEST -/

/-- Request r has left with transaction ID i. -/
def State.issued (r : Spool) (i : Nat) : State := { s with ready := s.ready.erase r, flying := s.flying ++ [{ r with tid := i }] }

section
variable {s} {p i : Nat} {r : Spool} (hh : s.halted = false) (hr : s.ready.find? (fun r => r.port == p) = some r)
  (hi : s.freeTid p = some i)
include hh hr hi

/-- A request whose data met no store error is issued. -/
theorem spoolRequest_noReads : s.spoolRequest p [] = s.spoolIssue p := by
  simp [State.spoolRequest, State.requestReads, hh, hr, hi]

theorem spoolIssue_untagged (hc : r.cont.dataTag = none) : s.spoolIssue p = s.issued r i := by
  unfold State.spoolIssue
  rw [if_neg (by simp [hh])]
  simp only [hr, hi, hc]
  rfl

theorem spoolIssue_tagged {t : Nat} (hc : r.cont.dataTag = some t) :
    s.spoolIssue p = ((s.issued r i).modTag t fun x => { x with
      unissued := x.unissued - 1, writes := if r.write then x.writes + 1 else x.writes,
      reads := if r.write then x.reads else x.reads + 1 }).later (.tagCheck t) := by
  unfold State.spoolIssue
  rw [if_neg (by simp [hh])]
  simp only [hr, hi, hc]
  rfl

end

/-! ### Responses -/

section
variable {s} (hs : s.TopWorks) {p : Fin 2} {tid : Fin 256} (err : BitVec 2)
include hs

theorem exec_spoolWriteResponse_awaited {r : Spool} (hf : s.flight p.val tid.val true = some r) :
    exec (.spoolWriteResponse p tid err) s
      = .next (State.settle (({ s with flying := s.flying.erase r } : State).writeDone r err.toNat)) := by
  rw [exec_spoolWriteResponse, execSpoolWriteResponse, liveTop_works s _ hs, hf]

theorem exec_spoolWriteResponse_stray (hf : s.flight p.val tid.val true = none) :
    exec (.spoolWriteResponse p tid err) s = .next s.settle := by
  rw [exec_spoolWriteResponse, execSpoolWriteResponse, liveTop_works s _ hs, hf]

theorem exec_spoolReadData_awaited {r : Spool} {data : List Byte} (hf : s.flight p.val tid.val false = some r)
    (hd : err ≠ 0 ∨ data.length = 64 * r.beats) :
    exec (.spoolReadData p tid err data) s
      = .next (State.settle (({ s with flying := s.flying.erase r } : State).readDone' r err.toNat data)) := by
  rw [exec_spoolReadData, execSpoolReadData, liveTop_works s _ hs, hf]
  have hlen : (decide (err = 0) && data.length != 64 * r.beats) = false := by
    rcases hd with hd | hd
    · rw [decide_eq_false hd, Bool.false_and]
    · rw [hd, bne_self_eq_false, Bool.and_false]
  simp only [hlen]
  rfl

theorem exec_spoolReadData_otherLength {r : Spool} {data : List Byte} (hf : s.flight p.val tid.val false = some r) (he : err = 0)
    (hd : data.length ≠ 64 * r.beats) : exec (.spoolReadData p tid err data) s = .next s.settle := by
  rw [exec_spoolReadData, execSpoolReadData, liveTop_works s _ hs, hf]
  simp [he, hd]

theorem exec_spoolReadData_stray (data : List Byte) (hf : s.flight p.val tid.val false = none) :
    exec (.spoolReadData p tid err data) s = .next s.settle := by
  rw [exec_spoolReadData, execSpoolReadData, liveTop_works s _ hs, hf]

end

/-! ### POOL_REQUEST -/

theorem poolSend_sends {r : PoolReq} (hh : s.halted = false) (hl : s.pool.out.length < 16)
    (hr : s.pool.send.find? (fun r => r.op != poolAlloc && !s.bufBusy r) = some r
      ∨ (s.pool.send.find? (fun r => r.op != poolAlloc && !s.bufBusy r) = none ∧ s.pool.send.find? (fun r => r.op == poolAlloc) = some r)) :
    s.poolSend = { s with pool := { s.pool with send := s.pool.send.erase r, out := s.pool.out ++ [r] } } := by
  have hgo : (s.halted || decide (s.pool.out.length ≥ 16)) = false := by simp [hh, hl]
  unfold State.poolSend
  rcases hr with h | ⟨h, k⟩
  · simp only [hgo, h]; rfl
  · simp only [hgo, h, k]; rfl

/-- At most 16 requests are out (R403). -/
theorem poolSend_full (hl : 16 ≤ s.pool.out.length) : s.poolSend = s := by simp [State.poolSend, hl]

/-! ### Answers -/

/-- The oldest request is answered (R70). -/
theorem poolAnswer_oldest {r : PoolReq} {l : List PoolReq} (h : s.pool.out = r :: l) (f : State → PoolReq → State) :
    s.poolAnswer f = (f { s with pool := { s.pool with out := l } } r).emptyOver := by
  simp only [State.poolAnswer, h]

theorem grant_fits {r : PoolReq} {cls addr : Nat} (hc : r.cls ≤ cls) (ha : addr % classBytes cls = 0) :
    s.grant r cls addr = (({ s with pool := { s.pool with
      bufs := s.pool.bufs ++ [{ cls := cls, addr := addr, owners := [r.owner], use := r.use }] } } : State).later (.granted r.use)) := by
  simp [State.grant, hc, ha]

/-- A grant of a smaller class or out of alignment is given back, and its need waits (R403). -/
theorem grant_unfit {r : PoolReq} {cls addr : Nat} (h : cls < r.cls ∨ addr % classBytes cls ≠ 0) :
    s.grant r cls addr = ((({ s with pool := { s.pool with
      send := s.pool.send ++ [{ op := poolFree, cls := cls, owner := r.owner, addr := addr, use := r.use }] } } : State).poolRefusal
        poolAlloc r.owner addr 5).allocEmpty r) := by
  have hbad : ¬ ((decide (r.cls ≤ cls) && decide (addr % classBytes cls = 0)) = true) := by
    rw [Bool.and_eq_true, decide_eq_true_eq, decide_eq_true_eq]
    rcases h with h | h
    · exact fun k => absurd k.1 (Nat.not_le.2 h)
    · exact fun k => h k.2
  exact if_neg (by simpa using hbad)

/-- A command that brings an answer ends the wait of the oldest request. -/
theorem exec_poolAnswer {c : Instr} {f : State → PoolReq → State} (hc : exec c s = liveTop s (·.poolAnswer f)) (hs : s.TopWorks) {r : PoolReq}
    {l : List PoolReq} (h : s.pool.out = r :: l) {x : State} (hx : f { s with pool := { s.pool with out := l } } r = x) :
    exec c s = .next (State.settle x.emptyOver) := by
  rw [hc, liveTop_works s _ hs, poolAnswer_oldest s h, hx]

theorem exec_poolAnswerOk (cls : BitVec 2) (addr : BitVec 64) :
    exec (.poolAnswerOk cls addr) s = liveTop s (·.poolAnswer fun s r =>
      if r.op = poolAlloc then s.grant r cls.toNat addr.toNat
      else if r.op = poolShare then s.shareOk r
      else if r.op = poolFree then s.askAgain else s) := rfl

theorem exec_poolEmpty :
    exec .poolEmpty s = liveTop s (·.poolAnswer fun s r =>
      if r.op = poolAlloc then (s.bump DMA_POOL_CNT.EMPTY 1).allocEmpty r else s.refused r 6) := rfl

theorem exec_poolRefused (why : BitVec 3) :
    exec (.poolRefused why) s = liveTop s (·.poolAnswer fun s r =>
      if r.op = poolAlloc then (s.poolRefusal poolAlloc r.owner 0 6).allocEmpty r
      else if r.op = poolShare then s.refused r 7 else s.refused r why.toNat) := rfl

theorem exec_poolReservedAnswer :
    exec .poolReservedAnswer s = liveTop s (·.poolAnswer fun s r =>
      if r.op = poolAlloc then (s.poolRefusal poolAlloc r.owner 0 6).allocEmpty r else s.refused r 6) := rfl

/-! ### What a refusal ends (R405, R406) -/

theorem refused_share {r : PoolReq} (h : r.op = poolShare) (why : Nat) :
    s.refused r why =
      (let v := s.poolRefusal r.op r.owner r.addr why
       let x := { v with pool := { v.pool with bufs := v.pool.bufs.filter (fun b => b.addr != r.addr || !b.owners.isEmpty || v.sharePending r.addr) } }
       (x.sharers r.owner r.addr).foldl State.racShareRefused x) := if_pos h

theorem refused_drop {r : PoolReq} (h : r.op = poolDrop) (why : Nat) :
    s.refused r why = (s.poolRefusal r.op r.owner r.addr why).bufLost r.addr := by
  have hs : ¬ r.op = poolShare := by rw [h]; decide
  have hf : ¬ r.op = poolFree := by rw [h]; decide
  exact (if_neg hs).trans (if_neg hf)

theorem refused_free {r : PoolReq} (h : r.op = poolFree) (why : Nat) :
    s.refused r why = ((s.poolRefusal r.op r.owner r.addr why).bufLost r.addr).askAgain := by
  have hs : ¬ r.op = poolShare := by rw [h]; decide
  exact (if_neg hs).trans (if_pos h)

/-- A buffer in which no accumulator lies and that no rebuild reads is only used no longer. -/
theorem bufLost_unused {a : Nat} (ha : ∀ x ∈ s.accs, x.addr ≠ a) (hr : s.racs = []) :
    s.bufLost a = { s with
      ready := s.ready.filter (!·.inBuf a (((s.pool.bufs.find? (fun b => b.addr == a)).map (·.cls)).getD 0)),
      pool := { s.pool with bufs := s.pool.bufs.filter (fun b => b.addr != a),
                            send := s.pool.send.filter (fun r => r.addr != a || r.op == poolAlloc) } } := by
  have haccs : s.accs.filter (fun x => !x.chip && !x.asked && !x.lost && x.addr == a) = [] := by
    rw [List.filter_eq_nil_iff]
    intro x hx
    simp [ha x hx]
  simp only [State.bufLost, haccs, hr]
  rfl

/-! ### POOL_EMPTY_LIMIT -/

theorem emptyLimit_tells {r : PoolReq} (ho : s.oldestNeed = some r) (hl : s.get DMA_POOL_CTRL.EMPTY_LIMIT ≠ 0) (ht : s.pool.emptyTold = false) :
    s.emptyLimit = ({ s with pool := { s.pool with emptyTold := true } } : State).raise 268 0
      (r.cls + r.owner * 4 + s.needsWaiting % 2 ^ 13 * 2 ^ 15) := by
  simp [State.emptyLimit, ho, hl, ht]

end Sys2Proof.Machine

open Sys2Proof Sys2Proof.Machine

/-- Settles O53: a request by the tag that it carries, a response by the transaction that awaits it. -/
theorem spoolCommands : Obligations.SpoolCommands := by
  refine fun s p hs => ⟨fun r i hh hr hi => ⟨fun hc => ?_, fun t hc => ?_⟩, fun tid err => ⟨fun r => ?_, ?_, fun r data hf => ⟨?_, ?_⟩, ?_⟩⟩
  · rw [exec_spoolRequest, liveTop_works s _ hs, spoolRequest_noReads hh hr hi, spoolIssue_untagged hh hr hi hc]; rfl
  · rw [exec_spoolRequest, liveTop_works s _ hs, spoolRequest_noReads hh hr hi, spoolIssue_tagged hh hr hi hc]; rfl
  · exact exec_spoolWriteResponse_awaited hs err
  · exact exec_spoolWriteResponse_stray hs err
  · exact exec_spoolReadData_awaited hs err hf
  · exact exec_spoolReadData_otherLength hs err hf
  · exact fun hf data => exec_spoolReadData_stray hs err data hf

/-- Settles O54: the answer goes to the oldest request, by the operation that it asked for. -/
theorem poolCommands : Obligations.PoolCommands := by
  have hshare : poolShare ≠ poolAlloc := by decide
  have hfree : poolFree ≠ poolAlloc ∧ poolFree ≠ poolShare := by decide
  have hdrop : poolDrop ≠ poolAlloc ∧ poolDrop ≠ poolShare ∧ poolDrop ≠ poolFree := by decide
  refine ⟨fun s hs => ⟨fun r hh hl hr => ?_, fun hl => ?_, fun r l hout => ?_, ?_, fun r ho hl ht => ?_⟩,
    fun u r why => ⟨fun h => refused_share u h why, fun h => refused_drop u h why, fun h => refused_free u h why⟩,
    fun u a ha hr => bufLost_unused u ha hr⟩
  · rw [exec_poolRequest, liveTop_works s _ hs, poolSend_sends s hh hl hr]
  · rw [exec_poolRequest, liveTop_works s _ hs, poolSend_full s hl]
  · refine ⟨fun cls addr => ⟨fun h hc ha => ?_, fun h hbad => ?_, fun h => ?_, fun h => ?_, fun h => ?_⟩, fun h => ?_, fun h => ?_,
      fun why => ⟨fun h => ?_, fun h => ?_, fun h => ?_⟩, fun h => ?_, fun h => ?_⟩
    · exact exec_poolAnswer s (exec_poolAnswerOk s cls addr) hs hout ((if_pos h).trans (grant_fits _ hc ha))
    · exact exec_poolAnswer s (exec_poolAnswerOk s cls addr) hs hout ((if_pos h).trans (grant_unfit _ hbad))
    · exact exec_poolAnswer s (exec_poolAnswerOk s cls addr) hs hout ((if_neg (h ▸ hshare)).trans (if_pos h))
    · exact exec_poolAnswer s (exec_poolAnswerOk s cls addr) hs hout ((if_neg (h ▸ hfree.1)).trans ((if_neg (h ▸ hfree.2)).trans (if_pos h)))
    · exact exec_poolAnswer s (exec_poolAnswerOk s cls addr) hs hout
        ((if_neg (h ▸ hdrop.1)).trans ((if_neg (h ▸ hdrop.2.1)).trans (if_neg (h ▸ hdrop.2.2))))
    · exact exec_poolAnswer s (exec_poolEmpty s) hs hout (if_pos h)
    · exact exec_poolAnswer s (exec_poolEmpty s) hs hout (if_neg h)
    · exact exec_poolAnswer s (exec_poolRefused s why) hs hout (if_pos h)
    · exact exec_poolAnswer s (exec_poolRefused s why) hs hout ((if_neg (h ▸ hshare)).trans (if_pos h))
    · have hother : r.op ≠ poolAlloc ∧ r.op ≠ poolShare := by
        rcases h with h | h
        · exact h ▸ ⟨hdrop.1, hdrop.2.1⟩
        · exact h ▸ hfree
      exact exec_poolAnswer s (exec_poolRefused s why) hs hout ((if_neg hother.1).trans (if_neg hother.2))
    · exact exec_poolAnswer s (exec_poolReservedAnswer s) hs hout (if_pos h)
    · exact exec_poolAnswer s (exec_poolReservedAnswer s) hs hout (if_neg h)
  · rw [exec_poolRetry, liveTop_works s _ hs]; rfl
  · rw [exec_poolEmptyLimit, liveTop_works s _ hs, emptyLimit_tells s ho hl ht]; rfl
end

section
/-! Setup writes that clear counters, lock the window or unmask WAKE_N (R127, R290, R427, R485, R486). -/

namespace Sys2Proof.Machine

variable (s : State)

/-- A command that writes a register that answers acts on the stored word. -/
theorem onPort_writeWith_answers {a : Nat} (w : Word32) (f : State → State) (hs : s.Works) (ha : s.answers a = true) :
    onPort s (·.writeWith a w f) = .next (f (s.storeReg a w)).settle := by
  rw [onPort_works s _ hs, writeWith_answers s a w f ha]

/-- The registers of PD_TET answer whatever is powered (R52). -/
theorem answers_tether {a : Nat} (hr : s.pins.resetN = true) (ha : (regRow a).isSome = true) (hd : regDomain a = none) :
    s.answers a = true := by
  obtain ⟨r, hrow⟩ := Option.isSome_iff_exists.1 ha
  simp [State.answers, hr, hrow, hd]

theorem exec_blwClr (w : Word32) : exec (.blwClr w) s = onPort s (·.writeWith BLW_CTRL.adr w (·.blwClear w)) := rfl

theorem exec_rlhcClr (w : Word32) : exec (.rlhcClr w) s = onPort s (·.writeWith GEO_RLHC_CTRL.adr w (·.rlhcClear w)) := rfl

theorem exec_stuckClear (n : Fin 32) (w : Word32) :
    exec (.stuckClear n w) s = onPort s (·.writeWith (CH_RB_STAT.adr n.val) w (·.stuckClear n.val w)) := rfl

theorem exec_lock (w : Word32) : exec (.lock w) s = onPort s (·.writeWith TOP_CTRL.adr w id) := rfl

theorem exec_wakeNUnmask (w : Word32) : exec (.wakeNUnmask w) s = onPort s (·.writeWith TET_WAKEN_STAT.adr w (·.unmask w)) := rfl

theorem blwClear_clr {w : Word32} (h : bit w 0 = true) :
    s.blwClear w = ((((s.setReg BLW_CNT_BF.adr 0).setReg BLW_CNT_MS.adr 0).setReg BLW_CNT_FAIL.adr 0).setReg BLW_CNT_MISCORR.adr 0).setReg
      BLW_CNT_ERASED.adr 0 := if_pos h

theorem rlhcClear_clr {w : Word32} (h : bit w 24 = true) :
    s.rlhcClear w = (((s.setReg GEO_RLHC_HIT.adr 0).setReg GEO_RLHC_MISS.adr 0).setReg GEO_RLHC_LATE.adr 0).setReg GEO_RLHC_WB.adr 0 :=
  if_pos h

theorem unmask_masked {w : Word32} (h : bit w 31 = true) : s.unmask w = s.put TET_WAKEN_STAT.IDLE 0 := if_pos h

end Sys2Proof.Machine

open Sys2Proof Sys2Proof.Machine

/-- Settles O20: each write stores its word and does its one clear. -/
theorem counterAndLockWrites : Obligations.CounterAndLockWrites := by
  intro s w hs
  refine ⟨fun ha hb => ?_, fun ha hb => ?_, fun n ha => ?_, fun ha => ?_, fun hb => ?_⟩
  · rw [exec_blwClr, onPort_writeWith_answers s w _ hs ha, blwClear_clr _ hb]
  · rw [exec_rlhcClr, onPort_writeWith_answers s w _ hs ha, rlhcClear_clr _ hb]
  · rw [exec_stuckClear, onPort_writeWith_answers s w _ hs ha]; rfl
  · rw [exec_lock, onPort_writeWith_answers s w _ hs ha]; rfl
  · have ha : s.answers TET_WAKEN_STAT.adr = true := answers_tether s hs.2 (by decide) rfl
    rw [exec_wakeNUnmask, onPort_writeWith_answers s w _ hs ha, unmask_masked _ hb]
end

section
/-! The PLLs of a quad: the loss of the running one, the relock of the lost one and lock itself (R99, R452, R453). -/

namespace Sys2Proof.Machine

variable (s : State)

theorem exec_pllLockLoss (q : Fin 8) : exec (.pllLockLoss q) s = live s (·.pllGone q) := rfl

theorem exec_pllRelock (q : Fin 8) (ok : Bool) : exec (.pllRelock q ok) s = live s (·.pllRelock q.val ok) := rfl

theorem exec_pllLocked (q : Fin 8) : exec (.pllLocked q) s = live s (·.pllsLocked q.val) := rfl

/-! ### PLL_LOCK_LOSS -/

/-- The losses of the running PLL of quad q, the present one included. -/
def State.lossCount (q : Nat) : Nat := (s.quadOf q).losses.getD (s.quadOf q).pll 0 + 1

/-- The loss of the running PLL is counted; the third retires the PLL, an earlier one leaves it to relock (R453). -/
def State.lossCounted (q : Nat) : State :=
  let old := (s.quadOf q).pll
  let retire := decide (s.lossCount q ≥ 3)
  (s.switchTold q).modQuad q fun x => { x with
    losses := x.losses.set old (s.lossCount q), locked := putBit x.locked old false,
    retired := if retire then putBit x.retired old true else x.retired, relocking := !retire, lostPll := old }

/-- The quad runs on its standby PLL, which is a spare taken (R452). -/
def State.standbyTaken (q : Fin 8) : State :=
  let old := (s.quadOf q.val).pll
  let u := ((s.lossCounted q.val).fault (.quad q) 0x11 2 old).modQuad q.val fun x => { x with pll := 1 - old, switching := true }
  (u.put (PHY_STAT.STBY_LOCK q.val) 0).evSpareTaken 4 q.val (1 - old)

/-- The n-th loss of one PLL, the quad now running on PLL `run`: the third is told at once, with the spare that is lost (R453). -/
def State.lossTold (q run n : Nat) : State :=
  if n < 3 then s else (s.evQuad q 2 2 (run + n % 256 * 4)).evSpareExhausted 4 q

theorem lossTold_retired (q run n : Nat) :
    (if decide (n ≥ 3) then (s.evQuad q 2 2 (run + n % 256 * 4)).evSpareExhausted 4 q else s) = s.lossTold q run n := by
  simp only [State.lossTold, decide_eq_true_eq, ge_iff_le, ← Nat.not_lt, ite_not]

section
variable {s} {q : Fin 8} (hp : s.powered (pdP q.val) = true) (hl : s.on (PHY_STAT.LOCK q.val) = true)
include hp hl

theorem pllLost_standby (hb : s.on (PHY_STAT.STBY_LOCK q.val) = true) :
    s.pllLost q = ((((s.standbyTaken q).lossTold q.val (1 - (s.quadOf q.val).pll) (s.lossCount q.val)).each (quadChans q.val)
      State.refresh).updQuadRec q.val).switchEnd q.val := by
  unfold State.pllLost
  rw [if_neg (by simp [hp, hl]), if_pos hb]
  exact congrArg (fun y => ((y.each (quadChans q.val) State.refresh).updQuadRec q.val).switchEnd q.val) (lossTold_retired ..)

theorem pllGone_standby (hb : s.on (PHY_STAT.STBY_LOCK q.val) = true) : s.pllGone q = (s.pllLost q).each (quadChans q.val) State.burstCut :=
  if_pos (by simp [hp, hl, hb])

theorem pllGone_alone (hb : s.on (PHY_STAT.STBY_LOCK q.val) = false) :
    s.pllGone q =
      (let v := (((s.lossCounted q.val).put (PHY_STAT.LOCK q.val) 0).fault (.quad q) 0x12 2 (s.quadOf q.val).pll).fenceQuad q.val
       let x := v.each (quadChans q.val) State.enterSafe
       if x.halted then x else x.setReq (pdP q.val) false) := by
  rw [State.pllGone, if_neg (by simp [hb])]
  unfold State.pllLost
  rw [if_neg (by simp [hp, hl]), if_neg (by simp [hb])]
  rfl

end

/-! ### PLL_RELOCK and PLL_LOCKED -/

theorem pllRelock_relocking {q : Nat} (ok : Bool) (hr : (s.quadOf q).relocking = true) (hp : s.powered (pdP q) = true)
    (hl : s.on (PHY_STAT.LOCK q) = true) :
    s.pllRelock q ok =
      (let x := s.quadOf q
       let u := s.modQuad q fun y => { y with relocking := false, locked := putBit y.locked y.lostPll ok,
                                              retired := if ok then y.retired else putBit y.retired y.lostPll true }
       let v := (u.put (PHY_STAT.STBY_LOCK q) ok.toNat).evQuad q 2 2 (x.pll + ok.toNat * 2 + x.losses.getD x.lostPll 0 % 256 * 4)
       if ok then v else v.evSpareExhausted 4 q) :=
  if_neg (by simp [hr, hp, hl])

theorem pllsLocked_step3 {q : Nat} (ha : (s.quadOf q).apply = 3) (hp : s.powered (pdP q) = true) :
    s.pllsLocked q = ((s.pllLock q).put (ZQ_STAT.BUSY q) 1).modQuad q fun x => { x with apply := 4 } :=
  if_pos (by simp [ha, hp])

theorem pllsLocked_wake {q : Nat} (ha : (s.quadOf q).apply = 0) (hw : (s.quadOf q).waking ≠ 0) (hr : (s.quadOf q).relocking = true)
    (hp : s.powered (pdP q) = true) : s.pllsLocked q = s.pllLock q := by
  simp [State.pllsLocked, ha, hw, hr, hp]

end Sys2Proof.Machine

open Sys2Proof Sys2Proof.Machine

/-- Settles O31: the loss by whether a standby is locked, the relock by its success, lock by what waits for it. -/
theorem pllCommands : Obligations.PllCommands := by
  intro s q hs
  refine ⟨fun hp hl => ⟨fun hb => ?_, fun hb => ?_⟩, fun ok hr hp hl => ?_, fun ha hp => ?_, fun ha hw hr hp => ?_⟩
  · rw [exec_pllLockLoss, live_works s _ hs, pllGone_standby hp hl hb, pllLost_standby hp hl hb]; rfl
  · rw [exec_pllLockLoss, live_works s _ hs, pllGone_alone hp hl hb]; rfl
  · rw [exec_pllRelock, live_works s _ hs, pllRelock_relocking s ok hr hp hl]
  · rw [exec_pllLocked, live_works s _ hs, pllsLocked_step3 s ha hp]
  · rw [exec_pllLocked, live_works s _ hs, pllsLocked_wake s ha hw hr hp]
end

section
/-! The APPLY step and impedance calibration (R99 to R101, R107 to R109, Table 3.6). -/

namespace Sys2Proof.Machine

variable (s : State)

theorem exec_apply (q : Fin 8) (w : Word32) :
    exec (.apply q w) s = onPort s (·.writeWith (PHY_CTRL.adr q.val) w fun u => if bit w 0 then u.applyStart q.val else u) := rfl

theorem exec_applyDrained (q : Fin 8) : exec (.applyDrained q) s = live s (·.applyDrained q.val) := rfl

theorem exec_applyPllLockTimeout (q : Fin 8) : exec (.applyPllLockTimeout q) s = live s (·.applyLate q.val) := rfl

theorem exec_applyHoldExpiry (q : Fin 8) : exec (.applyHoldExpiry q) s = live s (·.applyHold q.val) := rfl

theorem exec_zqStart (q : Fin 8) (w : Word32) :
    exec (.zqStart q w) s = onPort s (·.writeWith (ZQ_CTRL.adr q.val) w (·.zqStart q.val w)) := rfl

theorem exec_longCalibration (q : Fin 8) (r : CalReport) : exec (.longCalibration q r) s = live s (·.longCal q.val r) := rfl

theorem exec_shortCalibration (q : Fin 8) (r : CalReport) : exec (.shortCalibration q r) s = live s (·.shortPeriod q.val r) := rfl

/-! ### The APPLY write -/

section
variable {s} {q : Nat}

theorem applyStart_busy (hb : s.on (PHY_STAT.APPLY_BUSY q) = true) : s.applyStart q = s := if_pos hb

theorem applyStart_idle (hb : s.on (PHY_STAT.APPLY_BUSY q) = false) :
    s.applyStart q =
      (let v := if s.qstate q = 1 then s.quadBack q else s
       (v.put (PHY_STAT.APPLY_BUSY q) 1).modQuad q fun x => { x with apply := 1, applyFail := 0 }) := by
  rw [State.applyStart, if_neg (by simp [hb])]

end

/-- A written word counts by its writable bits alone. -/
theorem codedWord_masked {r : RegRow} {m : Word32} (hrw : m &&& BitVec.ofNat 32 r.rw = BitVec.ofNat 32 r.rw)
    (hrwl : m &&& BitVec.ofNat 32 (r.rw + r.rwl) = BitVec.ofNat 32 (r.rw + r.rwl))
    (hc : m &&& BitVec.ofNat 32 r.w1c = BitVec.ofNat 32 r.w1c) (hs : m &&& BitVec.ofNat 32 r.w1s = BitVec.ofNat 32 r.w1s)
    (lock : Bool) (old w : Word32) : codedWord r lock old (w &&& m) = codedWord r lock old w := by
  cases lock <;> simp [codedWord, sel, BitVec.and_assoc, hrw, hrwl, hc, hs]

/-- The row of PHY_CTRL: RATE alone is stored. -/
theorem regRow_phyCtrl : ∀ q : Fin 8, regRow (PHY_CTRL.adr q.val) = some ⟨0x10100, [(0x10000, 8)], 0, 0, 0xF0000000, 0, 0⟩ := by decide

theorem storeReg_phyCtrl_unapplied (q : Fin 8) (w : Word32) :
    s.storeReg (PHY_CTRL.adr q.val) (w &&& 0xFFFFFFFE#32) = s.storeReg (PHY_CTRL.adr q.val) w := by
  simp only [storeReg_register s (regRow_phyCtrl q)]
  rw [codedWord_masked (by decide) (by decide) (by decide) (by decide)]

/-- A store changes no field of another register. -/
theorem on_storeReg_other {a : Nat} {r : RegRow} (ha : regRow a = some r) (hcred : isReg a 0x8100 0x10 8 = false) {f : Fld} (hf : a ≠ f.adr)
    (w : Word32) : (s.storeReg a w).on f = s.on f := by
  rw [storeReg_register s ha, portTake_otherRegister s hcred, State.on, State.get, State.reg_setReg_ne _ hf]
  rfl

theorem on_storeReg_phyCtrl (q : Fin 8) (w : Word32) :
    (s.storeReg (PHY_CTRL.adr q.val) w).on (PHY_STAT.APPLY_BUSY q.val) = s.on (PHY_STAT.APPLY_BUSY q.val) :=
  on_storeReg_other s (regRow_phyCtrl q) (by revert q; decide) (by simp [PHY_CTRL.adr, PHY_STAT.APPLY_BUSY, PHY_STAT.adr]) w

/-- While APPLY_BUSY is 1 an APPLY write does no more than store its word. -/
theorem exec_apply_busy {q : Fin 8} (hb : s.on (PHY_STAT.APPLY_BUSY q.val) = true) (w : Word32) :
    exec (.apply q w) s = onPort s (·.writeWith (PHY_CTRL.adr q.val) w id) := by
  have hu := applyStart_busy ((on_storeReg_phyCtrl s q w).trans hb)
  simp only [exec_apply, onPort, State.writeWith, hu, ite_self, id]

/-! ### The steps of APPLY -/

section
variable {s} {q : Nat}

section
variable (ha : (s.quadOf q).apply = 1) (hq : s.quadQuiet q = true)
include ha hq

theorem applyDrained_fails {r c : Nat} (hc : s.applyCheck q = some (r, c)) : s.applyDrained q = s.applyEnd q r c := by
  simp [State.applyDrained, ha, hq, hc]

theorem applyDrained_passes (hc : s.applyCheck q = none) : s.applyDrained q = s.applyForce q := by
  simp [State.applyDrained, ha, hq, hc]

end

theorem applyLate_step3 (ha : (s.quadOf q).apply = 3) : s.applyLate q = s.applyDead q 8 := if_pos ha

theorem applyHold_held (ha : (s.quadOf q).applyHeld = true) :
    s.applyHold q = (s.modQuad q fun x => { x with applyHeld := false }).applyTrain q := if_pos ha

/-! ### Impedance calibration -/

theorem zqStart_start {w : Word32} (hw : bit w 0 = true) :
    s.zqStart q w = (s.put (ZQ_STAT.BUSY q) 1).modQuad q fun x => { x with zqWanted := true } := if_pos hw

section
variable (r : CalReport)

theorem longCal_started (ha : (s.quadOf q).apply = 0) (hw : (s.quadOf q).waking = 0) (hz : (s.quadOf q).zqRuns = true)
    (hp : s.powered (pdP q) = true) : s.longCal q r = (s.calCodes q r).each (quadChans q) State.leaveSafe := by
  simp [State.longCal, ha, hw, hz, hp, State.each]

theorem longCal_waking (ha : (s.quadOf q).apply = 0) (hw : (s.quadOf q).waking ≠ 0) (hp : s.powered (pdP q) = true) :
    s.longCal q r = s.calCodes q r := by
  simp [State.longCal, ha, hw, hp]

theorem longCal_step4 (ha : (s.quadOf q).apply = 4) :
    s.longCal q r =
      (let u := s.calCodes q r
       if r.puOver || r.pdOver || r.odtOver then u.applyDead q 9
       else ((u.modQuad q fun x => { x with apply := 5 }).each (quadChans q) fun x n =>
         (x.modChan n fun c => { c with applyBad := false }).leaveSafe n).applyTrain q) := if_pos ha

/-- A code goes at most one step toward the one sought (R108). -/
def codeToward (now want : Nat) : Nat := if now < want then now + 1 else if want < now then now - 1 else now

/-- The codes that a short calibration leaves within their limits, shown and offered to the channels. -/
def State.codesMoved (s : State) (q : Nat) (r : CalReport) : State :=
  let u := s.put (ZQ_STAT.PU_CODE q) (codeToward (s.get (ZQ_STAT.PU_CODE q)) r.pu.toNat)
  let v := u.put (ZQ_STAT.PD_CODE q) (codeToward (s.get (ZQ_STAT.PD_CODE q)) r.pd.toNat)
  let x := v.put (ZQ_STAT.ODT_CODE q) (codeToward (s.get (ZQ_STAT.ODT_CODE q)) r.odt.toNat)
  x.each (quadChans q) fun z n => (z.modChan n fun c => { c with zqDue := c.zqDue <|> some z.us }).zqLook n

theorem calStep_inReach (now want : Nat) : calStep now want false = some (codeToward now want) := rfl

theorem shortCal_inReach (hpu : r.puOver = false) (hpd : r.pdOver = false) (hodt : r.odtOver = false) :
    s.shortCal q r = (s.codesMoved q r).put (ZQ_STAT.FAIL q) 0 := by
  unfold State.shortCal
  simp only [hpu, hpd, hodt, calStep_inReach]
  rfl

theorem shortPeriod_runs (hper : s.on (ZQ_CTRL.PERIOD q) = true) (hp : s.powered (pdP q) = true) (hc : (s.quadOf q).calDone = true)
    (hq : s.qstate q = 0) (hb : s.on (ZQ_STAT.BUSY q) = false) : s.shortPeriod q r = s.shortCal q r :=
  if_pos (by simp [hper, hp, hc, hq, hb])

end

end

end Sys2Proof.Machine

open Sys2Proof Sys2Proof.Machine

/-- Settles O33: APPLY is no stored bit, and the step that runs takes no second write. -/
theorem applyWhileBusyIsIgnored : Obligations.ApplyWhileBusyIsIgnored := by
  intro s q w _ hb
  simp only [exec_apply_busy s hb, onPort, State.writeWith, storeReg_phyCtrl_unapplied]

/-- Settles O32: the APPLY step by what runs and what the checks find, a calibration by what it serves. -/
theorem applyAndCalibration : Obligations.ApplyAndCalibration := by
  refine ⟨fun s q hs => ⟨fun w ha hw => ?_, fun ha hq => ⟨fun r c hc => ?_, fun hc => ?_⟩, fun ha => ?_, fun ha => ?_⟩,
    fun s q hs => ⟨fun w ha hw => ?_, fun r => ⟨fun ha hw hz hp => ?_, fun ha hw hp => ?_, fun ha => ?_,
      fun hper hp hc hq hb hpu hpd hodt => ?_⟩⟩⟩
  · rw [exec_apply, onPort_writeWith_answers s w _ hs ha, if_pos hw]
    refine ⟨fun hb => ?_, fun hb => ?_⟩
    · rw [applyStart_idle hb]
    · rw [applyStart_busy hb]
  · rw [exec_applyDrained, live_works s _ hs, applyDrained_fails ha hq hc]; rfl
  · rw [exec_applyDrained, live_works s _ hs, applyDrained_passes ha hq hc]
  · rw [exec_applyPllLockTimeout, live_works s _ hs, applyLate_step3 ha]
  · rw [exec_applyHoldExpiry, live_works s _ hs, applyHold_held ha]
  · rw [exec_zqStart, onPort_writeWith_answers s w _ hs ha, zqStart_start hw]
  · rw [exec_longCalibration, live_works s _ hs, longCal_started r ha hw hz hp]
  · rw [exec_longCalibration, live_works s _ hs, longCal_waking r ha hw hp]
  · rw [exec_longCalibration, live_works s _ hs, longCal_step4 r ha]
  · rw [exec_shortCalibration, live_works s _ hs, shortPeriod_runs r hper hp hc hq hb, shortCal_inReach r hpu hpd hodt]; rfl
end

section
/-! Training, drift periods, the release of the safe state, and the ready/busy inputs (R113 to R122, R126, R127, R133, R144). -/

namespace Sys2Proof.Machine

variable (s : State)

theorem exec_trainStart (n : Fin 32) (w : Word32) :
    exec (.trainStart n w) s = onPort s (·.writeWith (CH_TRAIN_CTRL.adr n.val) w fun u => if bit w 0 then u.trainStart n.val else u) := rfl

theorem exec_trainingDone (n : Fin 32) (r : TrainReport) : exec (.trainingDone n r) s = live s (·.trainEnd n.val r) := rfl

theorem exec_driftPeriodEnd (n : Fin 32) (r : DriftReport) : exec (.driftPeriodEnd n r) s = live s (·.driftEnd n.val r) := rfl

theorem exec_trackingBurst (n : Fin 32) (t : Fin 8) : exec (.trackingBurst n t) s = live s (·.track' n.val t.val) := rfl

theorem exec_safeStateRelease (n : Fin 32) : exec (.safeStateRelease n) s = live s (·.leaveSafe n.val) := rfl

theorem exec_rbNTransition (n : Fin 32) (t : Fin 8) : exec (.rbNTransition n t) s = live s (·.rbEdge n.val t.val) := rfl

theorem exec_rbChatterWindow (q : Fin 8) (c : Fin 4) (t : Fin 8) :
    exec (.rbChatterWindow q c t) s = live s (·.rbWindow (chanAt q c) t.val) := rfl

section
variable {s} {n : Nat}

/-! ### Training (R113 to R118) -/

theorem trainStart_fresh (hok : s.trainOk n = true) (ht : (s.chanOf n).training = 0) :
    s.trainStart n =
      (let v := if s.qstate (chanQuad n) = 1 then s.quadBack (chanQuad n) else s
       (v.put (CH_TRAIN_STAT.BUSY n) 1).modChan n fun c => { c with training := 1 }) := by
  rw [State.trainStart, if_neg (by simp [ht]), if_pos hok]

theorem trainStart_running (hok : s.trainOk n = true) (ht : (s.chanOf n).training ≠ 0) : s.trainStart n = s :=
  if_pos (by simp [hok, ht])

theorem trainStart_refused (hok : s.trainOk n = false) :
    s.trainStart n = (s.put (CH_TRAIN_STAT.FAIL n) 1).put (CH_TRAIN_STAT.FAIL_STEP n) 0 := by
  simp [State.trainStart, hok]

theorem trainEnd_started (r : TrainReport) (ht : (s.chanOf n).training = 1) (hc : s.trainClear n = true) :
    s.trainEnd n r = (s.trainStop n).trainDone n 1 r := by
  rw [State.trainEnd, if_neg (by simp [ht, hc]), ht]

/-- What the end of a training run shows, whose failed step and bits are `bad` (R113, R115 to R118). -/
def State.trainShown (s : State) (n : Nat) (bad : Option (Nat × Nat)) : State :=
  let v := ((s.modChan n fun c => { c with training := 0 }).put (CH_TRAIN_STAT.BUSY n) 0).bump (CH_TRAIN_STAT.COUNT n) 1
  let x := (v.put (CH_TRAIN_STAT.PASS n) bad.isNone.toNat).put (CH_TRAIN_STAT.FAIL n) bad.isSome.toNat
  let y := (x.put (CH_TRAIN_STAT.FAIL_STEP n) (bad.getD (0, 0)).1).put (CH_TRAIN_STAT.FAIL_BITS n) (bad.getD (0, 0)).2
  y.put (CH_MODE_STAT.TRAINED n) bad.isNone.toNat

section
variable {r : TrainReport} {u : State}

theorem trainDone_passed (h : s.trainSteps n false r = (none, u)) :
    s.trainDone n 1 r =
      (let z := (((u.trainShown n none).put (CH_DRIFT_STAT.MOVED n) 0).modChan n fun c => { c with moves := List.replicate 8 0 })
       (z.switchEnd (chanQuad n)).applyFinish (chanQuad n)) := by
  rw [State.trainDone, show ((1 : Nat) == 2) = false from rfl, h]
  rfl

theorem trainDone_failed {bad : Nat × Nat} (h : s.trainSteps n false r = (some bad, u)) :
    s.trainDone n 1 r =
      (let z := u.trainShown n (some bad)
       ((z.leftUntrained n (z.get (PHY_STAT.REASON (chanQuad n))) false).switchEnd (chanQuad n)).applyFinish (chanQuad n)) := by
  rw [State.trainDone, show ((1 : Nat) == 2) = false from rfl, h]
  rfl

end

/-! ### Drift tracking and the safe state (R120 to R122, R133) -/

theorem driftEnd_missed (r : DriftReport) (hp : s.get (CH_DRIFT_CTRL.PERIOD n) ≠ 0) (hd : s.ddr n = true)
    (ht : s.on (CH_MODE_STAT.TRAINED n) = true) (hq : s.qstate (chanQuad n) = 0) (hb : (s.chanOf n).burst = false) :
    s.driftEnd n r =
      (let u := s.bump (CH_DRIFT_STAT.MISSED n) 1
       (u.put (CH_DRIFT_STAT.MOVED n) (((u.chanOf n).moves.map Int.natAbs).foldl max 0)).driftRestart n) := by
  unfold State.driftEnd
  rw [if_neg (by simp [hp, hd, ht, hq]), hb]
  rfl

theorem track_may {t : Nat} (hm : s.mayTrack n t = true) :
    s.track' n t = (s.modChan n fun c => { c with burst := true }).startRoutine (trainOp n (rtTrackBurst, t, 0)) := if_pos hm

theorem leaveSafe_free (hsafe : s.safeCause n = false) (hc : (s.quadOf (chanQuad n)).calDone = true)
    (hb : s.on (ZQ_STAT.BUSY (chanQuad n)) = false) (hon : s.on (CH_MODE_STAT.SAFE n) = true) :
    s.leaveSafe n = (s.modChan n fun c => { c with pads := { c.pads with wpN := true, ceN := 0xFF } }).put (CH_MODE_STAT.SAFE n) 0 :=
  if_neg (by simp [hsafe, hc, hb, hon])

/-! ### Ready/busy inputs (R126, R127, R144) -/

/-- The level of RB_N[t] that DEB does not show is accepted and counted. -/
def State.rbAccepted (s : State) (n t : Nat) : State :=
  let ready := !s.on (rbDeb n t)
  ((s.put (rbDeb n t) ready.toNat).put (rbRaw n t) ready.toNat).modChan n fun c =>
    { c with rbCount := tabMod (fun _ => 0) c.rbCount t (· + 1) }

theorem rbEdge_eq (t : Nat) :
    s.rbEdge n t = if !s.on (rbDeb n t) && (s.rbAccepted n t).rbHonoured n t then (s.rbAccepted n t).each (targetLuns n t) State.wakePark
      else s.rbAccepted n t := rfl

theorem rbEdge_toBusy {t : Nat} (hd : s.on (rbDeb n t) = true) : s.rbEdge n t = s.rbAccepted n t := by
  rw [rbEdge_eq, if_neg (by simp [hd])]

theorem rbEdge_toReady {t : Nat} (hd : s.on (rbDeb n t) = false) (hh : (s.rbAccepted n t).rbHonoured n t = true) :
    s.rbEdge n t = (s.rbAccepted n t).each (targetLuns n t) State.wakePark := by
  rw [rbEdge_eq, if_pos (by simp [hd, hh])]

theorem rbEdge_unhonoured {t : Nat} (hh : (s.rbAccepted n t).rbHonoured n t = false) : s.rbEdge n t = s.rbAccepted n t := by
  rw [rbEdge_eq, if_neg (by simp [hh])]

/-- The transitions of RB_N[t] accepted in the present window. -/
def State.rbCounted (s : State) (n t : Nat) : Nat := tabGet (fun _ => 0) (s.chanOf n).rbCount t

/-- The next window counts anew. -/
def State.rbCleared (s : State) (n t : Nat) : State :=
  s.modChan n fun c => { c with rbCount := tabPut (fun _ => 0) c.rbCount t 0 }

section
variable {m : Fin 32} {t : Nat}

theorem rbWindow_chatters (hc : s.get (CH_RB_CTRL.CHATTER m.val) < s.rbCounted m.val t)
    (hh : (s.rbCleared m.val t).rbHonoured m.val t = true) : s.rbWindow m t = (s.rbCleared m.val t).rbFault m t 2 :=
  if_pos (by rw [Bool.and_eq_true, decide_eq_true_eq]; exact ⟨hc, hh⟩)

theorem rbWindow_calm (hc : s.rbCounted m.val t ≤ s.get (CH_RB_CTRL.CHATTER m.val)) : s.rbWindow m t = s.rbCleared m.val t :=
  if_neg (by rw [Bool.and_eq_true, decide_eq_true_eq]; exact fun h => Nat.not_lt.2 hc h.1)

end

end

end Sys2Proof.Machine

open Sys2Proof Sys2Proof.Machine

/-- Settles O34: a start by what R113 allows, a run's end by its failed step, a period by its bursts. -/
theorem trainingAndDrift : Obligations.TrainingAndDrift := by
  refine ⟨fun s n hs => ⟨fun w ha hw => ?_, fun r bad u ht hc hst => ?_⟩,
    fun s n hs => ⟨fun r hp hd ht hq hb => ?_, fun t hm => ?_, fun hsafe hc hb hon => ?_⟩⟩
  · rw [exec_trainStart, onPort_writeWith_answers s w _ hs ha, if_pos hw]
    refine ⟨fun hok ht => ?_, fun hok ht => ?_, fun hok => ?_⟩
    · rw [trainStart_fresh hok ht]
    · rw [trainStart_running hok ht]
    · rw [trainStart_refused hok]
  · rw [exec_trainingDone, live_works s _ hs, trainEnd_started r ht hc]
    cases bad with
    | none => exact ⟨fun _ => by rw [trainDone_passed hst]; rfl, fun h => absurd rfl h⟩
    | some b => exact ⟨nofun, fun _ => by rw [trainDone_failed hst]; rfl⟩
  · rw [exec_driftPeriodEnd, live_works s _ hs, driftEnd_missed r hp hd ht hq hb]; rfl
  · rw [exec_trackingBurst, live_works s _ hs, track_may hm]
  · rw [exec_safeStateRelease, live_works s _ hs, leaveSafe_free hsafe hc hb hon]

/-- Settles O35: an edge by the level it leaves and whether the input is honoured, a window by its count. -/
theorem readyBusyCommands : Obligations.ReadyBusyCommands := by
  refine fun s n t hs => ⟨?_, fun q c hn => ?_⟩
  · rw [exec_rbNTransition, live_works s _ hs]
    refine ⟨fun hd => ?_, fun hd hh => ?_, fun _ hh => ?_⟩
    · rw [rbEdge_toBusy hd]; rfl
    · rw [rbEdge_toReady hd hh]; rfl
    · rw [rbEdge_unhonoured hh]; rfl
  · rw [exec_rbChatterWindow, live_works s _ hs, hn]
    refine ⟨fun hc hh => ?_, fun hc => ?_⟩
    · rw [rbWindow_chatters hc hh]; rfl
    · rw [rbWindow_calm hc]; rfl
end

section
/-! The op lane at the pads: its latch cycles and pattern bursts, data bursts and the status latch (R103, R117, R118, R124, R125, R143,
R146, Table 4.5). -/

namespace Sys2Proof.Machine

variable (s : State)

theorem exec_ceOn (n : Fin 32) : exec (.ceOn n) s = live s (·.laneCeOn n.val) := rfl

theorem exec_ceOff (n : Fin 32) : exec (.ceOff n) s = live s (·.laneCeOff n.val) := rfl

theorem exec_cmd (n : Fin 32) : exec (.cmd n) s = live s (·.laneCmd n.val) := rfl

theorem exec_addr (n : Fin 32) : exec (.addr n) s = live s (·.laneAddr n.val) := rfl

theorem exec_din (n : Fin 32) (reads : List SramRead) : exec (.din n reads) s = live s (·.dinBurst n.val reads) := rfl

theorem exec_dout (n : Fin 32) (b : ReadBurst) : exec (.dout n b) s = live s (·.laneDout n.val b) := rfl

theorem exec_status (n : Fin 32) (st : Byte) : exec (.status n st) s = live s (·.laneStatus n.val st) := rfl

theorem exec_trnRd (n : Fin 32) (data : List Byte) : exec (.trnRd n data) s = live s (·.laneTrnRd n.val data) := rfl

theorem exec_trnWr (n : Fin 32) : exec (.trnWr n) s = live s (·.laneTrnWr n.val) := rfl

section
variable {s} {n : Nat} {e : Lane}

theorem laneFront_free {l : List Lane} (hp : s.padsHeld n = false) (hl : (s.chanOf n).lane = e :: l) : s.laneFront n e.op = some e := by
  simp [State.laneFront, hp, hl]

/-! ### Latch cycles and pattern bursts -/

theorem laneCeOn_front (hf : s.laneFront n .ceOn = some e) (hm : modeCe (s.chanOf n).mode e.tgt = true) :
    s.laneCeOn n = ((s.setPads n fun p => { p with ceN := putBit p.ceN e.tgt false }).modChan n fun x =>
      { x with tgt := some e.tgt, tgtBy := e.lun }).lanePop n e := by
  simp only [State.laneCeOn, hf, hm, if_true]

theorem laneCeOff_front (hf : s.laneFront n .ceOff = some e) :
    s.laneCeOff n = ((s.setPads n fun p => { p with ceN := 0xFF }).modChan n fun x => { x with tgt := none }).lanePop n e := by
  simp only [State.laneCeOff, hf]

/-- A command cycle marks the plane page of the read that its routine serves as issued. -/
def State.readIssued (s : State) (n g : Nat) : State :=
  match ((s.runOf n g).map (·.op)).bind (·.readId) with
  | some i => s.modRead i fun r => { r with issued := true }
  | none => s

theorem laneCmd_front (hf : s.laneFront n .cmd = some e) :
    s.laneCmd n = ((s.readIssued n e.lun).setPads n fun p => { p with dq := e.cmd }).lanePop n e := by
  simp only [State.laneCmd, hf]; rfl

theorem laneAddr_front (hf : s.laneFront n .addr = some e) :
    s.laneAddr n = (s.setPads n fun p => { p with dq := e.addr.getLastD p.dq }).lanePop n e := by
  simp only [State.laneAddr, hf]

theorem laneTrnRd_front (data : List Byte) (hf : s.laneFront n .trnRd = some e) :
    s.laneTrnRd n data = (s.modChan n fun x => { x with cmpPass := decide (data = s.trnBytes n) }).lanePop n e := by
  simp only [State.laneTrnRd, hf]

theorem laneTrnWr_front (hf : s.laneFront n .trnWr = some e) :
    s.laneTrnWr n = (s.setPads n fun p => { p with dq := s.trnByte n 63 }).lanePop n e := by
  simp only [State.laneTrnWr, hf]

/-! ### Data input bursts -/

/-- The bytes of a data input burst (Table 4.5). -/
def State.dinBytes (s : State) (n : Nat) (e : Lane) : List Byte :=
  if e.xfer = 1 then e.imm else if e.xfer = 2 then s.trnBytes n else ((s.runOf n e.lun).map (fun c => c.op.data.flatten)).getD []

/-- The tag whose accumulator a burst's store reads fold into, none for a later pass. -/
def State.dinOwner (s : State) (n : Nat) (e : Lane) : Option Nat :=
  (s.runOf n e.lun).bind fun c => if c.op.role == .later then none else c.op.tag

theorem laneDin_front (hf : s.laneFront n .din = some e) :
    s.laneDin n = (s.setPads n fun p => { p with dq := (s.dinBytes n e).getLastD p.dq }).lanePop n e := by
  simp only [State.laneDin, hf]; rfl

section
variable (hf : s.laneFront n .din = some e)
include hf

theorem dinBurst_front (reads : List SramRead) :
    s.dinBurst n reads =
      (let d := s.dinReads n (s.dinOwner n e) reads
       if d.1 && e.xfer = 0 then (d.2.laneDin n).notConfirmed n e.lun else d.2.laneDin n) := by
  simp only [State.dinBurst, hf]; rfl

theorem dinBurst_good {reads : List SramRead} (hr : e.xfer ≠ 0 ∨ (s.dinReads n (s.dinOwner n e) reads).1 = false) :
    s.dinBurst n reads = (s.dinReads n (s.dinOwner n e) reads).2.laneDin n := by
  rw [dinBurst_front hf]
  exact if_neg (by rcases hr with h | h <;> simp [h])

theorem dinBurst_bad {reads : List SramRead} (hx : e.xfer = 0) (hr : (s.dinReads n (s.dinOwner n e) reads).1 = true) :
    s.dinBurst n reads = ((s.dinReads n (s.dinOwner n e) reads).2.laneDin n).notConfirmed n e.lun := by
  rw [dinBurst_front hf]
  exact if_pos (by simp [hx, hr])

end

theorem notConfirmed_running {g : Nat} {c : Ctx} (hr : s.runOf n g = some c) (hc : c.committed = false) (h0 : (s.ctxOf n).state ≠ 0)
    (hg : (s.ctxOf n).lun = g) : s.notConfirmed n g = s.routineEnd n resPoison := by
  simp [State.notConfirmed, hr, hc, h0, hg]

/-! ### Data output bursts (R124, R125) -/

section
variable {b : ReadBurst} (hf : s.laneFront n .dout = some e)
include hf

theorem laneDout_good (he : b.edgesOk = true) (hlen : b.data.length = s.laneLen n e) : s.laneDout n b = s.doutOk n e b.data := by
  simp [State.laneDout, hf, he, hlen]

theorem laneDout_first (he : b.edgesOk = false) (hr : (s.chanOf n).repeated = false) :
    s.laneDout n b = ((s.charge n e.lun (s.laneNs n e)).modChan n fun x =>
      { x with repeated := true, burst := x.burst || (s.ddr n && s.on (CH_MODE_STAT.TRAINED n)) }).updChanRec n := by
  simp [State.laneDout, hf, he, hr]

end

/-- The second fault of a transfer is captured, told and counted (R125). -/
def State.phyFaulted (s : State) (n : Fin 32) (e : Lane) : State :=
  let tag := ((s.runOf n.val e.lun).bind (fun c => c.op.tag)).getD 0xFFF
  ((s.fault (.chan n) 4 1 (e.lun + tag * 2 ^ 10)).evPhyFault n.val e.lun tag 3 0).bump (CH_DRIFT_STAT.PHYF n.val) 1

theorem laneDout_second {m : Fin 32} {b : ReadBurst} (hf : s.laneFront m.val .dout = some e) (he : b.edgesOk = false)
    (hr : (s.chanOf m.val).repeated = true) :
    s.laneDout m.val b =
      (let u := s.phyFaulted m e
       let v := if u.get (CH_DRIFT_STAT.PHYF m.val) = 3 then u.retrain m.val 8 else u
       ((v.modChan m.val fun x => { x with repeated := false, xferFault := true }).updChanRec m.val).lanePop m.val e) := by
  unfold State.laneDout
  simp only [hf]
  rw [if_neg (by simp [he]), if_neg (by simp [hr])]
  simp only [dif_pos m.isLt]
  rfl

/-! ### The status latch (R127, R146) -/

/-- A status cycle has latched the byte st. -/
def State.statusTaken (s : State) (n : Nat) (e : Lane) (st : Byte) : State :=
  ((s.setPads n fun p => { p with dq := e.addr.getLastD e.cmd }).modChan n fun x => { x with stat := st }).lanePop n e

section
variable {st : Byte} (hf : s.laneFront n .status = some e)
include hf

theorem laneStatus_ready (hst : bit st 6 = true) :
    s.laneStatus n st = ((s.statusTaken n e st).modLun e.lun fun l => { l with busy := false, stuck := false }).pollStuck n e.lun := by
  simp only [State.laneStatus, hf, hst, if_true]; rfl

theorem laneStatus_busy (hst : bit st 6 = false) :
    s.laneStatus n st = (s.statusTaken n e st).modChan n fun x =>
      { x with readyPolls := tabPut (fun _ => 0) x.readyPolls (lunTarget e.lun) 0 } := by
  simp only [State.laneStatus, hf, hst, Bool.false_eq_true, if_false]; rfl

end

end

end Sys2Proof.Machine

open Sys2Proof Sys2Proof.Machine

/-- Settles O49: the front entry by its action, a burst by its faults, a status by its bit 6. -/
theorem laneWork : Obligations.LaneWork := by
  refine ⟨fun s n e l hs hp hl => ?_, fun s n e l hs hp hl => ?_⟩
  · have hf : ∀ {b}, e.op = b → s.laneFront n.val b = some e := fun h => h ▸ laneFront_free hp hl
    refine ⟨fun ho hm => ?_, fun ho => ?_, fun ho => ?_, fun ho => ?_, fun ho => ?_,
      ⟨fun reads ho hr => ?_, fun row c ho hx hr hc hcom h0 hg => ?_⟩, fun data ho => ?_, fun ho => ?_⟩
    · rw [exec_ceOn, live_works s _ hs, laneCeOn_front (hf ho) hm]; rfl
    · rw [exec_ceOff, live_works s _ hs, laneCeOff_front (hf ho)]; rfl
    · rw [exec_cmd, live_works s _ hs, laneCmd_front (hf ho)]; rfl
    · rw [exec_addr, live_works s _ hs, laneAddr_front (hf ho)]; rfl
    · rw [exec_din, live_works s _ hs, dinBurst_good (hf ho) (.inr rfl), State.dinReads, laneDin_front (hf ho)]; rfl
    · rw [exec_din, live_works s _ hs, dinBurst_good (hf ho) hr]; rfl
    · rw [exec_din, live_works s _ hs, dinBurst_bad (hf ho) hx hr]
      exact congrArg (fun u => Host.Outcome.next (State.settle u)) (notConfirmed_running hc hcom h0 hg)
    · rw [exec_trnRd, live_works s _ hs, laneTrnRd_front data (hf ho)]
    · rw [exec_trnWr, live_works s _ hs, laneTrnWr_front (hf ho)]; rfl
  · have hf : ∀ {b}, e.op = b → s.laneFront n.val b = some e := fun h => h ▸ laneFront_free hp hl
    refine ⟨fun b ho => ⟨fun he hlen => ?_, fun he hr => ?_, fun he hr => ?_⟩, fun st ho => ⟨fun hst => ?_, fun hst => ?_⟩⟩
    · rw [exec_dout, live_works s _ hs, laneDout_good (hf ho) he hlen]
    · rw [exec_dout, live_works s _ hs, laneDout_first (hf ho) he hr]
    · rw [exec_dout, live_works s _ hs, laneDout_second (hf ho) he hr]; rfl
    · rw [exec_status, live_works s _ hs, laneStatus_ready (hf ho) hst]; rfl
    · rw [exec_status, live_works s _ hs, laneStatus_busy (hf ho) hst]; rfl
end

section
/-! Time limits of LUNs and the reset that follows one, suspension and resumption, and the bound of a DIE_CMD's poll (R128, R259, R360 to
R362). -/

namespace Sys2Proof.Machine

variable (s : State)

theorem exec_lunTimeLimit (g : Fin 1024) : exec (.lunTimeLimit g) s = live s (·.limit g.val) := rfl

theorem exec_trstExpiry (g : Fin 1024) : exec (.trstExpiry g) s = live s (·.resetLate g.val) := rfl

theorem exec_suspendLimit (g : Fin 1024) : exec (.suspendLimit g) s = live s (·.suspLate g.val) := rfl

theorem exec_dieCmdPollTimeout (g : Fin 1024) : exec (.dieCmdPollTimeout g) s = live s (·.rawLate g.val) := rfl

theorem exec_resumeMinWait (g : Fin 1024) : exec (.resumeMinWait g) s = liveTop s (·.resumeMin g.val) := rfl

theorem exec_resume (g : Fin 1024) : exec (.resume g) s = liveTop s (·.resumeOp g.val) := rfl

theorem exec_holdMaxExpiry (g : Fin 1024) : exec (.holdMaxExpiry g) s = liveTop s (·.holdMax g.val) := rfl

section
variable {s} {g : Nat}

/-! ### LUN limits (R128) -/

section
variable (hb : (s.lunOf g).busy = true) (hr : (s.lunOf g).resetting = false) (hh : (s.lunOf g).limitHit = false)
  (hf : s.isFenced g = false)
include hb hr hh hf

theorem limit_noRoutine (hn : s.runOf (lunChan g) g = none) :
    s.limit g = (s.limitEvent g (s.lunOf g).cur).hangReset g (s.lunOf g).cur := by
  simp [State.limit, hb, hr, hh, hf, hn]

theorem limit_routine {c : Ctx} (hc : s.runOf (lunChan g) g = some c) (he : c.op.isEngine = false) (hraw : c.op.role ≠ .raw)
    (hrst : c.op.role ≠ .resetLun) : s.limit g = (s.limitEvent g c.op).modLun g fun l => { l with limitHit := true } := by
  simp [State.limit, hb, hr, hh, hf, hc, he, hraw, hrst]

end

/-- A reset whose routine neither runs nor is parked has failed when tRST_max passes. -/
theorem resetLate_noRoutine (hr : (s.lunOf g).resetting = true) (h0 : (s.ctxOf (lunChan g)).state = 0) (hp : (s.lunOf g).park = none) :
    s.resetLate g = (s.dropOps (fun o => o.role == Role.resetLun && o.loc.lun == g)).resetOver g false := by
  simp [State.resetLate, hr, h0, hp]

/-! ### Bounds of a routine on the LUN (R259, R361) -/

section
variable {c : Ctx} (hc : s.runOf (lunChan g) g = some c)
include hc

theorem suspLate_passRuns (hp : s.passRuns g = true) (hk : s.geo (GEO_DK_CTRL.SUSP (s.kind g)) = 1) : s.suspLate g = s.limit g :=
  if_pos (by simp [hp, hc, hk])

section
variable (hraw : c.op.role = .raw)
include hraw

theorem rawLate_running (h0 : (s.ctxOf (lunChan g)).state ≠ 0) (hg : (s.ctxOf (lunChan g)).lun = g) :
    s.rawLate g = s.routineEnd (lunChan g) resTimeout := by
  simp [State.rawLate, hc, hraw, h0, hg]

theorem rawLate_parked (h0 : (s.ctxOf (lunChan g)).state = 0) :
    s.rawLate g = (s.dropPark g).routed g c.op resTimeout (c.reg 6).toNat (c.reg 7).toNat := by
  simp [State.rawLate, hc, hraw, h0]

end

end

/-! ### Suspension (R360, R362) -/

theorem resumeMin_waited (hm : s.maySuspend g = true) (hn : (s.nextRead g).isSome = true)
    (ht : s.geo (GEO_DK_SUSP.RESUME_MIN (s.kind g)) ≤ s.us - (s.lunOf g).since) : s.resumeMin g = s.suspend g :=
  if_pos (by simp [hm, hn, ht])

theorem resumeOp_unread (hs : (s.lunOf g).suspended = true) (ha : (s.lunOf g).abortDie = false)
    (ho : s.ops.any (fun o => o.role == Role.resume && o.loc.lun == g) = false) (hw : s.readWants g = false) :
    s.resumeOp g = s.engineOp g rtResume .resume (s.lunOf g).cur.kindCode :=
  if_neg (by simp only [hs, ha, ho, hw]; decide)

theorem holdMax_suspended (hs : (s.lunOf g).suspended = true) :
    s.holdMax g = (s.modLun g fun l => { l with holdMaxed := true }).resumeOp g := if_pos hs

end

end Sys2Proof.Machine

open Sys2Proof Sys2Proof.Machine

/-- Settles O50: a limit by the routine on the LUN, a suspension by the read that waits or has gone. -/
theorem limitsAndSuspension : Obligations.LimitsAndSuspension := by
  refine ⟨fun s g hs => ⟨fun hb hr hh hf => ⟨fun hn => ?_, fun c hc he hraw hrst => ?_⟩, fun hr h0 hp => ?_⟩,
    fun s g c hs hc => ⟨fun hp hk => ?_, fun hraw h0 hg => ?_, fun hraw h0 => ?_⟩,
    fun s g hs => ⟨fun hm hn ht => ?_, fun hsus ha ho hw => ?_, fun hsus => ?_⟩⟩
  · rw [exec_lunTimeLimit, live_works s _ hs, limit_noRoutine hb hr hh hf hn]
  · rw [exec_lunTimeLimit, live_works s _ hs, limit_routine hb hr hh hf hc he hraw hrst]
  · rw [exec_trstExpiry, live_works s _ hs, resetLate_noRoutine hr h0 hp]
  · rw [exec_suspendLimit, exec_lunTimeLimit, live_works s _ hs, live_works s _ hs, suspLate_passRuns hc hp hk]
    exact ⟨rfl, rfl⟩
  · rw [exec_dieCmdPollTimeout, live_works s _ hs, rawLate_running hc hraw h0 hg]
  · rw [exec_dieCmdPollTimeout, live_works s _ hs, rawLate_parked hc hraw h0]
  · rw [exec_resumeMinWait, liveTop_works s _ hs, resumeMin_waited hm hn ht]
  · rw [exec_resume, liveTop_works s _ hs, resumeOp_unread hsus ha ho hw]
  · rw [exec_holdMaxExpiry, liveTop_works s _ hs, holdMax_suspended hsus]
end

section
/-! Register operations, loads, REQACK and the timer on the running context of a channel (R141, R143, R144, R148, R170, R180). -/

namespace Sys2Proof.Machine

variable (s : State)

/-- Two changes of a context that agree on what it holds are one. -/
theorem State.modCtx_congr {n : Nat} {f g : Ctx → Ctx} (h : f (s.ctxOf n) = g (s.ctxOf n)) : s.modCtx n f = s.modCtx n g := by
  unfold State.modCtx tabMod
  rw [show f (tabGet _ s.ctxs n) = g (tabGet _ s.ctxs n) from h]

theorem onCtx_running {n : Nat} (f : Ctx → Ctx) (h0 : (s.ctxOf n).state ≠ 0) : s.onCtx n f = s.modCtx n f := if_neg h0

/-- A command on the executing context changes that context alone, as its function does what the context holds. -/
theorem exec_onRunning {i : Instr} {n : Nat} (F : State → Ctx → Ctx) {g : Ctx → Ctx} (hi : exec i s = live s fun s => s.onCtx n (F s))
    (hs : s.Works) (h0 : (s.ctxOf n).state ≠ 0) (hg : F s (s.ctxOf n) = g (s.ctxOf n)) : exec i s = .next (s.modCtx n g).settle := by
  rw [hi, live_works s _ hs, onCtx_running s _ h0, s.modCtx_congr hg]

theorem exec_lds (n : Fin 32) (d : Fin 16) : exec (.lds n d) s = live s fun s =>
    if (s.chanOf n.val).lane.isEmpty then s.onCtx n.val (·.load d.val ((s.chanOf n.val).stat.setWidth 32)) else s := rfl

theorem exec_lds_drained {n : Fin 32} {d : Fin 16} (hs : s.Works) (h0 : (s.ctxOf n.val).state ≠ 0) (hl : (s.chanOf n.val).lane = []) :
    exec (.lds n d) s = .next (State.settle (s.modCtx n.val (·.load d.val ((s.chanOf n.val).stat.setWidth 32)))) := by
  rw [exec_lds, live_works s _ hs, hl, onCtx_running s _ h0]; rfl

theorem exec_lds_waits {n : Fin 32} {d : Fin 16} (hs : s.Works) (hl : (s.chanOf n.val).lane ≠ []) :
    exec (.lds n d) s = .next s.settle := by
  rw [exec_lds, live_works s _ hs, if_neg (by simpa using hl)]

end Sys2Proof.Machine

open Sys2Proof Sys2Proof.Machine

/-- Settles O45: each operation's own function of the context, written out. -/
theorem contextOperations : Obligations.ContextOperations := by
  refine ⟨fun s n d a imm hs h0 => ?_, fun s n d a imm hs h0 => ?_⟩
  · refine ⟨?_, ?_, ?_, ?_, ?_, ?_, ?_, ?_, ?_, ?_⟩
    · exact exec_onRunning s (fun _ c => c.mov d imm) rfl hs h0 rfl
    · exact exec_onRunning s (fun _ c => c.movr d a) rfl hs h0 rfl
    · exact exec_onRunning s (fun _ c => c.add d a imm) rfl hs h0 rfl
    · exact exec_onRunning s (fun _ c => c.sub d a imm) rfl hs h0 rfl
    · exact exec_onRunning s (fun _ c => c.and d a imm) rfl hs h0 rfl
    · exact exec_onRunning s (fun _ c => c.or d a imm) rfl hs h0 rfl
    · exact exec_onRunning s (fun _ c => c.shr d a imm) rfl hs h0 rfl
    · exact exec_onRunning s (fun _ c => c.shl d a imm) rfl hs h0 rfl
    · exact exec_onRunning s (fun _ c => c.dec d) rfl hs h0 rfl
    · exact exec_onRunning s (fun _ c => c.cmp a imm) rfl hs h0 rfl
  · refine ⟨?_, ?_, ?_, exec_lds_drained s hs h0, exec_lds_waits s hs, fun m => ?_, fun v k => ?_, fun k => ?_⟩
    · exact exec_onRunning s (fun s c => c.load d (BitVec.ofNat 32 (ldkField s.force c.kind (imm.toNat % 256)))) rfl hs h0 rfl
    · exact exec_onRunning s (fun s c => c.load d (BitVec.ofNat 32 (ldxWord s.force c.kind ((c.reg 4).toNat % 256) ((c.reg a).toNat % 4))))
        rfl hs h0 rfl
    · exact exec_onRunning s (fun s c => c.load d (s.lunWord c.lun (imm.toNat % 8))) rfl hs h0 rfl
    · exact exec_onRunning s (fun _ c => c.ack m) rfl hs h0 rfl
    · exact exec_onRunning s (fun _ c => c.loadTimer (.imm v) k.toNat) rfl hs h0 rfl
    · exact exec_onRunning s (fun _ c => c.loadTimer (.reg a) k.toNat) rfl hs h0 rfl
end

section
/-! Fields that a write leaves, and what raising an event leaves (R409, R419 to R427). -/

namespace Sys2Proof.Machine

variable (s : State)

/-- A field keeps its value where another one is written, also in its own register. -/
theorem State.get_put_disjoint {f g : Fld} (hd : f.hi < g.lo ∨ g.hi < f.lo) (hg : g.hi < 32) (v : Nat) : (s.put f v).get g = s.get g := by
  by_cases ha : f.adr = g.adr
  · unfold State.get State.put
    rw [ha, State.reg_setReg_self]
    apply Nat.eq_of_testBit_eq
    intro i
    simp only [fld, Nat.testBit_mod_two_pow, Nat.testBit_div_two_pow, BitVec.testBit_toNat]
    by_cases hi : i < g.hi + 1 - g.lo
    · rw [getLsbD_putFld _ _ _ _ (by omega), if_neg (by omega)]
    · simp [hi]
  · exact s.get_put_ne ha v

theorem State.on_congr {s t : State} {f : Fld} (h : t.reg f.adr = s.reg f.adr) : t.on f = s.on f := by
  unfold State.on State.get
  rw [h]

/-- t differs from s in what raising events moves at most: the contexts and the registers from 0x4000 on stand. -/
structure State.EventsOnly (s t : State) : Prop where
  ctxs : t.ctxs = s.ctxs
  reg : ∀ a, 0x4000 ≤ a → t.reg a = s.reg a

theorem State.EventsOnly.refl : s.EventsOnly s := ⟨rfl, fun _ _ => rfl⟩

theorem State.EventsOnly.trans {s t u : State} (h : s.EventsOnly t) (k : t.EventsOnly u) : s.EventsOnly u :=
  ⟨k.ctxs.trans h.ctxs, fun a ha => (k.reg a ha).trans (h.reg a ha)⟩

theorem State.eventsOnly_setReg {a : Nat} (h : a < 0x4000) (w : Word32) : s.EventsOnly (s.setReg a w) :=
  ⟨rfl, fun _ hb => s.reg_setReg_ne (by omega) w⟩

theorem State.eventsOnly_fireSlot (j : Nat) : s.EventsOnly (s.fireSlot j) := by
  have hcause : s.EventsOnly (s.setBit TET_WAKE_CAUSE.adr j true) := s.eventsOnly_setReg (by decide) _
  unfold State.fireSlot
  split
  · dsimp only
    split
    · exact hcause.trans ⟨rfl, fun _ _ => rfl⟩
    · exact hcause
  · exact .refl s

theorem State.eventsOnly_fireSource (src : Nat) : s.EventsOnly (s.fireSource src) := by
  refine State.each_keeps (P := s.EventsOnly) (fun u j _ hu => ?_) (.refl s)
  split
  · exact hu.trans (u.eventsOnly_fireSlot j)
  · exact hu

theorem State.eventsOnly_modRing (i : Nat) (f : Ring → Ring) : s.EventsOnly (s.modRing i f) := ⟨rfl, fun _ _ => rfl⟩

theorem State.eventsOnly_enqueue {ring : Nat} (hr : ring < 2) (r : EvRec) : s.EventsOnly (s.enqueue ring r) := by
  have hcnt : (evF ring EV_CNT.COALESCED).adr < 0x4000 := by
    show 0x201C + 0x1000 * ring < 0x4000
    omega
  unfold State.enqueue
  dsimp only
  split
  · exact s.eventsOnly_modRing _ _
  · split
    · exact s.eventsOnly_modRing _ _
    · split
      · split
        · exact (s.eventsOnly_modRing _ _).trans (State.eventsOnly_setReg _ hcnt _)
        · exact s.eventsOnly_modRing _ _
      · exact s.eventsOnly_modRing _ _

theorem State.eventsOnly_raise {src : Nat} (hsrc : src < 512) (sev info : Nat) (h : Option Holder) : s.EventsOnly (s.raise src sev info h) := by
  have hpend : EV_PEND.adr (src / 32) < 0x4000 := by
    show 0x2180 + 4 * (src / 32) < 0x4000
    omega
  unfold State.raise
  split
  · exact .refl s
  · dsimp only
    generalize hu : (if (src != 279) = true then (s.fireSource src).sawWork else s.fireSource src) = u
    have hsu : s.EventsOnly u := by
      subst hu
      split
      · exact (s.eventsOnly_fireSource src).trans ⟨rfl, fun _ _ => rfl⟩
      · exact s.eventsOnly_fireSource src
    split
    · exact hsu.trans (u.eventsOnly_setReg hpend _)
    · refine hsu.trans (.trans ?_ (State.eventsOnly_enqueue _ (Bool.toNat_lt _) _))
      split
      · exact ⟨rfl, fun _ _ => rfl⟩
      · exact .refl u

end Sys2Proof.Machine
end

section
/-! Faults of a Chanter: what their capture and count leave, and where the routine goes (R150 to R152, R449 to R451). -/

namespace Sys2Proof.Machine

variable (s : State)

theorem exec_trap (n : Fin 32) (err : FetchErr) : exec (.trap n err) s = live s (·.trapWord n.val err) := rfl

theorem exec_runLimitFault (n : Fin 32) : exec (.runLimitFault n) s = live s (·.runLimit n.val) := rfl

theorem exec_watchdogFault (n : Fin 32) : exec (.watchdogFault n) s = live s (·.watchdog n.val) := rfl

theorem trapWord_bad {n : Nat} {err : FetchErr} {b : Bad} (hm : s.mayRun n = true) (hb : (s.fetchWord n err).bad = some b) :
    s.trapWord n err = (s.takeTurn n (s.fetchWord n err).corr).chanterFault n b := by
  simp [State.trapWord, hm, hb]

theorem runLimit_reached {n : Nat} (h0 : (s.ctxOf n).state ≠ 0) (hw : 4096 ≤ (s.ctxOf n).words) :
    s.runLimit n = s.chanterFault n { code := 6, patch := s.pcPatch n } := if_pos (by simp [h0, hw])

theorem watchdog_running {n : Nat} (h0 : (s.ctxOf n).state ≠ 0) : s.watchdog n = s.chanterFault n { code := 8, patch := s.pcPatch n } :=
  if_pos (by simp [h0])

/-! ### What leaves the routines and the declaration of a Chanter -/

/-- t has the contexts of s, and the Chanter of quad q is declared in t where it is in s. -/
structure State.KeepsRoutines (q : Nat) (s t : State) : Prop where
  ctxs : t.ctxs = s.ctxs
  declared : t.on (Q_FLT_CTRL.CHT_FAULTED q) = s.on (Q_FLT_CTRL.CHT_FAULTED q)

variable {q : Nat}

theorem State.KeepsRoutines.refl : s.KeepsRoutines q s := ⟨rfl, rfl⟩

theorem State.KeepsRoutines.trans {s t u : State} (h : s.KeepsRoutines q t) (k : t.KeepsRoutines q u) : s.KeepsRoutines q u :=
  ⟨k.ctxs.trans h.ctxs, k.declared.trans h.declared⟩

theorem State.EventsOnly.keepsRoutines {s t : State} (h : s.EventsOnly t) : s.KeepsRoutines q t := by
  have hadr : 0x4000 ≤ Q_FLT_CTRL.adr q := by unfold Q_FLT_CTRL.adr; omega
  exact ⟨h.ctxs, State.on_congr (h.reg _ hadr)⟩

theorem State.keepsRoutines_setReg {a : Nat} (h : a ≠ Q_FLT_CTRL.adr q) (w : Word32) : s.KeepsRoutines q (s.setReg a w) :=
  ⟨rfl, State.on_congr (s.reg_setReg_ne h w)⟩

theorem State.keepsRoutines_raise {src : Nat} (hsrc : src < 512) (sev info : Nat) : s.KeepsRoutines q (s.raise src sev info) :=
  (s.eventsOnly_raise hsrc sev info none).keepsRoutines

theorem fltFirst_ne_fltCtrl (p : Nat) {k : Nat} (hk : k < 16) : Q_FLT_FIRST.adr p + k ≠ Q_FLT_CTRL.adr q := by
  unfold Q_FLT_FIRST.adr Q_FLT_CTRL.adr
  omega

theorem State.keepsRoutines_capture (p : Fin 8) (code cls ctx : Nat) (inj : Bool) :
    s.KeepsRoutines q (s.capture (.quad p) code cls ctx inj) := by
  have hfirst : fltAdr (.quad p) ≠ Q_FLT_CTRL.adr q := fltFirst_ne_fltCtrl p.val (k := 0) (by decide)
  have hctx : fltAdr (.quad p) + 4 ≠ Q_FLT_CTRL.adr q := fltFirst_ne_fltCtrl p.val (by decide)
  have htime : fltAdr (.quad p) + 8 ≠ Q_FLT_CTRL.adr q := fltFirst_ne_fltCtrl p.val (by decide)
  have hcnt : fltAdr (.quad p) + 12 ≠ Q_FLT_CTRL.adr q := fltFirst_ne_fltCtrl p.val (by decide)
  unfold State.capture
  dsimp only
  generalize hu : s.bump _ 1 = u
  have hsu : s.KeepsRoutines q u := by
    subst hu
    split
    · exact s.keepsRoutines_setReg hcnt _
    · exact s.keepsRoutines_setReg hcnt _
  split
  · exact hsu.trans (u.keepsRoutines_setReg hfirst _)
  · exact ((hsu.trans (u.keepsRoutines_setReg hfirst _)).trans (State.keepsRoutines_setReg _ hctx _)).trans
      (State.keepsRoutines_setReg _ htime _)

theorem State.keepsRoutines_fenceQuad (p : Nat) : s.KeepsRoutines q (s.fenceQuad p) := by
  have hlow : (Q_FLT_CTRL.CHT_FAULTED q).hi < (Q_FLT_CTRL.FENCED p).lo := show 29 < 31 by decide
  have hget := s.get_put_disjoint (.inr hlow) (show 29 < 32 by decide) 1
  exact ⟨rfl, congrArg (· != 0) hget⟩

theorem quadChans_lt {q n : Nat} (hq : q < 8) (hn : n ∈ quadChans q) : n < 32 := by
  simp only [quadChans, List.mem_cons, List.not_mem_nil, or_false] at hn
  omega

theorem State.keepsRoutines_escalate (p : Fin 8) (code cls : Nat) (again : Bool) :
    s.KeepsRoutines q (s.escalate (.quad p) code cls again) := by
  have hevents : s.KeepsRoutines q (s.each (quadChans p.val) fun u n => u.evLunFault n 0x3FF 0xFFF 2) :=
    State.each_keeps (fun u n hn hu => hu.trans (u.keepsRoutines_raise (by have := quadChans_lt p.isLt hn; omega) _ _)) (.refl s)
  unfold State.escalate
  dsimp only
  split
  · exact .refl s
  · exact (hevents.trans (State.keepsRoutines_capture _ p _ _ _ _)).trans (State.keepsRoutines_fenceQuad _ p.val)

theorem State.keepsRoutines_fault (p : Fin 8) (code cls ctx : Nat) (again : Bool) :
    s.KeepsRoutines q (s.fault (.quad p) code cls ctx again) := by
  have hcap := s.keepsRoutines_capture (q := q) p code cls ctx false
  unfold State.fault
  dsimp only
  split
  · exact hcap.trans (State.keepsRoutines_escalate _ p code cls again)
  · exact hcap

theorem State.keepsRoutines_evQuad {p k : Nat} (hp : p < 8) (hk : k < 4) (sev info : Nat) : s.KeepsRoutines q (s.evQuad p k sev info) :=
  s.keepsRoutines_raise (by omega) _ _

theorem State.keepsRoutines_chanterEvent {p : Nat} (hp : p < 8) (n : Nat) (c : Ctx) (b : Bad) :
    s.KeepsRoutines q (s.chanterEvent p n c b) := by
  unfold State.chanterEvent
  dsimp only
  split
  · exact s.keepsRoutines_evQuad hp (by decide) _ _
  · split
    · exact s.keepsRoutines_evQuad hp (by decide) _ _
    · exact s.keepsRoutines_evQuad hp (by decide) _ _

theorem State.keepsRoutines_updQuadRec (p : Nat) : s.KeepsRoutines q (s.updQuadRec p) :=
  s.keepsRoutines_setReg (fltFirst_ne_fltCtrl p (k := 0) (by decide)) _

theorem State.keepsRoutines_powerUp (d : Nat) : s.KeepsRoutines q (s.powerUp d) := by
  unfold State.powerUp
  split
  · exact .refl s
  · exact ⟨rfl, rfl⟩

/-! ### A declaration stands -/

theorem freeCtx_declared (n g : Nat) : (s.freeCtx n g).on (Q_FLT_CTRL.CHT_FAULTED q) = s.on (Q_FLT_CTRL.CHT_FAULTED q) := by
  unfold State.freeCtx
  dsimp only
  split
  · exact State.on_put_ne _ (show CH_FLT_FIRST.adr n ≠ Q_FLT_CTRL.adr q by unfold CH_FLT_FIRST.adr Q_FLT_CTRL.adr; omega) _
  · rfl

theorem unstage_on (n : Nat) (o : Op) (f : Fld) : (s.unstage n o).on f = s.on f := by
  unfold State.unstage
  split <;> rfl

theorem abandon_declared (p : Nat) : (s.abandon p).on (Q_FLT_CTRL.CHT_FAULTED q) = s.on (Q_FLT_CTRL.CHT_FAULTED q) := by
  refine State.each_keeps (P := fun u => u.on (Q_FLT_CTRL.CHT_FAULTED q) = s.on (Q_FLT_CTRL.CHT_FAULTED q)) (fun u n _ hu => ?_) rfl
  dsimp only
  split
  · exact hu
  · rw [State.modCtx_on, unstage_on, freeCtx_declared, hu]

theorem declareChanter_declares (p : Fin 8) (ctx : Nat) : (s.declareChanter p ctx).on (Q_FLT_CTRL.CHT_FAULTED p.val) = true := by
  unfold State.declareChanter
  split
  · assumption
  · dsimp only
    generalize hu : (s.put (Q_FLT_CTRL.CHT_FAULTED p.val) 1).capture (.quad p) 0x10 2 ctx false = u
    have hon : u.on (Q_FLT_CTRL.CHT_FAULTED p.val) = true := by
      rw [← hu, (State.keepsRoutines_capture _ p _ _ _ _).declared, State.on, State.get_put_self _ _ _ (show 29 < 32 by decide)]
      rfl
    split
    · rw [(State.keepsRoutines_escalate u p _ _ _).declared, hon]
    · split
      · rw [abandon_declared, (State.keepsRoutines_powerUp _ pdSpc).declared, State.evSpareTaken,
          (State.keepsRoutines_raise _ (by decide) _ _).declared, (State.keepsRoutines_updQuadRec _ p.val).declared, State.modQuad_on]
        exact hon
      · rw [(State.keepsRoutines_fenceQuad _ p.val).declared, State.evSpareExhausted, (State.keepsRoutines_raise _ (by decide) _ _).declared,
          (State.keepsRoutines_capture _ p _ _ _ _).declared, hon]

/-- A counted fault leaves the routines as they are, or has the Chanter declared. -/
theorem chanterCount_keeps_or_declares (p : Fin 8) (code : Nat) (patch : Bool) :
    s.KeepsRoutines p.val (s.chanterCount p code patch) ∨ (s.on (Q_FLT_CTRL.CHT_FAULTED p.val) = false ∧
      (s.chanterCount p code patch).on (Q_FLT_CTRL.CHT_FAULTED p.val) = true) := by
  unfold State.chanterCount
  split
  · exact .inl (.refl s)
  · split
    · exact .inl (((s.keepsRoutines_raise (by decide) _ _).trans (State.keepsRoutines_fault _ p _ _ _ _)).trans
        (State.keepsRoutines_fenceQuad _ p.val))
    · dsimp only
      split
      next hdec =>
        simp only [Bool.and_eq_true, Bool.not_eq_true', State.modQuad_on] at hdec
        exact .inr ⟨hdec.2, declareChanter_declares _ p _⟩
      next => exact .inl ⟨rfl, rfl⟩

/-! ### Where the routine goes -/

/-- What a Chanter fault captures, tells and counts before it rules the routine. -/
def State.chanterFaulted (s : State) (q : Fin 8) (n : Nat) (c : Ctx) (b : Bad) : State :=
  ((s.fault (.quad q) b.code 1 (n % 4 + c.pc * 2 ^ 2 + c.op.tag.getD 0xFFF * 2 ^ 16 + c.bank.toNat * 2 ^ 28)
    (!c.committed && decide (c.restarts < 2))).chanterEvent q.val n c b).chanterCount q b.code b.patch

theorem chanterFault_running {n : Nat} {q : Fin 8} (b : Bad) (h0 : (s.ctxOf n).state ≠ 0) (hq : q.val = chanQuad n) :
    s.chanterFault n b = if !s.on (Q_FLT_CTRL.CHT_FAULTED q.val) && (s.chanterFaulted q n (s.ctxOf n) b).on (Q_FLT_CTRL.CHT_FAULTED q.val)
      then s.chanterFaulted q n (s.ctxOf n) b else (s.chanterFaulted q n (s.ctxOf n) b).runFaulted n := by
  obtain ⟨q, hlt⟩ := q
  obtain rfl : q = chanQuad n := hq
  unfold State.chanterFault
  dsimp only
  rw [if_neg h0, dif_pos hlt]
  rfl

/-- A fault that does not have the Chanter declared leaves every context to what R151 and R152 make of the routine. -/
theorem chanterFaulted_ctxOf {q : Fin 8} {n : Nat} {c : Ctx} {b : Bad} (m : Nat)
    (hd : (!s.on (Q_FLT_CTRL.CHT_FAULTED q.val) && (s.chanterFaulted q n c b).on (Q_FLT_CTRL.CHT_FAULTED q.val)) = false) :
    (s.chanterFaulted q n c b).ctxOf m = s.ctxOf m := by
  have hkeep : s.KeepsRoutines q.val _ := (s.keepsRoutines_fault q b.code 1
    (n % 4 + c.pc * 2 ^ 2 + c.op.tag.getD 0xFFF * 2 ^ 16 + c.bank.toNat * 2 ^ 28) (!c.committed && decide (c.restarts < 2))).trans
    (State.keepsRoutines_chanterEvent _ q.isLt n c b)
  obtain hcount | ⟨hoff, hon⟩ := chanterCount_keeps_or_declares _ q b.code b.patch
  · unfold State.ctxOf
    rw [State.chanterFaulted, (hkeep.trans hcount).ctxs]
  · rw [hkeep.declared] at hoff
    rw [hoff, State.chanterFaulted, hon] at hd
    exact absurd hd (by decide)

theorem runFaulted_eq (n : Nat) : s.runFaulted n =
    if (s.ctxOf n).committed then (s.freeCtx n (s.ctxOf n).lun).finishNow n (s.ctxOf n).lun (s.ctxOf n)
    else if !(s.ctxOf n).committed && decide ((s.ctxOf n).restarts < 2) then
      (((s.freeCtx n (s.ctxOf n).lun).unstage n (s.ctxOf n).op).bump (CHT_CNT.RESTARTS (chanQuad n)) 1).modCtx n
        fun _ => (s.ctxOf n).restart ((s.ctxOf n).restarts + 1)
    else s.routineEnd n resFaulted := by
  unfold State.runFaulted
  cases hc : (s.ctxOf n).committed <;> simp [hc]

/-- Where a Chanter fault leaves the routine that met it: with the take-over, or as its commit point and its restarts have it. -/
theorem chanterFault_rules {n : Nat} {q : Fin 8} (b : Bad) (h0 : (s.ctxOf n).state ≠ 0) (hq : q.val = chanQuad n) :
    let c := s.ctxOf n
    let u := s.chanterFaulted q n c b
    s.chanterFault n b =
      if !s.on (Q_FLT_CTRL.CHT_FAULTED q.val) && u.on (Q_FLT_CTRL.CHT_FAULTED q.val) then u
      else if c.committed then (u.freeCtx n c.lun).finishNow n c.lun c
      else if !c.committed && decide (c.restarts < 2) then
        (((u.freeCtx n c.lun).unstage n c.op).bump (CHT_CNT.RESTARTS q.val) 1).modCtx n fun _ => c.restart (c.restarts + 1)
      else u.routineEnd n resFaulted := by
  dsimp only
  rw [chanterFault_running s b h0 hq]
  refine ite_congr rfl (fun _ => rfl) fun hd => ?_
  rw [runFaulted_eq, chanterFaulted_ctxOf s n (Bool.eq_false_iff.2 hd), hq]

end Sys2Proof.Machine

open Sys2Proof Sys2Proof.Machine

/-- Settles O47: the three faults' codes, and R151 and R152 on the context that the fault was met in. -/
theorem chanterFaults : Obligations.ChanterFaults := by
  refine fun s n hs => ⟨fun err b hm hb => ?_, fun h0 hw => ?_, fun h0 => ?_, fun b q h0 hq => ?_⟩
  · rw [exec_trap, live_works s _ hs, trapWord_bad s hm hb]
  · rw [exec_runLimitFault, live_works s _ hs, runLimit_reached s h0 hw]
  · rw [exec_watchdogFault, live_works s _ hs, watchdog_running s h0]
  · exact chanterFault_rules s b h0 hq
end

section
/-! Patch RAM: commits, CLEAR, the injection, and activation with its bank switches (R157, R158, R161 to R163, R446). -/

namespace Sys2Proof.Machine

variable (s : State)

theorem exec_patchRowCommit (j : Fin 512) (w : Word32) :
    exec (.patchRowCommit j w) s = onPort s (·.writeWith (PAT_ROW.adr j.val 1) w (·.rowCommit j.val w)) := rfl

theorem exec_nanoWordCommit (i : Fin 128) (w : Word32) :
    exec (.nanoWordCommit i w) s = onPort s (·.writeWith (PAT_NANO.adr i.val 5) w (·.nanoCommit i.val w)) := rfl

theorem exec_patClear (w : Word32) :
    exec (.patClear w) s = onPort s (·.writeWith PAT_CTRL.adr w fun s => if bit w 1 then s.patClear else s) := rfl

theorem exec_patInjectArm (w : Word32) : exec (.patInjectArm w) s = onPort s (·.writeWith PAT_INJECT.adr w id) := rfl

theorem exec_activate (w : Word32) :
    exec (.activate w) s = onPort s (·.writeWith PAT_CTRL.adr w fun s => if bit w 0 then s.patActivate else s) := rfl

theorem exec_patchBankSwitch (k : Fin 9) : exec (.patchBankSwitch k) s = live s (·.patSwitch k.val) := rfl

/-! ### Writes of the pending bank -/

theorem patWrite_taken (f : State → State) (h : s.patWritable = true) : s.patWrite f = f s := if_pos h

theorem patWrite_refused (f : State → State) (h : s.patWritable = false) : s.patWrite f = s.put PAT_STAT.WR_REFUSED 1 := by
  simp [State.patWrite, h]

theorem pending'_setPending (f : PatBank → PatBank) : (s.setPending f).pending' = f s.pending' := by
  have hbank : ∀ b p, (s.setPatBank b p).pendBank = s.pendBank := fun b p => by cases b <;> rfl
  unfold State.setPending
  rw [State.pending', hbank]
  cases s.pendBank <;> rfl

/-! ### CLEAR -/

theorem getLsbD_putBit_self (w : Word32) {i : Nat} (hi : i < 32) (b : Bool) : (putBit w i b).getLsbD i = b := by
  rw [getLsbD_putBit w i b hi, if_pos rfl]

/-- EN = 0 in every register that the store lists. -/
def enCleared (t : Tab Word32) : Tab Word32 := t.foldl (fun t e => tabPut (fun _ => 0) t e.1 (putBit e.2 31 false)) []

/-- The bank as CLEAR leaves it. -/
def PatBank.cleared (p : PatBank) : PatBank := { p with rowOk := [], nanoOk := [], mtch := enCleared p.mtch, entry := enCleared p.entry }

theorem patClear_taken (h : s.patWritable = true) : s.patClear = s.setPending PatBank.cleared := patWrite_taken s _ h

theorem patClear_refused (h : s.patWritable = false) : s.patClear = s.put PAT_STAT.WR_REFUSED 1 := patWrite_refused s _ h

/-- A run of writes of a function of each entry: what every written value and what was there before fulfil, the store fulfils. -/
theorem tabGet_foldl_tabPut_of {α : Type} [DecidableEq α] {d : Nat → α} {g : α → α} {P : α → Prop} (hg : ∀ v, P (g v)) (t : Tab α)
    {acc : Tab α} (hacc : ∀ k, P (tabGet d acc k)) (k : Nat) : P (tabGet d (t.foldl (fun t e => tabPut d t e.1 (g e.2)) acc) k) := by
  induction t generalizing acc with
  | nil => exact hacc k
  | cons e t ih =>
    refine ih fun j => ?_
    rw [tabGet_tabPut]
    split
    · exact hg e.2
    · exact hacc j

theorem tabGet_foldl_tabPut_unlisted {α : Type} [DecidableEq α] {d : Nat → α} (g : α → α) {t : Tab α} {k : Nat} (h : ∀ e ∈ t, e.1 ≠ k)
    (acc : Tab α) : tabGet d (t.foldl (fun t e => tabPut d t e.1 (g e.2)) acc) k = tabGet d acc k := by
  induction t generalizing acc with
  | nil => rfl
  | cons e t ih =>
    rw [List.foldl_cons, ih fun x hx => h x (List.mem_cons_of_mem _ hx), tabGet_tabPut, if_neg (h e List.mem_cons_self)]

/-- In canonical form each index is listed once, so a run of writes over the store changes each value once. -/
theorem tabGet_foldl_tabPut {α : Type} [DecidableEq α] {d : Nat → α} (g : α → α) {t : Tab α} (hwf : tabWf d t = true) {acc : Tab α} {k : Nat}
    (hacc : tabGet d acc k = g (d k)) : tabGet d (t.foldl (fun t e => tabPut d t e.1 (g e.2)) acc) k = g (tabGet d t k) := by
  induction t generalizing acc with
  | nil => exact hacc
  | cons e t ih =>
    obtain ⟨i, v⟩ := e
    simp only [tabWf, Bool.and_eq_true, List.all_eq_true, decide_eq_true_eq] at hwf
    obtain ⟨⟨-, hrise⟩, hwf⟩ := hwf
    rw [List.foldl_cons, tabGet]
    by_cases hk : i = k
    · subst hk
      rw [tabGet_foldl_tabPut_unlisted g (fun e he => Nat.ne_of_gt (hrise e he)), tabGet_tabPut, if_pos rfl, if_pos rfl]
    · rw [if_neg hk]
      exact ih hwf (by rw [tabGet_tabPut, if_neg hk, hacc])

theorem enCleared_off (t : Tab Word32) (i : Nat) : bit (tabGet (fun _ => 0) (enCleared t) i) 31 = false := by
  have hempty : ∀ k, bit (tabGet (fun _ => (0 : Word32)) [] k) 31 = false := fun _ => BitVec.getLsbD_zero
  exact tabGet_foldl_tabPut_of (P := fun w => bit w 31 = false) (fun v => getLsbD_putBit_self v (by decide) false) t hempty i

theorem enCleared_rest {t : Tab Word32} (hwf : tabWf (fun _ => 0) t = true) (i : Nat) :
    tabGet (fun _ => 0) (enCleared t) i = putBit (tabGet (fun _ => 0) t i) 31 false :=
  tabGet_foldl_tabPut (fun w => putBit w 31 false) hwf (show (0 : Word32) = putBit 0 31 false by decide)

/-! ### The end of an activation (R162) -/

theorem patDone_waits (h : ∃ j, j < 9 ∧ s.pendingOf j = true) : s.patDone = s := by
  have hany : (List.range 9).any s.pendingOf = true := by simpa using h
  exact if_pos (by rw [hany, Bool.or_true])

theorem patDone_last (ha : s.on PAT_STAT.ACT_PENDING = true) (h : ∀ j, j < 9 → s.pendingOf j = false) : s.patDone =
    ((s.put PAT_STAT.ACT_PENDING 0).put PAT_STAT.PEND_BANK (1 - s.get PAT_STAT.PEND_BANK)).raise 276 0
      (s.get PAT_STAT.PEND_BANK + (((s.put PAT_STAT.ACT_PENDING 0).put PAT_STAT.PEND_BANK (1 - s.get PAT_STAT.PEND_BANK)).patBank
        (s.get PAT_STAT.PEND_BANK == 1)).ident.toNat * 2 ^ 32) := by
  have hnone : (List.range 9).any s.pendingOf = false := by simpa using h
  exact if_neg (by rw [ha, hnone]; decide)

/-- The end of an activation leaves what the Chanters run on. -/
theorem patDone_patchState : s.patDone.reg PAT_QUAD_PATCH_STATE.adr = s.reg PAT_QUAD_PATCH_STATE.adr := by
  unfold State.patDone
  split
  · rfl
  · have hpat : PAT_STAT.adr ≠ PAT_QUAD_PATCH_STATE.adr := by decide
    exact ((State.eventsOnly_raise _ (by decide) _ _ none).reg _ (by decide)).trans
      ((State.reg_setReg_ne _ hpat _).trans (State.reg_setReg_ne _ hpat _))

/-! ### One Chanter's switch -/

/-- Chanter k has turned its bank and waits no longer. -/
def State.turned (s : State) (k : Nat) : State :=
  s.setReg PAT_QUAD_PATCH_STATE.adr (putBit (putBit (s.reg PAT_QUAD_PATCH_STATE.adr) (3 * k) (!s.bankOf k)) (3 * k + 1) false)

theorem bankSwitch_pending {k : Nat} (h : s.pendingOf k = true) : s.bankSwitch k = (s.turned k).patDone := if_neg (by simp [h])

theorem bankSwitch_settled {k : Nat} (h : s.pendingOf k = false) : s.bankSwitch k = s := if_pos (by simp [h])

theorem turned_bankOf (j : Nat) {k : Nat} (hk : k < 9) : (s.turned j).bankOf k = if k = j then !s.bankOf j else s.bankOf k := by
  unfold State.turned State.bankOf
  rw [State.reg_setReg_self, getLsbD_putBit _ _ _ (by omega), if_neg (by omega), getLsbD_putBit _ _ _ (by omega)]
  exact ite_congr (propext (by omega)) (fun _ => rfl) (fun _ => rfl)

theorem turned_pendingOf (j : Nat) {k : Nat} (hk : k < 9) : (s.turned j).pendingOf k = if k = j then false else s.pendingOf k := by
  unfold State.turned State.pendingOf
  rw [State.reg_setReg_self, getLsbD_putBit _ _ _ (by omega), getLsbD_putBit _ _ _ (by omega), if_neg (show ¬ 3 * k + 1 = 3 * j by omega)]
  exact ite_congr (propext (by omega)) (fun _ => rfl) (fun _ => rfl)

theorem turned_actPending (j : Nat) : (s.turned j).on PAT_STAT.ACT_PENDING = s.on PAT_STAT.ACT_PENDING :=
  State.on_congr (s.reg_setReg_ne (by decide) _)

@[simp] theorem patDone_bankOf (k : Nat) : s.patDone.bankOf k = s.bankOf k := by
  unfold State.bankOf
  rw [patDone_patchState]

@[simp] theorem patDone_pendingOf (k : Nat) : s.patDone.pendingOf k = s.pendingOf k := by
  unfold State.pendingOf
  rw [patDone_patchState]

theorem bankSwitch_pendingOf (j : Nat) {k : Nat} (hk : k < 9) : (s.bankSwitch j).pendingOf k = if k = j then false else s.pendingOf k := by
  cases h : s.pendingOf j
  · rw [bankSwitch_settled s h]
    split
    · simp [*]
    · rfl
  · rw [bankSwitch_pending s h, patDone_pendingOf, turned_pendingOf s j hk]

theorem bankSwitch_bankOf (j : Nat) {k : Nat} (hk : k < 9) :
    (s.bankSwitch j).bankOf k = if k = j ∧ s.pendingOf j = true then !s.bankOf j else s.bankOf k := by
  cases h : s.pendingOf j
  · rw [bankSwitch_settled s h]
    simp
  · rw [bankSwitch_pending s h, patDone_bankOf, turned_bankOf s j hk]
    simp

/-- Another Chanter that waits keeps the activation open. -/
theorem bankSwitch_actPending {j k : Nat} (hk : k < 9) (hj : j ≠ k) (hp : s.pendingOf k = true) :
    (s.bankSwitch j).on PAT_STAT.ACT_PENDING = s.on PAT_STAT.ACT_PENDING := by
  cases h : s.pendingOf j
  · rw [bankSwitch_settled s h]
  · have hwaits : (s.turned j).pendingOf k = true := by rw [turned_pendingOf s j hk, if_neg hj.symm, hp]
    rw [bankSwitch_pending s h, patDone_waits _ ⟨k, hk, hwaits⟩, turned_actPending]

/-! ### ACTIVATE (R161) -/

/-- Every Chanter's switch is pending. -/
def State.allPending (s : State) : State :=
  (s.put PAT_STAT.ACT_PENDING 1).setReg PAT_QUAD_PATCH_STATE.adr ((s.put PAT_STAT.ACT_PENDING 1).reg PAT_QUAD_PATCH_STATE.adr ||| 0x2492492#32)

theorem put_patStat_patchState (v : Nat) :
    (s.put PAT_STAT.ACT_PENDING v).reg PAT_QUAD_PATCH_STATE.adr = s.reg PAT_QUAD_PATCH_STATE.adr := s.reg_setReg_ne (by decide) _

/-- The Chanters whose domain is off. -/
def State.chantersOff (s : State) : List Nat := (List.range 9).filter fun k => !s.powered (chanterDomain k)

theorem mem_chantersOff {k : Nat} (hk : k < 9) : k ∈ s.chantersOff ↔ s.powered (chanterDomain k) = false := by
  simp [State.chantersOff, hk]

theorem patActivate_idle (ha : s.on PAT_STAT.ACT_PENDING = false) : s.patActivate = s.allPending.each s.chantersOff State.bankSwitch := by
  unfold State.patActivate State.allPending
  rw [ha, put_patStat_patchState]
  rfl

theorem patActivate_pending (ha : s.on PAT_STAT.ACT_PENDING = true) : s.patActivate = s := if_pos ha

theorem pendingBits_getLsbD : ∀ k : Fin 9, (0x2492492#32).getLsbD (3 * k.val + 1) = true ∧ (0x2492492#32).getLsbD (3 * k.val) = false := by
  decide

theorem allPending_pendingOf {k : Nat} (hk : k < 9) : s.allPending.pendingOf k = true := by
  unfold State.allPending State.pendingOf
  rw [State.reg_setReg_self, BitVec.getLsbD_or, (pendingBits_getLsbD ⟨k, hk⟩).1, Bool.or_true]

theorem allPending_bankOf {k : Nat} (hk : k < 9) : s.allPending.bankOf k = s.bankOf k := by
  unfold State.allPending State.bankOf
  rw [State.reg_setReg_self, BitVec.getLsbD_or, (pendingBits_getLsbD ⟨k, hk⟩).2, Bool.or_false, put_patStat_patchState]

theorem allPending_actPending : s.allPending.on PAT_STAT.ACT_PENDING = true := by
  have hon : (s.put PAT_STAT.ACT_PENDING 1).on PAT_STAT.ACT_PENDING = true := by
    rw [State.on, State.get_put_self _ _ _ (by decide)]
    decide
  rw [← hon]
  exact State.on_congr (State.reg_setReg_ne _ (by decide) _)

/-- What waits and what is in force change together, so a Chanter whose domain is off has turned once. -/
theorem patActivate_off {k : Nat} (hk : k < 9) (ha : s.on PAT_STAT.ACT_PENDING = false) (hp : s.powered (chanterDomain k) = false) :
    s.patActivate.pendingOf k = false ∧ s.patActivate.bankOf k = !s.bankOf k := by
  have hpend : s.patActivate.pendingOf k = false := by
    rw [patActivate_idle s ha]
    refine State.each_reaches (P := fun u => u.pendingOf k = false) ((mem_chantersOff s hk).2 hp) (fun u => ?_) (fun u j hu => ?_) _
    · rw [bankSwitch_pendingOf u k hk, if_pos rfl]
    · rw [bankSwitch_pendingOf u j hk, hu, ite_self]
  have hsum : (s.patActivate.bankOf k ^^ s.patActivate.pendingOf k) = (s.bankOf k ^^ true) := by
    rw [patActivate_idle s ha]
    refine State.each_keeps (P := fun u => (u.bankOf k ^^ u.pendingOf k) = (s.bankOf k ^^ true)) (fun u j _ hu => ?_) ?_
    · rw [bankSwitch_bankOf u j hk, bankSwitch_pendingOf u j hk, ← hu]
      by_cases hj : k = j
      · subst hj
        cases u.pendingOf k <;> simp
      · simp [hj]
    · rw [allPending_bankOf s hk, allPending_pendingOf s hk]
  exact ⟨hpend, by simpa [hpend] using hsum⟩

theorem patActivate_on {k : Nat} (hk : k < 9) (ha : s.on PAT_STAT.ACT_PENDING = false) (hp : s.powered (chanterDomain k) = true) :
    s.patActivate.pendingOf k = true ∧ s.patActivate.bankOf k = s.bankOf k ∧ s.patActivate.on PAT_STAT.ACT_PENDING = true := by
  rw [patActivate_idle s ha]
  refine State.each_keeps (P := fun u => u.pendingOf k = true ∧ u.bankOf k = s.bankOf k ∧ u.on PAT_STAT.ACT_PENDING = true)
    (fun u j hj hu => ?_) ⟨allPending_pendingOf s hk, allPending_bankOf s hk, allPending_actPending s⟩
  obtain ⟨hpend, hbank, hact⟩ := hu
  have hne : k ≠ j := by
    rintro rfl
    exact absurd ((mem_chantersOff s hk).1 hj) (by simp [hp])
  exact ⟨by rw [bankSwitch_pendingOf u j hk, if_neg hne, hpend], by rw [bankSwitch_bankOf u j hk, if_neg (fun h => hne h.1), hbank],
    by rw [bankSwitch_actPending u hk hne.symm hpend, hact]⟩

theorem patActivate_allOn (ha : s.on PAT_STAT.ACT_PENDING = false) (hp : ∀ k, k < 9 → s.powered (chanterDomain k) = true) :
    s.patActivate = s.allPending := by
  have hnone : s.chantersOff = [] := by simpa [State.chantersOff] using hp
  rw [patActivate_idle s ha, hnone]
  rfl

/-! ### PATCH_BANK_SWITCH -/

theorem patSwitch_due {k : Nat} (hp : s.pendingOf k = true) (h : s.chanterIdle k = true ∨ s.powered (chanterDomain k) = false) :
    s.patSwitch k = (s.turned k).patDone := by
  rw [← bankSwitch_pending s hp]
  exact if_pos (by simpa using h)

end Sys2Proof.Machine

open Sys2Proof Sys2Proof.Machine

/-- Settles O19: what each write makes of the pending bank, and a Chanter's switch by what waits and what is in force. -/
theorem patchCommands : Obligations.PatchCommands := by
  refine ⟨fun s hs => ⟨fun j w ha => ?_, fun i w ha => ?_, fun w ha hw => ?_, fun w ha => ?_⟩, fun s hs => ⟨fun w ha hw => ?_, ?_⟩⟩
  · rw [exec_patchRowCommit, onPort_writeWith_answers s w _ hs ha, State.rowCommit]
    exact ⟨fun h => by rw [patWrite_taken _ _ h]; rfl, fun h => by rw [patWrite_refused _ _ h]⟩
  · rw [exec_nanoWordCommit, onPort_writeWith_answers s w _ hs ha, State.nanoCommit]
    exact ⟨fun h => by rw [patWrite_taken _ _ h]; rfl, fun h => by rw [patWrite_refused _ _ h]⟩
  · have hexec : exec (.patClear w) s = .next (s.storeReg PAT_CTRL.adr w).patClear.settle := by
      rw [exec_patClear, onPort_writeWith_answers s w _ hs ha, if_pos hw]
    refine ⟨hexec, fun h => ?_, fun h => by rw [hexec, patClear_refused _ h]⟩
    dsimp only
    rw [patClear_taken _ h, pending'_setPending]
    exact ⟨rfl, rfl, fun _ => ⟨rfl, rfl⟩, fun i => ⟨enCleared_off _ i, enCleared_off _ i⟩,
      fun hm he i => ⟨enCleared_rest hm i, enCleared_rest he i⟩⟩
  · rw [exec_patInjectArm, onPort_writeWith_answers s w _ hs ha]
    rfl
  · have hexec : exec (.activate w) s = .next (s.storeReg PAT_CTRL.adr w).patActivate.settle := by
      rw [exec_activate, onPort_writeWith_answers s w _ hs ha, if_pos hw]
    exact ⟨hexec, patActivate_allOn _, fun k hk hact => ⟨patActivate_off _ hk hact, patActivate_on _ hk hact⟩,
      fun hact => by rw [hexec, patActivate_pending _ hact]⟩
  · intro k hact hp hdue
    rw [exec_patchBankSwitch, live_works s _ hs, patSwitch_due s hp hdue]
    exact ⟨fun hwait => by rw [patDone_waits (s.turned k.val) hwait]; rfl,
      fun hlast => by rw [patDone_last (s.turned k.val) (by rw [turned_actPending, hact]) hlast]; rfl⟩
end

section
/-! VALIDATE and its check, the stripe view and the temperature hold (R166, R182, R188, R380). -/

namespace Sys2Proof.Machine

variable (s : State)

theorem exec_validate (w : Word32) :
    exec (.validate w) s = onPort s (·.writeWith GEO_CTRL.adr w fun s => if bit w 0 then s.validateStart else s) := rfl

theorem exec_validateDone : exec .validateDone s = liveTop s State.validateDone := rfl

theorem exec_stripeSelWrite (w : Word32) :
    exec (.stripeSelWrite w) s = onPort s (·.writeWith GEO_STRIPE_SEL.adr w State.stripeSel) := rfl

theorem exec_tempWrite (g : Fin 16) (w : Word32) :
    exec (.tempWrite g w) s = onPort s (·.writeWith (GEO_TEMP.adr g.val) w (·.updateHold g.val)) := rfl

/-! ### The check (R166) -/

/-- What a VALIDATE is refused for (reason 1): a tag is held, or an APPLY runs. -/
theorem validateBlocked_iff : (!s.heldTags.isEmpty || (List.range 8).any fun q => s.on (PHY_STAT.APPLY_BUSY q)) = true
    ↔ s.heldTags ≠ [] ∨ ∃ q, q < 8 ∧ s.on (PHY_STAT.APPLY_BUSY q) = true := by
  simp

theorem validateStart_refused (hb : s.on GEO_STAT.BUSY = false)
    (h : s.heldTags ≠ [] ∨ ∃ q, q < 8 ∧ s.on (PHY_STAT.APPLY_BUSY q) = true) :
    s.validateStart = (s.put GEO_STAT.REASON 1).put GEO_STAT.INDEX 0 := by
  rw [State.validateStart, hb, if_neg Bool.false_ne_true, if_pos ((validateBlocked_iff s).2 h)]

theorem validateStart_captures (hb : s.on GEO_STAT.BUSY = false) (ht : s.heldTags = [])
    (hq : ∀ q, q < 8 → s.on (PHY_STAT.APPLY_BUSY q) = false) :
    s.validateStart = { s.put GEO_STAT.BUSY 1 with checking := some s.geoNow } := by
  have hfree : ¬ (s.heldTags ≠ [] ∨ ∃ q, q < 8 ∧ s.on (PHY_STAT.APPLY_BUSY q) = true) := by
    rintro (h | ⟨q, hq8, h⟩)
    · exact h ht
    · exact absurd h (by simp [hq q hq8])
  rw [State.validateStart, hb, if_neg Bool.false_ne_true, if_neg (mt (validateBlocked_iff s).1 hfree)]

theorem validateDone_fails {t : Tab Word32} {c i : Nat} (hc : s.checking = some t)
    (hv : (({ s with checking := none } : State).put GEO_STAT.BUSY 0).geoVerdict t = some (c, i)) :
    s.validateDone = ((({ s with checking := none } : State).put GEO_STAT.BUSY 0).put GEO_STAT.REASON c).put GEO_STAT.INDEX i := by
  simp only [State.validateDone, hc, hv]

/-- Captured values that pass come into force, with the abort bound of their slowest reset (R380) and the holds that they ask for. -/
theorem validateDone_passes {t : Tab Word32} (hc : s.checking = some t)
    (hv : (({ s with checking := none } : State).put GEO_STAT.BUSY 0).geoVerdict t = none) :
    s.validateDone = ((((({ ({ s with checking := none } : State).put GEO_STAT.BUSY 0 with force := t } : State).put GEO_STAT.VALID 1).put
      GEO_STAT.REASON 0).put GEO_STAT.INDEX 0).put TOP_ABORT_BOUND.BOUND (max 20 (tRstMax t + 50))).each (List.range 16) State.updateHold := by
  simp only [State.validateDone, hc, hv]

/-! ### The hold of a group (R182) -/

theorem updateHold_changes {g : Nat} (h : s.holdNow g ≠ s.on (GEO_TEMP.HOLD g)) :
    s.updateHold g = (s.put (GEO_TEMP.HOLD g) (s.holdNow g).toNat).raise 275 0
      (g + (s.holdNow g).toNat * 16 + s.get (GEO_TEMP.TEMP g) * 256) := if_neg (by simpa using h)

end Sys2Proof.Machine

open Sys2Proof Sys2Proof.Machine

/-- Settles O18: a VALIDATE by what blocks it, its end by the verdict, and the two writes by their one action. -/
theorem geometryCommands : Obligations.GeometryCommands := by
  refine fun s hs => ⟨fun w ha hw hb => ?_, fun t htop hc => ⟨fun c i hv => ?_, fun hv => ?_⟩, fun w ha => ?_, fun g w ha hchg => ?_⟩
  · have hexec : exec (.validate w) s = .next (s.storeReg GEO_CTRL.adr w).validateStart.settle := by
      rw [exec_validate, onPort_writeWith_answers s w _ hs ha, if_pos hw]
    exact ⟨fun ht hq => by rw [hexec, validateStart_captures _ hb ht hq], fun h => by rw [hexec, validateStart_refused _ hb h]⟩
  · rw [exec_validateDone, liveTop_works s _ ⟨hs, htop⟩, validateDone_fails s hc hv]
  · rw [exec_validateDone, liveTop_works s _ ⟨hs, htop⟩, validateDone_passes s hc hv]
  · rw [exec_stripeSelWrite, onPort_writeWith_answers s w _ hs ha]
    rfl
  · rw [exec_tempWrite, onPort_writeWith_answers s w _ hs ha, updateHold_changes _ hchg]
end

section
/-! Ring indices: laps, the next index and the entries between two (R194, R195, R197). -/

namespace Sys2Proof.Machine

variable {n h t i : Nat}

/-- The place of an index in its two laps. -/
theorem ixLin_laps (n i : Nat) : (i / 65536 % 2 = 0 ∧ ixLin n i = i % 65536) ∨ (i / 65536 % 2 = 1 ∧ ixLin n i = n + i % 65536) := by
  unfold ixLin
  rcases Nat.mod_two_eq_zero_or_one (i / 65536) with hlap | hlap
  · exact .inl ⟨hlap, by rw [hlap]; omega⟩
  · exact .inr ⟨hlap, by rw [hlap]; omega⟩

theorem ixLin_lt (hp : i % 65536 < n) : ixLin n i < 2 * n := by
  have hi := ixLin_laps n i
  omega

/-- Two indices in range have the same place only where they are the same. -/
theorem ixLin_inj (hh : h < 2 ^ 17) (ht : t < 2 ^ 17) (hph : h % 65536 < n) (hpt : t % 65536 < n) : ixLin n h = ixLin n t ↔ h = t := by
  have hlaps := ixLin_laps n h
  have htlaps := ixLin_laps n t
  omega

/-- The entries held: from the head on to the tail, round the end of the second lap where the tail is behind. -/
theorem ixCount_places (hph : h % 65536 < n) (hpt : t % 65536 < n) :
    (ixLin n h ≤ ixLin n t ∧ ixCount n h t = ixLin n t - ixLin n h)
      ∨ (ixLin n t < ixLin n h ∧ ixCount n h t = ixLin n t + 2 * n - ixLin n h) := by
  have hlh := ixLin_lt hph
  have hlt := ixLin_lt hpt
  unfold ixCount
  rcases Nat.lt_or_ge (ixLin n t) (ixLin n h) with hbehind | hahead
  · exact .inr ⟨hbehind, Nat.mod_eq_of_lt (by omega)⟩
  · refine .inl ⟨hahead, ?_⟩
    rw [show ixLin n t + 2 * n - ixLin n h = ixLin n t - ixLin n h + 2 * n by omega, Nat.add_mod_right, Nat.mod_eq_of_lt (by omega)]

theorem ixNext_inLap (hp : t % 65536 + 1 < n) : ixNext n t = t + 1 := if_neg (by omega)

theorem ixNext_turns (hp : t % 65536 + 1 = n) : ixNext n t = (1 - t / 65536 % 2) * 65536 := if_pos hp

theorem ixNext_pos_lt (hn : n ≤ 65536) (hp : t % 65536 < n) : ixNext n t % 65536 < n := by
  rcases Nat.lt_or_eq_of_le (Nat.succ_le_of_lt hp) with hin | hlast
  · rw [ixNext_inLap hin]; omega
  · rw [ixNext_turns hlast]; omega

/-- The next index is one place on, the first again after the last of the second lap. -/
theorem ixLin_ixNext (hn : n ≤ 65536) (hp : t % 65536 < n) :
    ixLin n (ixNext n t) = ixLin n t + 1 ∨ (ixLin n t + 1 = 2 * n ∧ ixLin n (ixNext n t) = 0) := by
  have hlaps := ixLin_laps n t
  have hnext := ixLin_laps n (ixNext n t)
  rcases Nat.lt_or_eq_of_le (Nat.succ_le_of_lt hp) with hin | hlast
  · rw [ixNext_inLap hin] at hnext ⊢; omega
  · rw [ixNext_turns hlast] at hnext ⊢; omega

theorem ixPhase_toNat (ht : t < 2 ^ 17) : (ixPhase t).toNat = 1 - t / 65536 := by
  unfold ixPhase
  rcases Nat.mod_two_eq_zero_or_one (t / 65536) with hlap | hlap
  · rw [hlap]
    change 1 = _
    omega
  · rw [hlap]
    change 0 = _
    omega

end Sys2Proof.Machine

open Sys2Proof Sys2Proof.Machine

/-- Settles O56: each clause by the place of its indices in the two laps. -/
theorem ringIndices : Obligations.RingIndices := by
  intro n h t hn hn16 hh ht hph hpt
  have hlh := ixLin_lt hph
  have hlt := ixLin_lt hpt
  have hinj := ixLin_inj hh ht hph hpt
  have hcount := ixCount_places hph hpt
  refine ⟨ixNext_inLap, fun hlast => ?_, ?_, ?_, fun hroom => ?_, fun d => ?_⟩
  · rw [ixNext_turns hlast]
    omega
  · rw [← hinj]
    omega
  · have hlaps := ixLin_laps n h
    have htlaps := ixLin_laps n t
    omega
  · have hnext := ixLin_ixNext hn16 hpt
    have hcount' := ixCount_places hph (ixNext_pos_lt hn16 hpt)
    omega
  · rw [← ixPhase_toNat ht, fresh, beq_iff_eq]
    cases dPhase d <;> cases ixPhase t <;> decide
end

section
/-! SQ_ENABLE, CQ_ENABLE, EV_ENABLE and EV_DISABLE (R201 to R203, R416). -/

namespace Sys2Proof.Machine

variable (s : State)

theorem exec_sqEnable (q : Fin 128) (w : Word32) :
    exec (.sqEnable q w) s = onPort s (·.writeWith (SQ_CFG.adr q.val) w (·.sqEnable q.val w)) := rfl

theorem exec_cqEnable (c : Fin 32) (w : Word32) :
    exec (.cqEnable c w) s = onPort s (·.writeWith (CQ_CFG.adr c.val) w (·.cqEnable c.val w)) := rfl

theorem exec_evEnable (r : Fin 2) (w : Word32) :
    exec (.evEnable r w) s = onPort s (·.writeWith (ringBase r.val) w (·.evEnable r.val w)) := rfl

theorem exec_evDisable (r : Fin 2) (w : Word32) :
    exec (.evDisable r w) s = onPort s (·.writeWith (ringBase r.val) w fun u => if bit w 30 then u.evDisable r.val else u) := rfl

/-! ### EN = 1 on what is disabled: the first reason, or none -/

section
variable {w : Word32} {s} (hw : bit w 31 = true)
include hw

theorem sqEnable_passes {q : Nat} (hd : s.on (SQ_STAT.ENABLED q) = false) (hc : s.sqCheck q = 0) : s.sqEnable q w =
    (((s.put (SQ_STAT.REASON q) 0).put (SQ_HEAD.INDEX q) 0).put (SQ_TAIL.INDEX q) 0).put (SQ_STAT.ENABLED q) 1 := by
  simp [State.sqEnable, hw, hd, hc]

theorem sqEnable_fails {q : Nat} (hd : s.on (SQ_STAT.ENABLED q) = false) (hc : s.sqCheck q ≠ 0) :
    s.sqEnable q w = s.put (SQ_STAT.REASON q) (s.sqCheck q) := by
  simp [State.sqEnable, hw, hd, hc]

theorem cqEnable_passes {c : Nat} (hd : s.cqEnabled c = false) (hc : s.cqCheck c = 0) : s.cqEnable c w =
    (((s.put (CQ_STAT.REASON c) 0).put (CQ_HEAD.INDEX c) 0).put (CQ_TAIL.INDEX c) 0).put (CQ_STAT.ENABLED c) 1 := by
  simp [State.cqEnable, hw, hd, hc]

theorem cqEnable_fails {c : Nat} (hd : s.cqEnabled c = false) (hc : s.cqCheck c ≠ 0) :
    s.cqEnable c w = s.put (CQ_STAT.REASON c) (s.cqCheck c) := by
  simp [State.cqEnable, hw, hd, hc]

theorem evEnable_passes {r : Nat} (hno : bit w 30 = false) (hd : s.on (evF r EV_STAT.ENABLED) = false) (hc : s.evCheck r = 0) :
    s.evEnable r w =
      (((s.put (evF r EV_STAT.REASON) 0).put (evF r EV_HEAD.INDEX) 0).put (evF r EV_TAIL.INDEX) 0).put (evF r EV_STAT.ENABLED) 1 := by
  simp [State.evEnable, hw, hno, hd, hc]

theorem evEnable_fails {r : Nat} (hno : bit w 30 = false) (hd : s.on (evF r EV_STAT.ENABLED) = false) (hc : s.evCheck r ≠ 0) :
    s.evEnable r w = s.put (evF r EV_STAT.REASON) (s.evCheck r) := by
  simp [State.evEnable, hw, hno, hd, hc]

end

/-! ### DISABLE (R416) -/

/-- A record write of ring r is ready or outstanding. -/
theorem evOut_iff (r : Nat) : s.evOut r = true ↔ ∃ x ∈ s.ready ++ s.flying, ∃ l, x.cont = .event r l := by
  have hcont : ∀ x : Spool, (match x.cont with | .event y _ => y == r | _ => false) = true ↔ ∃ l, x.cont = .event r l := by
    intro x
    cases x.cont <;> simp
  unfold State.evOut
  dsimp only
  rw [← List.any_append, List.any_eq_true]
  exact exists_congr fun x => and_congr_right fun _ => hcont x

theorem evDisable_eq (r : Nat) : s.evDisable r =
    if !s.on (evF r EV_STAT.ENABLED) then s
    else if s.evOut r then s.modRing r fun x => { x with disabling := true } else s.put (evF r EV_STAT.ENABLED) 0 := by
  unfold State.evDisable
  rw [← Bool.not_or]
  change (if _ then s else if (!s.evOut r) = true then _ else _) = _
  cases s.evOut r <;> rfl

section
variable {s} {r : Nat} (hon : s.on (evF r EV_STAT.ENABLED) = true)
include hon

theorem evDisable_atOnce (hidle : ∀ x ∈ s.ready ++ s.flying, ∀ l, x.cont ≠ .event r l) : s.evDisable r = s.put (evF r EV_STAT.ENABLED) 0 := by
  have hout : ¬ s.evOut r = true := fun h => by
    obtain ⟨x, hx, l, hl⟩ := (evOut_iff s r).1 h
    exact hidle x hx l hl
  rw [evDisable_eq, if_neg (by simp [hon]), if_neg hout]

theorem evDisable_waits (hout : ∃ x ∈ s.ready ++ s.flying, ∃ l, x.cont = .event r l) :
    s.evDisable r = s.modRing r fun x => { x with disabling := true } := by
  rw [evDisable_eq, if_neg (by simp [hon]), if_pos ((evOut_iff s r).2 hout)]

end

end Sys2Proof.Machine

open Sys2Proof Sys2Proof.Machine

/-- Settles O16: each write by its check's verdict, a DISABLE by the record writes that are out. -/
theorem queueAndRingEnables : Obligations.QueueAndRingEnables := by
  refine ⟨fun s hs => ⟨fun q w ha hw hd => ?_, fun c w ha hw hd => ?_⟩, fun s hs r w ha => ⟨fun hno hw hd hc => ?_, fun hno hw hd hc => ?_,
    fun hw hon hidle => ?_, fun hw hon hout => ?_⟩⟩
  · rw [exec_sqEnable, onPort_writeWith_answers s w _ hs ha]
    exact ⟨fun hc => by rw [sqEnable_passes hw hd hc], fun hc => by rw [sqEnable_fails hw hd hc]⟩
  · rw [exec_cqEnable, onPort_writeWith_answers s w _ hs ha]
    exact ⟨fun hc => by rw [cqEnable_passes hw hd hc], fun hc => by rw [cqEnable_fails hw hd hc]⟩
  · rw [exec_evEnable, onPort_writeWith_answers s w _ hs ha, evEnable_passes hw hno hd hc]
  · rw [exec_evEnable, onPort_writeWith_answers s w _ hs ha, evEnable_fails hw hno hd hc]
  · rw [exec_evDisable, onPort_writeWith_answers s w _ hs ha, if_pos hw, evDisable_atOnce hon hidle]
  · rw [exec_evDisable, onPort_writeWith_answers s w _ hs ha, if_pos hw, evDisable_waits hon hout]
end

section
/-! The Completion Overflow Store: the first insertion, and what one puts into the entry and its CQ (R219, R220, R265). -/

namespace Sys2Proof.Machine

variable (s : State)

/-! ### What raising an event leaves -/

/-- t differs from s at most in what raising events moves: registers, rings, snapshots to be taken and the Tether's wake state. -/
def State.EventFrame (s t : State) : Prop := { t with regs := s.regs, rings := s.rings, tet := s.tet, snaps := s.snaps } = s

theorem State.EventFrame.refl : s.EventFrame s := rfl

theorem State.EventFrame.trans {s t u : State} (h : s.EventFrame t) (k : t.EventFrame u) : s.EventFrame u :=
  Eq.trans (congrArg (fun x : State => { x with regs := s.regs, rings := s.rings, tet := s.tet, snaps := s.snaps }) k) h

theorem State.eventFrame_fireSlot (j : Nat) : s.EventFrame (s.fireSlot j) := by
  unfold State.fireSlot
  split
  · dsimp only
    split <;> rfl
  · rfl

theorem State.eventFrame_fireSource (src : Nat) : s.EventFrame (s.fireSource src) := by
  refine State.each_keeps (P := s.EventFrame) (fun u j _ hu => ?_) (.refl s)
  split
  · exact hu.trans (u.eventFrame_fireSlot j)
  · exact hu

theorem State.eventFrame_enqueue (ring : Nat) (r : EvRec) : s.EventFrame (s.enqueue ring r) := by
  unfold State.enqueue
  dsimp only
  split
  · rfl
  · split
    · rfl
    · split
      · split <;> rfl
      · rfl

theorem State.eventFrame_raise (src sev info : Nat) (h : Option Holder) : s.EventFrame (s.raise src sev info h) := by
  unfold State.raise
  split
  · rfl
  · dsimp only
    generalize hu : (if (src != 279) = true then (s.fireSource src).sawWork else s.fireSource src) = u
    have hsu : s.EventFrame u := by
      subst hu
      split
      · exact (s.eventFrame_fireSource src).trans rfl
      · exact s.eventFrame_fireSource src
    split
    · exact hsu.trans rfl
    · refine hsu.trans (.trans ?_ (State.eventFrame_enqueue _ _ _))
      split <;> rfl

/-! ### What leaves the completions -/

/-- t has the tags, the COS and the completion queues of s. -/
structure State.KeepsCompletions (s t : State) : Prop where
  tags : t.tags = s.tags
  cos : t.cos = s.cos
  cqs : t.cqs = s.cqs

theorem State.KeepsCompletions.refl : s.KeepsCompletions s := ⟨rfl, rfl, rfl⟩

theorem State.KeepsCompletions.trans {s t u : State} (h : s.KeepsCompletions t) (k : t.KeepsCompletions u) : s.KeepsCompletions u :=
  ⟨k.tags.trans h.tags, k.cos.trans h.cos, k.cqs.trans h.cqs⟩

theorem State.EventFrame.keepsCompletions {s t : State} (h : s.EventFrame t) : s.KeepsCompletions t where
  tags := (congrArg State.tags h :)
  cos := (congrArg State.cos h :)
  cqs := (congrArg State.cqs h :)

theorem State.keepsCompletions_put (f : Fld) (v : Nat) : s.KeepsCompletions (s.put f v) := ⟨rfl, rfl, rfl⟩

theorem State.keepsCompletions_modChan (n : Nat) (f : Chan → Chan) : s.KeepsCompletions (s.modChan n f) := ⟨rfl, rfl, rfl⟩

theorem State.keepsCompletions_later (x : Todo) : s.KeepsCompletions (s.later x) := ⟨rfl, rfl, rfl⟩

/-! ### An insertion -/

/-- A completion's detail in the COS: of a status that Table 7.8 marks, only whether the deadline had passed (R265). -/
def State.cosDetail (t : Nat) (c : Cpl) : Nat := if statusDeadline c.status then (if (s.tagOf t).past then 0x22 else 0) else c.detail

/-- The completion stands in its entry, its tag is marked and waits at its CQ; a missed deadline is counted. -/
def State.entered (t : Nat) (c : Cpl) : State :=
  let u := if statusDeadline c.status && (s.tagOf t).past then s.bump BRD_CNT_MISSED.COUNT 1 else s
  (({ u with cos := tabIns t { c with sq := (s.tagOf t).sq, detail := s.cosDetail t c } (tabDrop t u.cos) } : State).modTag t
    fun x => { x with inserted := true }).modCq (s.tagOf t).cq fun q => { q with waiting := q.waiting ++ [t] }

theorem cosPut_inserted {t : Nat} (c : Cpl) (h : (s.tagOf t).inserted = true) : s.cosPut t c = s := by simp [State.cosPut, h]

theorem cosInsert_inserted {t : Nat} (c : Cpl) (h : (s.tagOf t).inserted = true) : s.cosInsert t c = s := by simp [State.cosInsert, h]

/-- EV_COS_HIGH as the COS reaches its mark, once until it has emptied. -/
def State.cosTold : State :=
  if s.cosUsed = 3584 && !s.ballast.cosHighTold then { s with ballast := { s.ballast with cosHighTold := true } }.raise 265 0 s.cosUsed else s

/-- Staging that an insertion frees (R24). -/
def State.stageFreed (t : Nat) : State :=
  s.each (List.range 32) fun u n =>
    if (u.chanOf n).staging.any (u.stageOver t) then
      u.modChan n fun ch => { ch with staging := ch.staging.filter (fun g => !u.stageOver t g) } else u

theorem cosPut_first {t : Nat} (c : Cpl) (hh : (s.tagOf t).held = true) (hi : (s.tagOf t).inserted = false) :
    s.cosPut t c = (((s.entered t c).put TOP_COS.PEAK (max ((s.entered t c).get TOP_COS.PEAK) (s.entered t c).cosUsed)).cosTold.stageFreed
      t).later (.inserted t) :=
  if_neg (by simp [hh, hi])

theorem State.keepsCompletions_cosTold : s.KeepsCompletions s.cosTold := by
  have htold : s.KeepsCompletions { s with ballast := { s.ballast with cosHighTold := true } } := ⟨rfl, rfl, rfl⟩
  unfold State.cosTold
  split
  · exact htold.trans (State.eventFrame_raise _ _ _ _ _).keepsCompletions
  · exact .refl s

theorem State.keepsCompletions_stageFreed (t : Nat) : s.KeepsCompletions (s.stageFreed t) := by
  refine State.each_keeps (P := s.KeepsCompletions) (fun u n _ hu => ?_) (.refl s)
  split
  · exact hu.trans (u.keepsCompletions_modChan _ _)
  · exact hu

/-- After the entry is filled an insertion moves the COS's peak, its event and freed staging alone. -/
theorem cosPut_keeps_entered {t : Nat} (c : Cpl) (hh : (s.tagOf t).held = true) (hi : (s.tagOf t).inserted = false) :
    (s.entered t c).KeepsCompletions (s.cosPut t c) := by
  rw [cosPut_first s c hh hi]
  exact (State.keepsCompletions_put _ _ _).trans ((State.keepsCompletions_cosTold _).trans
    ((State.keepsCompletions_stageFreed _ t).trans (State.keepsCompletions_later _ _)))

theorem entered_tagOf (t : Nat) (c : Cpl) : ((s.entered t c).tagOf t).inserted = true := by
  unfold State.entered
  rw [State.modCq_tagOf, State.tagOf_modTag, if_pos rfl]

theorem entered_cosOf (t : Nat) (c : Cpl) : (s.entered t c).cosOf t = { c with sq := (s.tagOf t).sq, detail := s.cosDetail t c } := by
  refine (tabGet_tabIns _ _ _ _ (fun e he => ?_) t).trans (if_pos rfl)
  simpa [tabDrop] using (List.mem_filter.1 he).2

theorem entered_waiting (t : Nat) (c : Cpl) :
    ((s.entered t c).cqOf (s.tagOf t).cq).waiting = (s.cqOf (s.tagOf t).cq).waiting ++ [t] := by
  unfold State.entered
  rw [State.cqOf_modCq, if_pos rfl]
  split <;> rfl

end Sys2Proof.Machine

open Sys2Proof Sys2Proof.Machine

/-- Settles O41: both ways into the COS look at the mark first. -/
theorem firstInsertionIsFinal : Obligations.FirstInsertionIsFinal :=
  fun s _ c h => ⟨cosPut_inserted s c h, cosInsert_inserted s c h⟩

/-- Settles O42: the filled entry stands as an insertion ends. -/
theorem insertionFillsTheEntry : Obligations.InsertionFillsTheEntry := by
  intro s t c hh hi
  have hkeep := cosPut_keeps_entered s c hh hi
  refine ⟨?_, ?_, ?_⟩
  · rw [State.tagOf, hkeep.tags]
    exact entered_tagOf s t c
  · rw [State.cosOf, hkeep.cos]
    exact entered_cosOf s t c
  · rw [State.cqOf, hkeep.cqs]
    exact entered_waiting s t c
end

section
/-! Refetches of stale entries (R211): none while the SQ is disabled. -/

namespace Sys2Proof.Machine

variable (s : State)

theorem exec_staleRefetch (q : Fin 128) (t : Fin 4096) : exec (.staleRefetch q t) s = liveTop s (·.staleNext q.val t.val) := rfl

/-- A disabled SQ fetches nothing, whatever stands at its head. -/
theorem staleNext_disabled {q : Nat} (t : Nat) (hd : s.on (SQ_STAT.ENABLED q) = false) : s.staleNext q t = s := by
  unfold State.staleNext
  split
  · rfl
  · rw [if_pos (by simp [hd])]

/-- The block after start-up, SQ 0 disabled, with an entry of the wrong phase in its fetch buffer at the head. -/
def staleDisabled : State :=
  (((({ pins := { resetN := true, faultN := true, pwrReq := BitVec.allOnes 28, pwrAck := BitVec.allOnes 28, cclkReq := true, cclkAck := true },
        tet := { usable := BitVec.allOnes 28 } } : State).put TET_PWR_STAT.BLOCK blockActive).put TET_STARTUP.READY 1)).modSq 0
    fun x => { x with fetched := [(0, 0)] }

end Sys2Proof.Machine

open Sys2Proof Sys2Proof.Machine

/-- Refutes O39: its clause on the refetch does not ask that the SQ be enabled. With SQ 0 disabled and a stale entry at its head, STALE_REFETCH
moves nothing, where the clause has it try once more. -/
theorem not_fetchCommands : ¬ Obligations.FetchCommands := by
  intro h
  obtain ⟨hworks, hengine, hoff⟩ : staleDisabled.Works ∧ staleDisabled.engineOn = true ∧ staleDisabled.on (SQ_STAT.ENABLED 0) = false := by
    decide +kernel
  obtain ⟨hstale, hout, htries⟩ : staleDisabled.staleHead 0 = some 0 ∧ staleDisabled.refetchOut 0 = false
      ∧ (staleDisabled.sqOf 0).tries < 8 := by decide +kernel
  have hasks := ((h staleDisabled 0 hworks hengine).2 0 0 hstale hout).1 htries
  rw [exec_staleRefetch, liveTop_works _ _ ⟨hworks, by decide +kernel⟩, staleNext_disabled (q := (0 : Fin 128).val) _ _ hoff] at hasks
  have htold := congrArg (fun u : State => (u.sqOf 0).tries) (Host.Outcome.next.inj hasks)
  exact absurd htold (by decide +kernel)
end

section
/-! The intake of a descriptor and the rows of Table 7.3 (R215, R216, R263). -/

namespace Sys2Proof.Machine

variable (s : State)

/-- The commands of Table 7.3's descriptors but NOP's, which takes in more than its own opcode. -/
def descCommands : List (Nat × (Fin 128 → Fin 4096 → Instr)) :=
  [(opRead, .read), (opReadRaw, .readRaw), (opCopy, .copy), (opAppend, .programAppend), (opProgAt, .programAt), (opErase, .erase),
    (opEraseCheck, .eraseCheck), (opStripeOpen, .stripeOpen), (opStripeClose, .stripeClose), (opSubstitute, .substitute),
    (opRebuild, .rebuild), (opTallyWrite, .tallyWrite), (opTallyScan, .tallyScan), (opFlush, .flush), (opAbort, .abort),
    (opRlhSync, .rlhSync), (opDieCmd, .dieCmd), (opRoutine, .routine)]

theorem exec_descCommand {r : Nat × (Fin 128 → Fin 4096 → Instr)} (hr : r ∈ descCommands) (q : Fin 128) (t : Fin 4096) :
    exec (r.2 q t) s = liveTop s (·.intake r.1 q.val t.val) := by
  simp only [descCommands, List.mem_cons, List.not_mem_nil, or_false] at hr
  rcases hr with rfl | rfl | rfl | rfl | rfl | rfl | rfl | rfl | rfl | rfl | rfl | rfl | rfl | rfl | rfl | rfl | rfl | rfl <;>
    rfl

theorem descCommands_ne_nop : ∀ r ∈ descCommands, r.1 ≠ opNop := by decide

theorem exec_nop (q : Fin 128) (t : Fin 4096) : exec (.nop q t) s = liveTop s (·.intake opNop q.val t.val) := rfl

/-- The state in which the front descriptor of SQ q has left its queue, the turn has passed on and the tag is taken. -/
def State.tagTaken (q t : Nat) (d : Desc) : State :=
  let u := if s.native q then s.modSq q fun x => { x with slot := x.slot.drop 1 } else s.headNext q
  ({ u with rrSq := (q + 1) % 128 } : State).newTag t q d

theorem newTag_tagOf (t q : Nat) (d : Desc) : ((s.newTag t q d).tagOf t).held = true ∧ ((s.newTag t q d).tagOf t).desc = d
    ∧ ((s.newTag t q d).tagOf t).sq = q ∧ ((s.newTag t q d).tagOf t).inserted = false := by
  unfold State.newTag
  dsimp only
  rw [State.tagOf_modTag, if_pos rfl]
  exact ⟨rfl, rfl, rfl, rfl⟩

section
variable {s} {q t : Nat} {d : Desc}

theorem takeIn_bad {st x : Nat} (hb : (s.tagTaken q t d).intakeBad ((s.tagTaken q t d).tagOf t).tenant d = some (st, x)) :
    s.takeIn q t d = (s.tagTaken q t d).complete t st x 0 0 := by
  unfold State.tagTaken at hb ⊢
  simp only [State.takeIn, hb]

theorem takeIn_good (hb : (s.tagTaken q t d).intakeBad ((s.tagTaken q t d).tagOf t).tenant d = none) :
    s.takeIn q t d = (s.tagTaken q t d).takeOn t := by
  unfold State.tagTaken at hb ⊢
  simp only [State.takeIn, hb]

end

/-- Tag t is free, and d is the front descriptor of SQ q, whose turn it is while intake goes on. -/
structure State.MayTakeIn (q t : Nat) (d : Desc) : Prop where
  works : s.TopWorks
  engine : s.engineOn = true
  unchecked : s.on GEO_STAT.BUSY = false
  free : (s.tagOf t).held = false
  turn : s.nextSq = some q
  front : s.sqFront q = some d

/-- The row of opcode op takes d in: by its opcode, or as NOP's one that Table 7.3 does not list (log 34). -/
def rowTakes (op : Nat) (d : Desc) : Prop := dOp d = op ∨ (op = opNop ∧ opcodes.contains (dOp d) = false)

section
variable {s} {q t op : Nat} {d : Desc} {c : Instr} (hexec : exec c s = liveTop s (·.intake op q t)) (h : s.MayTakeIn q t d)
include h

theorem intake_front : s.intake op q t = if dOp d = op || (op = opNop && !opcodes.contains (dOp d)) then s.takeIn q t d else s := by
  obtain ⟨-, he, hb, hh, hn, hf⟩ := h
  simp only [State.intake, he, hb, hh, hn, hf, Bool.not_true, Bool.or_self, bne_self_eq_false, Bool.false_eq_true, if_false]

include hexec

theorem exec_intake_takes (ht : rowTakes op d) : exec c s = .next (s.takeIn q t d).settle := by
  rw [hexec, liveTop_works s _ h.works, intake_front h, if_pos (by simpa [rowTakes] using ht)]

theorem exec_intake_other (ht : ¬ rowTakes op d) : exec c s = .next s.settle := by
  rw [hexec, liveTop_works s _ h.works, intake_front h, if_neg (by simpa [rowTakes] using ht)]

end

end Sys2Proof.Machine

open Sys2Proof Sys2Proof.Machine

/-- Settles O40: the intake by its first failed check, a row by what it takes in. -/
theorem descriptorIntake : Obligations.DescriptorIntake := by
  refine ⟨fun s q t d => ?_, fun s q t d hs he hb hh hn hf => ?_⟩
  · obtain ⟨hheld, hdesc, hsq, hins⟩ := newTag_tagOf
      { (if s.native q then s.modSq q fun x => { x with slot := x.slot.drop 1 } else s.headNext q) with rrSq := (q + 1) % 128 } t q d
    exact ⟨hheld, hdesc, hsq, hins, fun _ _ => takeIn_bad, takeIn_good⟩
  · have hmay : s.MayTakeIn q.val t.val d := ⟨hs, he, hb, hh, hn, hf⟩
    refine ⟨fun r hr => ?_, fun hop => ?_, fun hop => ?_, fun hop hlisted => ?_⟩
    · have hexec := exec_descCommand s hr q t
      have hnop := descCommands_ne_nop r hr
      exact ⟨fun hop => exec_intake_takes hexec hmay (.inl hop), fun hop => exec_intake_other hexec hmay (by simp [rowTakes, hop, hnop])⟩
    · exact exec_intake_takes (exec_nop s q t) hmay (.inl hop)
    · exact exec_intake_takes (exec_nop s q t) hmay (.inr ⟨rfl, hop⟩)
    · exact exec_intake_other (exec_nop s q t) hmay (by simpa [rowTakes, hop] using hlisted)
end

section
/-! COMPLETION_WRITE, CQ_STALL, EVENT_RECORD_WRITE and HOLDOFF_END (R221 to R226, R415, R418, R423). -/

namespace Sys2Proof.Machine

variable (s : State)

theorem exec_completionWrite (c : Fin 32) : exec (.completionWrite c) s = liveTop s (·.cplWrite c.val) := rfl

theorem exec_cqStall (c : Fin 32) : exec (.cqStall c) s = liveTop s (·.cqStall c.val) := rfl

theorem exec_eventRecordWrite (r : Fin 2) : exec (.eventRecordWrite r) s = liveTop s (·.evWrite r.val) := rfl

theorem exec_holdoffEnd (r : Fin 2) : exec (.holdoffEnd r) s = liveTop s (·.modRing r.val fun x => { x with holdoff := false }) := rfl

/-! ### Completion writes -/

theorem writable_length_le (n : Nat) (l : List Nat) : (s.writable n l).length ≤ n := by
  induction n generalizing l with
  | zero => exact Nat.le_refl 0
  | succ n ih =>
    cases l with
    | nil => exact Nat.zero_le _
    | cons t l =>
      unfold State.writable
      split
      · exact Nat.zero_le _
      · exact Nat.succ_le_succ (ih l)

/-- The places of CQ c that one beat from its tail can take. -/
def State.cplRoom (c : Nat) : Nat := min (4 - s.cqTail c % 65536 % 4) (s.cqN c - s.cqCount c)

/-- The completion writer may take up CQ c. -/
structure State.CplMay (c : Nat) : Prop where
  running : s.halted = false
  unreset : s.freset.busy = false
  enabled : s.cqEnabled c = true
  unfailed : (s.cqOf c).retry = false
  idle : s.cplOut c = false
  unheld : s.cplHeld c = false

section
variable {s} {c : Nat} (h : s.CplMay c)
include h

theorem cplWrite_again (hi : (s.cqOf c).issued ≠ []) : s.cplWrite c = ((s.cqOf c).issued.foldl State.cplHead s).cplSend c (s.cqOf c).issued := by
  simp [State.cplWrite, h.running, h.unreset, h.enabled, h.unfailed, h.idle, h.unheld, hi]

theorem cplWrite_oldest {ts : List Nat} (hi : (s.cqOf c).issued = []) (hw : s.writable (s.cplRoom c) (s.cqOf c).waiting = ts) (hts : ts ≠ []) :
    s.cplWrite c = ts.foldl State.descDone ((ts.foldl (fun x t => (x.cplLate t).cplHead t)
      (s.modCq c fun q => { q with waiting := q.waiting.drop ts.length })).cplSend c ts) := by
  obtain ⟨t, l, rfl⟩ := List.exists_cons_of_ne_nil hts
  unfold State.cplRoom at hw
  unfold State.cplWrite
  dsimp only
  rw [if_neg (by simp [h.running, h.unreset, h.enabled, h.unfailed, h.idle, h.unheld]), if_neg (by simp [hi]), hw]

end

/-! ### A CQ that stays full (R225) -/

theorem cqStall_tells {c : Nat} (hf : s.cqFull c = true) (hl : s.get (CQ_STALL.LIMIT c) ≠ 0) (ht : (s.cqOf c).stallTold = false) :
    s.cqStall c = ((s.put (CQ_STAT.STALLED c) 1).modCq c fun q => { q with stallTold := true }).raise 263 0
      (c + s.cqWait c % 2 ^ 13 * 2 ^ 16) :=
  if_neg (by simp [hf, hl, ht])

theorem cqStall_told {c : Nat} (ht : (s.cqOf c).stallTold = true) : s.cqStall c = s := if_pos (by simp [ht])

/-! ### Event records -/

/-- The places of ring r that one beat from its tail can take. -/
def State.evRoom (r : Nat) : Nat :=
  min (4 - s.get (evF r EV_TAIL.INDEX) % 65536 % 4)
    (s.evN r - ixCount (s.evN r) (s.get (evF r EV_HEAD.INDEX)) (s.get (evF r EV_TAIL.INDEX)))

/-- A record write of ring r may go out. -/
structure State.EvMay (r : Nat) : Prop where
  running : s.halted = false
  enabled : s.on (evF r EV_STAT.ENABLED) = true
  undisabling : (s.ringOf r).disabling = false
  unhalted : (s.ringOf r).halted = false
  idle : s.evOut r = false

section
variable {s} {r : Nat} (h : s.EvMay r)
include h

theorem evWrite_again (ho : (s.ringOf r).out ≠ []) : s.evWrite r = s.evSend r (s.ringOf r).out := by
  simp [State.evWrite, h.running, h.enabled, h.undisabling, h.unhalted, h.idle, ho]

theorem evWrite_queued (ho : (s.ringOf r).out = []) (hq : (s.ringOf r).queue.take (s.evRoom r) ≠ []) : s.evWrite r =
    ((s.modRing r fun x => { x with queue := x.queue.drop (s.evRoom r) }).evSend r ((s.ringOf r).queue.take (s.evRoom r))).refillRing r := by
  obtain ⟨e, l, hl⟩ := List.exists_cons_of_ne_nil hq
  unfold State.evRoom at hl ⊢
  unfold State.evWrite
  dsimp only
  rw [if_neg (by simp [h.running, h.enabled, h.undisabling, h.unhalted, h.idle]), if_neg (by simp [ho]), hl]

end

end Sys2Proof.Machine

open Sys2Proof Sys2Proof.Machine

/-- Settles O43: a CQ by what it has to retry, a ring by what its failed write left. -/
theorem completionAndEventWrites : Obligations.CompletionAndEventWrites := by
  refine ⟨fun s c hs => ⟨fun hh hf he hr ho hl => ⟨fun hi => ?_, fun ts hi hw hts => ⟨?_, ?_⟩⟩, fun hf hl ht => ?_, fun _ ht => ?_⟩,
    fun s r hs => ⟨?_, fun hh he hd hl ho => ⟨fun hout => ?_, fun hout hq => ?_⟩⟩⟩
  · rw [exec_completionWrite, liveTop_works s _ hs, cplWrite_again ⟨hh, hf, he, hr, ho, hl⟩ hi]
  · have hlen : ts.length ≤ s.cplRoom c.val := hw ▸ writable_length_le s _ _
    exact Nat.le_trans hlen (Nat.le_trans (Nat.min_le_left _ _) (Nat.sub_le _ _))
  · rw [exec_completionWrite, liveTop_works s _ hs, cplWrite_oldest ⟨hh, hf, he, hr, ho, hl⟩ hi hw hts]
  · rw [exec_cqStall, liveTop_works s _ hs, cqStall_tells s hf hl ht]
  · rw [exec_cqStall, liveTop_works s _ hs, cqStall_told s ht]
  · rw [exec_holdoffEnd, liveTop_works s _ hs]
  · rw [exec_eventRecordWrite, liveTop_works s _ hs, evWrite_again ⟨hh, he, hd, hl, ho⟩ hout]
  · rw [exec_eventRecordWrite, liveTop_works s _ hs, evWrite_queued ⟨hh, he, hd, hl, ho⟩ hout hq]
    rfl
end

section
/-! Code words: the scrambler undoes itself (R273 to R276, R282), and the encoder's parity satisfies H (R277 to R280). -/

namespace Sys2Proof.Machine

/-! ### XOR of byte strings -/

@[simp] theorem xorBytes_nil (k : List Byte) : xorBytes [] k = [] := by cases k <;> rfl

@[simp] theorem xorBytes_length (l k : List Byte) : (xorBytes l k).length = l.length := by
  induction l generalizing k with
  | nil => rw [xorBytes_nil]
  | cons a l ih =>
    cases k with
    | nil => rfl
    | cons b k => simp [xorBytes, ih]

/-- XOR with one string undoes itself, whatever the two lengths. -/
@[simp] theorem xorBytes_xorBytes (l k : List Byte) : xorBytes (xorBytes l k) k = l := by
  induction l generalizing k with
  | nil => simp
  | cons a l ih =>
    cases k with
    | nil => rfl
    | cons b k => rw [xorBytes, xorBytes, BitVec.xor_assoc, BitVec.xor_self, BitVec.xor_zero, ih]

/-- Of a stored code word, the information is scrambled and the parity follows it (R273). -/
theorem storedForm_take (m : Nat) (seed : Word32) {info : List Byte} (h : info.length = infoBytes) :
    (storedForm m seed info).take infoBytes = xorBytes info (keystream infoBytes seed) :=
  List.take_left' ((xorBytes_length _ _).trans h)

/-- The information of an unscrambled code word is its own XOR the keystream (R282). -/
theorem unscramble_take (m : Nat) (seed : Word32) {cw : List Byte} (h : infoBytes ≤ cw.length) :
    (unscramble m (some seed) cw).take infoBytes = xorBytes (cw.take infoBytes) (keystream infoBytes seed) :=
  List.take_left' ((xorBytes_length _ _).trans (List.length_take_of_le h))

theorem infoBytes_le_storedForm_length (m : Nat) (seed : Word32) {info : List Byte} (h : info.length = infoBytes) :
    infoBytes ≤ (storedForm m seed info).length := by
  simp [storedForm, h]

/-! ### Bytes and blocks (R271) -/

theorem natLe_length (n v : Nat) : (natLe n v).length = n := by
  induction n generalizing v with
  | zero => rfl
  | succ n ih => simp [natLe, ih]

/-- The number that the n low bytes of v spell. -/
theorem leNat_natLe (n v : Nat) : leNat (natLe n v) = v % 256 ^ n := by
  induction n generalizing v with
  | zero => simp [natLe, leNat, Nat.mod_one]
  | succ n ih => rw [natLe, leNat, ih, BitVec.toNat_ofNat, Nat.pow_succ' (m := 256), Nat.mod_mul]

/-- A block's 16 bytes are read back as the block. -/
theorem blk_of_natLe (b : Blk) : BitVec.ofNat 128 (leNat (natLe 16 b.toNat)) = b := by
  have hlt : b.toNat < 256 ^ 16 := b.isLt
  rw [leNat_natLe, Nat.mod_eq_of_lt hlt, BitVec.ofNat_toNat, BitVec.setWidth_eq]

theorem toBlocks_ofBlocks (l : List Blk) : toBlocks l.length (ofBlocks l) = l := by
  induction l with
  | nil => rfl
  | cons b l ih =>
    have hb : (natLe 16 b.toNat).length = 16 := natLe_length 16 _
    have hcons : ofBlocks (b :: l) = natLe 16 b.toNat ++ ofBlocks l := rfl
    rw [List.length_cons, toBlocks, hcons, List.take_left' hb, List.drop_left' hb, blk_of_natLe, ih]

/-- The first n blocks are those of the first 16 n bytes. -/
theorem toBlocks_append {n : Nat} {l : List Byte} (h : 16 * n ≤ l.length) (r : List Byte) : toBlocks n (l ++ r) = toBlocks n l := by
  induction n generalizing l with
  | zero => rfl
  | succ n ih =>
    have h16 : 16 ≤ l.length := by omega
    have hrest : 16 * n ≤ (l.drop 16).length := by rw [List.length_drop]; omega
    rw [toBlocks, toBlocks, List.take_append_of_le_length h16, List.drop_append_of_le_length h16, ih hrest]

/-! ### The checks of H (R279, R280) -/

theorem xorAt_length (l : List Blk) (i : Nat) (b : Blk) : (xorAt l i b).length = l.length := List.length_modify ..

/-- One sum for every block row. -/
theorem ldpcSums_length (m : Nat) (x : List Blk) : (ldpcSums m x).length = m := by
  unfold ldpcSums
  refine List.foldlRecOn (motive := fun s : List Blk => s.length = m) _ _ List.length_replicate fun s hs bj _ => ?_
  exact List.foldlRecOn (motive := fun s : List Blk => s.length = m) _ _ hs fun s hs k _ => (xorAt_length ..).trans hs

theorem runXor_length (p : Blk) (l : List Blk) : (runXor p l).length = l.length := by
  induction l generalizing p with
  | nil => rfl
  | cons s l ih => simp [runXor, ih]

/-- The check of every block row, from the rows' sums, the parity blocks q and the block p before them. -/
def rowChecks (p : Blk) (s q : List Blk) : List Blk := (s.zip (q.zip (p :: q))).map fun x => x.1 ^^^ x.2.1 ^^^ x.2.2

theorem ldpcSyndrome_eq (m : Nat) (cw : List Byte) :
    ldpcSyndrome m cw = rowChecks 0 (ldpcSums m (toBlocks 258 cw)) (toBlocks m (cw.drop infoBytes)) := rfl

/-- In the running XOR each parity block is its row's sum XOR the block before it, so every row's check is 0. -/
theorem rowChecks_runXor (p : Blk) (s : List Blk) : ∀ b ∈ rowChecks p s (runXor p s), b = 0 := by
  induction s generalizing p with
  | nil => simp [rowChecks]
  | cons a s ih =>
    have hrow : a ^^^ (a ^^^ p) ^^^ p = 0 := by rw [← BitVec.xor_assoc, BitVec.xor_self, BitVec.zero_xor]; exact BitVec.xor_self
    have hstep : rowChecks p (a :: s) (runXor p (a :: s)) = (a ^^^ (a ^^^ p) ^^^ p) :: rowChecks (a ^^^ p) s (runXor (a ^^^ p) s) := rfl
    rw [hstep, hrow]
    exact List.forall_mem_cons.2 ⟨rfl, ih (a ^^^ p)⟩

/-- The information part of an encoded word gives the sums that the encoder had. -/
theorem toBlocks_encoded_info (m : Nat) {info : List Byte} (h : info.length = infoBytes) :
    toBlocks 258 (info ++ ldpcParity m info) = toBlocks 258 info :=
  toBlocks_append (h ▸ Nat.le_refl infoBytes) _

/-- The parity of an encoded word is read back block by block. -/
theorem toBlocks_encoded_parity (m : Nat) {info : List Byte} (h : info.length = infoBytes) :
    toBlocks m ((info ++ ldpcParity m info).drop infoBytes) = runXor 0 (ldpcSums m (toBlocks 258 info)) := by
  have hlen : (runXor 0 (ldpcSums m (toBlocks 258 info))).length = m := (runXor_length ..).trans (ldpcSums_length ..)
  have hread := toBlocks_ofBlocks (runXor 0 (ldpcSums m (toBlocks 258 info)))
  rw [hlen] at hread
  rw [List.drop_left' h]
  exact hread

theorem popcount_zero (n : Nat) : popcount n 0 = 0 := by
  induction n with
  | zero => rfl
  | succ n ih => simp [popcount, ih]

/-- A word whose checks are all 0 has weight 0. -/
theorem ldpcWeight_eq_zero {m : Nat} {cw : List Byte} (h : ∀ b ∈ ldpcSyndrome m cw, b = 0) : ldpcWeight m cw = 0 := by
  have hzeros : ldpcSyndrome m cw = List.replicate (ldpcSyndrome m cw).length 0 := List.eq_replicate_of_mem h
  have hpop : popcount 128 (0 : Blk).toNat = 0 := popcount_zero 128
  rw [ldpcWeight, hzeros, List.map_replicate, hpop, List.sum_replicate_nat, Nat.mul_zero]

end Sys2Proof.Machine

open Sys2Proof Sys2Proof.Machine

/-- Settles O58: both directions XOR the same keystream. -/
theorem scramblerGivesBack : Obligations.ScramblerGivesBack := by
  refine fun m seed info h => ⟨xorBytes_xorBytes _ _, ?_⟩
  rw [unscramble_take m seed (infoBytes_le_storedForm_length m seed h), storedForm_take m seed h, xorBytes_xorBytes]

/-- Settles O59: the encoder forms its parity as the running XOR of the rows' sums. -/
theorem encoderSatisfiesChecks : Obligations.EncoderSatisfiesChecks := by
  refine fun m info _ h => ldpcWeight_eq_zero ?_
  rw [ldpcSyndrome_eq, toBlocks_encoded_info m h, toBlocks_encoded_parity m h]
  exact rowChecks_runXor 0 _
end

section
/-! Deadlines, periods and waits (R303, R333, R359, R373): a pass record that R323 bars for good is padded for no longer. -/

namespace Sys2Proof.Machine

variable (s : State)

theorem exec_padWaitExpiry (g : Fin 1024) : exec (.padWaitExpiry g) s = liveTop s (·.padWait g.val) := rfl

/-- Records whose later pass may never start call for no pads (log entry 98). -/
theorem padWait_dead {g : Nat} (h : ∀ r ∈ (s.lunOf g).recs, r.dead = true) : s.padWait g = s := by
  have hnone : (s.lunOf g).recs.filter (fun r => !r.dead && s.padWanted g r && !s.fineMay g r.eb r.page) = [] :=
    List.filter_eq_nil_iff.2 fun r hr => by simp [h r hr]
  simp [State.padWait, hnone]

/-- The block after start-up, with a two-pass die kind of eight pages, two to a word line. Pages 0 and 1 of LUN 0's horizon block 5 hold
records; the first pass of page 2 has failed, which bars their fine passes for good, and a first pass on block 6 waits for the horizon. -/
def padsBarred : State :=
  (({ pins := { resetN := true, faultN := true, pwrReq := BitVec.allOnes 28, pwrAck := BitVec.allOnes 28, cclkReq := true, cclkAck := true },
      tet := { usable := BitVec.allOnes 28 },
      force := [(GEO_DK_CTRL.adr 0, 0x80200000), (GEO_DK_GEOM.adr 0, 7), (GEO_DK_WL.adr 0, 0x01000000)],
      ops := [{ role := .first, loc := { lun := 0, eb := 6 } }] } : State).put TET_PWR_STAT.BLOCK blockActive).put TET_STARTUP.READY 1
    |>.modLun 0 fun l => { l with
      recs := [{ eb := 5, page := 0, planes := 1, dead := true }, { eb := 5, page := 1, planes := 1, dead := true }],
      horizon := some (5, 0), frontier := [{ eb := 5, planes := 1, np := 3, halt := some 1 }] }

end Sys2Proof.Machine

open Sys2Proof Sys2Proof.Machine

/-- Refutes O51: its clause on PAD_WAIT_EXPIRY pads for records that R323 bars for good as well. In `padsBarred` it queues a pad on page 3 of
block 5, where the model makes none (log entry 98). -/
theorem not_periodCommands : ¬ Obligations.PeriodCommands := by
  intro h
  obtain ⟨htop, hdead⟩ : padsBarred.TopWorks ∧ ∀ r ∈ (padsBarred.lunOf 0).recs, r.dead = true := by decide +kernel
  obtain ⟨-, -, -, hpads⟩ := h padsBarred htop
  have hpad := hpads 0
  rw [exec_padWaitExpiry, liveTop_works _ _ htop, padWait_dead (g := (0 : Fin 1024).val) _ hdead] at hpad
  have hops := congrArg (fun u : State => u.ops.length) (Host.Outcome.next.inj hpad)
  exact absurd hops (by decide +kernel)
end

section
/-! Decode jobs: their start, the report that ends one, and its slice's faults (R284 to R289, R439, R446, R448). -/

namespace Sys2Proof.Machine

variable {s : State} {sl : Fin 18} {j : Job} {rep : DecodeReport}

/-! ### The commands -/

theorem exec_decodeJobStart : exec (.decodeJobStart sl) s = liveTop s (·.jobStart sl.val) := rfl

theorem exec_decodeJobDone : exec (.decodeJobDone sl rep) s = liveTop s (·.jobDone sl rep) := rfl

theorem exec_sliceJobOverrun :
    exec (.sliceJobOverrun sl) s = liveTop s (·.sliceFault sl 3 fun j => j.tagNo + j.mode.code * 2 ^ 12) := rfl

/-! ### The start (R288, R290) -/

theorem jobStart_free (hact : (s.sliceOf sl.val).st = sliceActive) (hfree : (s.sliceOf sl.val).job = none)
    (hpow : s.usable (pdB (sl.val / 2)) = true) (hbuf : s.tet.bank32 = true) (hh : s.halted = false) (hnext : s.nextJob = some j) :
    s.jobStart sl.val = ({ s with jobs := s.jobs.erase j } : State).modSlice sl.val fun x => { x with job := some { j with
      limit := if j.mode = .bf then s.get BLW_CTRL.ITER_BF_M1 + 1 else s.get BLW_CTRL.ITER_MS_M1 + 1 } } := by
  simp [State.jobStart, hact, hfree, hpow, hbuf, hh, hnext]

/-! ### A word is judged (R285, R298) -/

/-- What becomes of job j and the word of report rep, of the given weight, once its slice is free: nothing for a job that nobody waits for,
else the first uncorrectable store error of its data, else the checks and the CRC. -/
def State.jobJudged (u : State) (j : Job) (rep : DecodeReport) (weight : Nat) : State :=
  match u.jobStores j rep.sram with
  | (poison, v) =>
    if j.dead then v
    else match poison with
    | some d => v.jobPoisoned j d
    | none => if weight = 0 && (v.jobParity j || crcOk rep.word) then v.jobGood j rep.word else v.jobBad j weight (weight = 0)

section
variable {u v : State} {weight : Nat}

theorem jobJudged_dead {poison : Option Nat} (hst : u.jobStores j rep.sram = (poison, v)) (hd : j.dead = true) :
    u.jobJudged j rep weight = v := by
  simp [State.jobJudged, hst, hd]

theorem jobJudged_poisoned {d : Nat} (hst : u.jobStores j rep.sram = (some d, v)) (hd : j.dead = false) :
    u.jobJudged j rep weight = v.jobPoisoned j d := by
  simp [State.jobJudged, hst, hd]

variable (hd : j.dead = false) (hr : rep.sram = [])
include hd hr

/-- Without store errors the word is judged by its checks and its CRC alone (R285). -/
theorem jobJudged_noReads : u.jobJudged j rep weight =
    if weight = 0 && (u.jobParity j || crcOk rep.word) then u.jobGood j rep.word else u.jobBad j weight (weight = 0) := by
  simp [State.jobJudged, State.jobStores, hr, hd]

theorem jobJudged_good (hw : weight = 0) (hc : (u.jobParity j || crcOk rep.word) = true) :
    u.jobJudged j rep weight = u.jobGood j rep.word := by
  simp [jobJudged_noReads hd hr, hw, hc]

theorem jobJudged_crcBad (hw : weight = 0) (hc : (u.jobParity j || crcOk rep.word) = false) :
    u.jobJudged j rep weight = u.jobBad j 0 true := by
  simp [jobJudged_noReads hd hr, hw, hc]

theorem jobJudged_checksFail (hw : weight ≠ 0) : u.jobJudged j rep weight = u.jobBad j weight false := by
  simp [jobJudged_noReads hd hr, hw]

end

/-! ### The end of a job by its report -/

section
variable (hj : (s.sliceOf sl.val).job = some j)
include hj

/-- A fault sends the job back, with its tag in the slice's capture (R448). -/
theorem sliceFault_running (code : Nat) (ctx : Job → Nat) :
    s.sliceFault sl code ctx = (s.sliceLost sl code j.tagNo (ctx j)).requeue j := by
  simp only [State.sliceFault, hj]

/-- All that the report of a job's end can do. A report beyond the iteration limit, or of a min-sum job that stops short of it with checks
unsatisfied, is none that a slice gives (log entry 80); an armed slice faults (R446), as does one that reports a fault (R448). -/
theorem jobDone_eq : s.jobDone sl rep =
    (let weight := ldpcWeight (s.ldpcM j.loc.lun) rep.word
     if j.limit < rep.iters then s
     else if s.ballast.sliceArmed = some sl.val then
       (({ s with ballast := { s.ballast with sliceArmed := none } } : State).sliceLost sl 1 j.tagNo j.tagNo).requeue j
     else if rep.sliceErr = 1 ∨ rep.sliceErr = 2 then (s.sliceLost sl rep.sliceErr.toNat j.tagNo j.tagNo).requeue j
     else if j.mode.soft = true ∧ rep.iters < j.limit ∧ weight ≠ 0 then s
     else (s.modSlice sl.val fun x => { x with job := none }).jobJudged j rep weight) := by
  have herr : (decide (rep.sliceErr = 1) || decide (rep.sliceErr = 2)) = true ↔ rep.sliceErr = 1 ∨ rep.sliceErr = 2 := by
    rw [Bool.or_eq_true, decide_eq_true_eq, decide_eq_true_eq]
  have hshort : (j.mode.soft && decide (rep.iters < j.limit) && ldpcWeight (s.ldpcM j.loc.lun) rep.word != 0) = true
      ↔ j.mode.soft = true ∧ rep.iters < j.limit ∧ ldpcWeight (s.ldpcM j.loc.lun) rep.word ≠ 0 := by
    rw [Bool.and_eq_true, Bool.and_eq_true, decide_eq_true_eq, bne_iff_ne, and_assoc]
  unfold State.jobDone
  rw [hj]
  refine ite_congr rfl (fun _ => rfl) fun _ => ite_congr (propext beq_iff_eq) (fun _ => ?armed) fun _ =>
    ite_congr (propext herr) (fun _ => ?faulty) fun _ => ite_congr (propext hshort) (fun _ => rfl) fun _ => rfl
  case armed => exact sliceFault_running (s := { s with ballast := { s.ballast with sliceArmed := none } }) hj ..
  case faulty => exact sliceFault_running hj ..

end

end Sys2Proof.Machine

open Sys2Proof Sys2Proof.Machine

/-- Settles O52: a start by the first job, an end by the first reason that keeps its word from being judged, else by the word. -/
theorem decodeCommands : Obligations.DecodeCommands := by
  refine fun s sl j hs => ⟨fun hact hfree hpow hbuf hh hnext => ?_, fun hj => ⟨?_, fun rep hlim => ?_, fun rep hlim harm => ?_,
    fun rep hlim harm herr => ?_, fun rep hlim harm hne1 hne2 => ⟨fun hsoft hshort hw => ?_, fun hend p v hst => ?_⟩⟩, fun r => rfl⟩
  · rw [exec_decodeJobStart, liveTop_works s _ hs, jobStart_free hact hfree hpow hbuf hh hnext]
  · rw [exec_sliceJobOverrun, liveTop_works s _ hs, sliceFault_running hj]
    rfl
  · rw [exec_decodeJobDone, liveTop_works s _ hs, jobDone_eq hj, if_pos hlim]
  · rw [exec_decodeJobDone, liveTop_works s _ hs, jobDone_eq hj, if_neg (Nat.not_lt.2 hlim), if_pos harm]
    rfl
  · rw [exec_decodeJobDone, liveTop_works s _ hs, jobDone_eq hj, if_neg (Nat.not_lt.2 hlim), if_neg harm, if_pos herr]
    rfl
  · rw [exec_decodeJobDone, liveTop_works s _ hs, jobDone_eq hj, if_neg (Nat.not_lt.2 hlim), if_neg harm, if_neg (not_or.2 ⟨hne1, hne2⟩),
      if_pos ⟨hsoft, hshort, hw⟩]
  · have hjudged : ¬ (j.mode.soft = true ∧ rep.iters < j.limit ∧ ldpcWeight (s.ldpcM j.loc.lun) rep.word ≠ 0) := by
      rintro ⟨hsoft, hshort, hw⟩
      rcases hend with h | h | h
      · exact Bool.false_ne_true (h.symm.trans hsoft)
      · exact Nat.ne_of_lt hshort h
      · exact hw h
    rw [exec_decodeJobDone, liveTop_works s _ hs, jobDone_eq hj, if_neg (Nat.not_lt.2 hlim), if_neg harm, if_neg (not_or.2 ⟨hne1, hne2⟩),
      if_neg hjudged]
    refine ⟨fun hd => ?_, fun d hd hp => ?_, fun hr => ?_, fun hd hr hw hc => ?_, fun hd hr hw hc => ?_, fun hd hr hw => ?_⟩
    · rw [jobJudged_dead hst hd]
    · rw [jobJudged_poisoned (hp ▸ hst) hd]
    · rw [hr] at hst
      obtain ⟨rfl, rfl⟩ := Prod.mk.inj hst
      exact ⟨rfl, rfl⟩
    · rw [jobJudged_good hd hr hw hc]
    · rw [jobJudged_crcBad hd hr hw hc]
    · rw [jobJudged_checksFail hd hr hw]
end

section
/-! GF(2^8) as the parity engine computes in it, and the missing members of a row (R316, R318). -/

namespace Sys2Proof.Machine

/-! ### Maps of bytes that add and that commute with doubling -/

theorem gfDouble_xor (a b : Byte) : gfDouble (a ^^^ b) = gfDouble a ^^^ gfDouble b := by
  unfold gfDouble
  rw [BitVec.getLsbD_xor, BitVec.shiftLeft_xor_distrib]
  cases a.getLsbD 7 <;> cases b.getLsbD 7
  · rfl
  · exact BitVec.xor_assoc ..
  · simp only [Bool.xor_false, Bool.false_eq_true, if_false, if_true]; ac_rfl
  · calc a <<< 1 ^^^ b <<< 1
      _ = a <<< 1 ^^^ b <<< 1 ^^^ (0x1D#8 ^^^ 0x1D#8) := by rw [BitVec.xor_self, BitVec.xor_zero]
      _ = (a <<< 1 ^^^ 0x1D#8) ^^^ (b <<< 1 ^^^ 0x1D#8) := by ac_rfl

/-- Linear over GF(2) and over doubling, and so over all of GF(2^8). -/
structure GfLinear (f : Byte → Byte) : Prop where
  xor : ∀ a b, f (a ^^^ b) = f a ^^^ f b
  double : ∀ a, f (gfDouble a) = gfDouble (f a)

theorem GfLinear.zero {f : Byte → Byte} (hf : GfLinear f) : f 0 = 0 := by
  have h := hf.xor 0 0
  rwa [BitVec.xor_self, BitVec.xor_self] at h

/-- A linear map passes through the first factor of a product. -/
theorem GfLinear.map_gfMulN {f : Byte → Byte} (hf : GfLinear f) (n : Nat) (a b : Byte) :
    f (gfMulN n a b) = gfMulN n (f a) b := by
  induction n generalizing a b with
  | zero => exact hf.zero
  | succ n ih => rw [gfMulN, gfMulN, hf.xor, ih, hf.double, apply_ite f, hf.zero]

theorem GfLinear.map_gfMul {f : Byte → Byte} (hf : GfLinear f) (a b : Byte) : f (gfMul a b) = gfMul (f a) b :=
  hf.map_gfMulN 8 a b

theorem gfShift_linear (k : Nat) : GfLinear (gfShift k) := by
  induction k with
  | zero => exact ⟨fun _ _ => rfl, fun _ => rfl⟩
  | succ k ih =>
    exact ⟨fun a b => by rw [gfShift, ih.xor, gfDouble_xor]; rfl, fun a => congrArg gfDouble (ih.double a)⟩

theorem gfMulN_linear (n : Nat) (c : Byte) : GfLinear (gfMulN n · c) := by
  refine ⟨?xor, ?double⟩
  case xor =>
    intro a b
    induction n generalizing a b c with
    | zero => exact (BitVec.xor_self (x := 0)).symm
    | succ n ih =>
      simp only [gfMulN, gfDouble_xor, ih]
      cases c.getLsbD 0
      · simp
      · simp only [if_true]; ac_rfl
  case double => exact fun a => ((⟨gfDouble_xor, fun _ => rfl⟩ : GfLinear gfDouble).map_gfMulN n a c).symm

theorem gfMul_linear (c : Byte) : GfLinear (gfMul · c) := gfMulN_linear 8 c

/-! ### Products and quotients -/

theorem one_gfMul (b : Byte) : gfMul 1 b = b := by
  revert b
  decide +kernel

theorem gfMul_right_comm (a b c : Byte) : gfMul (gfMul a b) c = gfMul (gfMul a c) b := (gfMul_linear c).map_gfMul a b

theorem gfPow2_eq_gfShift (k : Nat) : gfPow2 k = gfShift k 1 := by
  induction k with
  | zero => rfl
  | succ k ih => exact congrArg gfDouble ih

theorem gfPow2_gfMul (k : Nat) (d : Byte) : gfMul (gfPow2 k) d = gfShift k d := by
  rw [gfPow2_eq_gfShift, ← (gfShift_linear k).map_gfMul, one_gfMul]

theorem gfPow2_add (k n : Nat) : gfPow2 (k + n) = gfShift k (gfPow2 n) := by
  induction k with
  | zero => rw [Nat.zero_add]; rfl
  | succ k ih => rw [Nat.succ_add]; exact congrArg gfDouble ih

theorem gfPow_gfPow2 (k n : Nat) : gfPow (gfPow2 k) n = gfPow2 (k * n) := by
  induction n with
  | zero => rfl
  | succ n ih => rw [gfPow, ih, gfPow2_gfMul, ← gfPow2_add, Nat.mul_succ, Nat.add_comm]

theorem gfPow2_255 : gfPow2 255 = 1 := by
  decide +kernel

theorem gfPow2_mul_255 (k : Nat) : gfPow2 (k * 255) = 1 := by
  induction k with
  | zero => rw [Nat.zero_mul]; rfl
  | succ k ih => rw [Nat.succ_mul, gfPow2_add, gfPow2_255, ← gfPow2_eq_gfShift, ih]

/-- 255 is a multiple of the order of 2, so the 254th power of a power of 2 is its inverse. -/
theorem gfPow_gfPow2_255 (n : Nat) : gfPow (gfPow2 n) 255 = 1 := (gfPow_gfPow2 n 255).trans (gfPow2_mul_255 n)

theorem gfDiv_gfShift (n : Nat) (d : Byte) : gfDiv (gfShift n d) (gfPow2 n) = d :=
  calc gfMul (gfShift n d) (gfPow (gfPow2 n) 254)
    _ = gfMul (gfMul (gfPow2 n) d) (gfPow (gfPow2 n) 254) := by rw [gfPow2_gfMul]
    _ = gfMul (gfPow (gfPow2 n) 255) d := gfMul_right_comm ..
    _ = d := by rw [gfPow_gfPow2_255, one_gfMul]

/-! ### The missing members, byte by byte (R318) -/

/-- The logarithms of 1 + 2^k to base 2, for the distances k of two members. -/
theorem exists_one_xor_gfPow2 : ∀ k < 32, 0 < k → ∃ n < 255, 1 ^^^ gfPow2 k = gfPow2 n := by
  decide +kernel

theorem exists_gfPow2_xor_of_lt {x y : Nat} (hxy : x < y) (hy : y < 32) : ∃ n, gfPow2 x ^^^ gfPow2 y = gfPow2 n := by
  obtain ⟨n, -, hn⟩ := exists_one_xor_gfPow2 (y - x) (by omega) (by omega)
  refine ⟨x + n, ?_⟩
  calc gfPow2 x ^^^ gfPow2 y
    _ = gfShift x 1 ^^^ gfShift x (gfPow2 (y - x)) := by rw [← gfPow2_add, ← gfPow2_eq_gfShift, Nat.add_sub_cancel' (Nat.le_of_lt hxy)]
    _ = gfPow2 (x + n) := by rw [← (gfShift_linear x).xor, hn, gfPow2_add]

/-- The divisor 2^x + 2^y of two members is itself a power of 2. -/
theorem exists_gfPow2_xor {x y : Nat} (hx : x < 32) (hy : y < 32) (hxy : x ≠ y) : ∃ n, gfPow2 x ^^^ gfPow2 y = gfPow2 n := by
  rcases Nat.lt_or_gt_of_ne hxy with hlt | hgt
  · exact exists_gfPow2_xor_of_lt hlt hy
  · rw [BitVec.xor_comm]
    exact exists_gfPow2_xor_of_lt hgt hx

/-- Two members a and b of which P and Q hold the sums: 2^y times P taken from Q leaves (2^x + 2^y) a. -/
theorem gfShift_twoMissing (x y : Nat) (a b : Byte) :
    (gfShift x a ^^^ gfShift y b) ^^^ gfShift y (a ^^^ b) = gfMul (gfPow2 x ^^^ gfPow2 y) a :=
  calc (gfShift x a ^^^ gfShift y b) ^^^ gfShift y (a ^^^ b)
    _ = gfShift x a ^^^ gfShift y (b ^^^ (a ^^^ b)) := by rw [BitVec.xor_assoc, ← (gfShift_linear y).xor]
    _ = gfShift x a ^^^ gfShift y a := by rw [BitVec.xor_comm a b, ← BitVec.xor_assoc, BitVec.xor_self, BitVec.zero_xor]
    _ = gfMul (gfPow2 x ^^^ gfPow2 y) a := by rw [(gfMul_linear a).xor, gfPow2_gfMul, gfPow2_gfMul]

theorem gfDiv_twoMissing {x y : Nat} (hx : x < 32) (hy : y < 32) (hxy : x ≠ y) (a b : Byte) :
    gfDiv ((gfShift x a ^^^ gfShift y b) ^^^ gfShift y (a ^^^ b)) (gfPow2 x ^^^ gfPow2 y) = a := by
  obtain ⟨n, hn⟩ := exists_gfPow2_xor hx hy hxy
  rw [gfShift_twoMissing, hn, gfPow2_gfMul, gfDiv_gfShift]

theorem solveTwo_xorBytes {x y : Nat} (hx : x < 32) (hy : y < 32) (hxy : x ≠ y) {dx dy : List Byte} (hlen : dx.length = dy.length) :
    solveTwo x y (xorBytes dx dy) (xorBytes (dx.map (gfShift x)) (dy.map (gfShift y))) = dx := by
  induction dx generalizing dy with
  | nil => rw [List.map_nil, xorBytes_nil, xorBytes_nil]; rfl
  | cons a dx ih =>
    cases dy with
    | nil => cases hlen
    | cons b dy => exact List.cons_eq_cons.2 ⟨gfDiv_twoMissing hx hy hxy a b, ih (Nat.succ.inj hlen)⟩

theorem solveQ_map_gfShift (x : Nat) (d : List Byte) : solveQ x (d.map (gfShift x)) = d := by
  rw [solveQ, List.map_map]
  exact List.map_id'' (gfDiv_gfShift x) d

end Sys2Proof.Machine

open Sys2Proof Sys2Proof.Machine

/-- Settles O60: both quotients undo a product, since products by a fixed byte are linear and 2^x + 2^y is a power of 2 for members below 32. -/
theorem missingMembersAreSolved : Obligations.MissingMembersAreSolved :=
  fun x _ dx _ hx hy hxy hlen => ⟨solveTwo_xorBytes hx hy hxy hlen, solveQ_map_gfShift x dx⟩
end

section
/-! The function reset: its start, the bound's expiry and its end (R382, R383, R438). -/

namespace Sys2Proof.Machine

variable (s : State)

/-- The word that starts a function reset, with IMMEDIATE as given (R382). -/
def fresetWord (imm : Bool) : Word32 := if imm then 0x80000001#32 else 0x80000000#32

/-- The two starts are writes of TOP_FRESET that differ in IMMEDIATE alone. -/
theorem exec_freset (imm : Bool) : exec (if imm then .fresetImmediate else .fresetGraceful) s
    = onPort s (·.writeWith TOP_FRESET.adr (fresetWord imm) (·.fresetStart imm)) := by
  cases imm
  · rfl
  · rfl

theorem exec_fresetBoundExpiry : exec .fresetBoundExpiry s = liveTop s State.fresetBound := rfl

theorem exec_fresetDone : exec .fresetDone s = liveTop s State.fresetEnd := rfl

/-- TOP_FRESET_STAT as a reset's start leaves it (R383 step 2). -/
def State.fresetStat (now : Bool) : State :=
  ((((s.put TOP_FRESET_STAT.BUSY 1).put TOP_FRESET_STAT.MODE now.toNat).put TOP_FRESET_STAT.DROPPED s.cosUsed).put
    TOP_FRESET_STAT.ENTRIES 0).put TOP_FRESET_STAT.OVERFLOW 0

/-- The block as it enters step 3, what waits discarded (R383 steps 1 and 2). -/
def State.fresetCleared (now : Bool) : State :=
  { (s.fresetStat now).fresetDiscard with
    freset := { busy := true, immediate := now, step := 3 }
    halted := false
    tet := { (s.fresetStat now).tet with waiting := none, shadow := [] } }

/-- A START that acts clears the block. IMMEDIATE mode, which a halted top takes too (R438), then resets the LUNs that still work. -/
theorem fresetStart_acts (imm : Bool) (h : s.fresetMay = true) :
    s.fresetStart imm = if imm || s.halted
      then (s.fresetCleared (imm || s.halted)).each (s.fresetCleared (imm || s.halted)).fresetTargets State.fresetLun
      else s.fresetCleared (imm || s.halted) := by
  rw [State.fresetStart, h, if_neg (by decide)]
  rfl

/-- In step 3 of a GRACEFUL reset the bound's expiry resets every LUN still busy or suspended. -/
theorem fresetBound_graceful (hb : s.freset.busy = true) (hi : s.freset.immediate = false) (h3 : s.freset.step = 3) :
    s.fresetBound = s.each ((s.luns.filter (fun e => e.2.busy || e.2.suspended)).map (·.1)) State.fresetLun := by
  rw [State.fresetBound, hb, hi, h3]
  rfl

end Sys2Proof.Machine

open Sys2Proof Sys2Proof.Machine

/-- Settles O17: a START by its mode, the expiry by the LUNs still busy or suspended, the end by the model's last step. -/
theorem functionResetCommands : Obligations.FunctionResetCommands := by
  refine fun s hs => ⟨fun imm ha hmay => ?_, fun htop hb hi h3 => ?_, fun htop _ _ => ?_⟩
  · rw [exec_freset, onPort_writeWith_answers s _ _ hs ha, fresetStart_acts (s.storeReg TOP_FRESET.adr (fresetWord imm)) imm hmay]
    rfl
  · rw [exec_fresetBoundExpiry, liveTop_works s _ ⟨hs, htop⟩, fresetBound_graceful s hb hi h3]
  · rw [exec_fresetDone, liveTop_works s _ ⟨hs, htop⟩]
end

section
/-! The end of a command: its requests in order, the snapshots of its fast events, and the pins (R395, R423, R424). -/

namespace Sys2Proof.Machine

variable (s : State)

/-! ### Sorting by insertion behind equal keys -/

section Sorting

variable {α : Type} (key : α → Nat)

/-- Insertion before the first greater key is Mathlib's ordered insertion by the strict order of the keys. -/
theorem insBy_eq_orderedInsert (x : α) (l : List α) : insBy key x l = l.orderedInsert (fun a b => key a < key b) x := by
  induction l with
  | nil => rfl
  | cons y l ih => rw [insBy, List.orderedInsert_cons, ih]

theorem insBy_perm (x : α) (l : List α) : (insBy key x l).Perm (x :: l) := by
  rw [insBy_eq_orderedInsert]
  exact List.perm_orderedInsert _ x l

theorem insBy_pairwise (x : α) {l : List α} (h : l.Pairwise fun a b => key a ≤ key b) :
    (insBy key x l).Pairwise fun a b => key a ≤ key b := by
  induction l with
  | nil => exact List.pairwise_singleton _ x
  | cons y l ih =>
    obtain ⟨hy, hl⟩ := List.pairwise_cons.mp h
    unfold insBy
    split
    next hlt =>
      have hleast : ∀ b ∈ y :: l, key y ≤ key b := List.forall_mem_cons.mpr ⟨le_rfl, hy⟩
      exact List.pairwise_cons.mpr ⟨fun b hb => hlt.le.trans (hleast b hb), h⟩
    next hge =>
      refine List.pairwise_cons.mpr ⟨fun b hb => ?_, ih hl⟩
      obtain rfl | hb := List.mem_cons.mp ((insBy_perm key x l).mem_iff.mp hb)
      · exact Nat.le_of_not_lt hge
      · exact hy b hb

/-- In an ordered list x comes to stand last among the entries of its key, and those of other keys stay as they were. -/
theorem filter_insBy (x : α) {l : List α} (h : l.Pairwise fun a b => key a ≤ key b) (i : Nat) :
    (insBy key x l).filter (key · == i) = l.filter (key · == i) ++ [x].filter (key · == i) := by
  induction l with
  | nil => rfl
  | cons y l ih =>
    obtain ⟨hy, hl⟩ := List.pairwise_cons.mp h
    unfold insBy
    split
    next hlt =>
      have hleast : ∀ b ∈ y :: l, key y ≤ key b := List.forall_mem_cons.mpr ⟨le_rfl, hy⟩
      by_cases hx : key x = i
      · have hnone : (y :: l).filter (key · == i) = [] := List.filter_eq_nil_iff.mpr fun b hb => by
          have hyb := hleast b hb
          simp only [beq_iff_eq]
          omega
        rw [List.filter_cons, hnone, List.nil_append, List.filter_cons, List.filter_nil]
      · simp [List.filter_cons, hx]
    next => simp only [List.filter_cons (x := y), ih hl]; split <;> rfl

/-- A list sorted by inserting its entries in turn. -/
def sortBy (l : List α) : List α := l.foldl (fun l x => insBy key x l) []

theorem sortBy_concat (l : List α) (x : α) : sortBy key (l ++ [x]) = insBy key x (sortBy key l) := by
  rw [sortBy, List.foldl_append]
  rfl

theorem sortBy_perm (l : List α) : (sortBy key l).Perm l := by
  induction l using List.reverseRecOn with
  | nil => exact .refl _
  | append_singleton l x ih =>
    rw [sortBy_concat]
    exact (insBy_perm key x _).trans ((ih.cons x).trans (List.perm_append_singleton x l).symm)

theorem sortBy_pairwise (l : List α) : (sortBy key l).Pairwise fun a b => key a ≤ key b := by
  induction l using List.reverseRecOn with
  | nil => exact .nil
  | append_singleton l x ih =>
    rw [sortBy_concat]
    exact insBy_pairwise key x ih

/-- Entries of one key keep their order. -/
theorem filter_sortBy (l : List α) (i : Nat) : (sortBy key l).filter (key · == i) = l.filter (key · == i) := by
  induction l using List.reverseRecOn with
  | nil => rfl
  | append_singleton l x ih => rw [sortBy_concat, filter_insBy key x (sortBy_pairwise key l), ih, List.filter_append]

end Sorting

/-! ### What waits for the end of a command -/

/-- s with other requests ready and other events waiting for their snapshots. -/
def State.withWaiting (ready : List Spool) (snaps : List EvRec) : State := { s with ready := ready, snaps := snaps }

theorem setReg_withWaiting (ready : List Spool) (snaps : List EvRec) (a : Nat) (w : Word32) :
    (s.withWaiting ready snaps).setReg a w = (s.setReg a w).withWaiting ready snaps := rfl

theorem get_withWaiting (ready : List Spool) (snaps : List EvRec) (f : Fld) : (s.withWaiting ready snaps).get f = s.get f := rfl

theorem put_withWaiting (ready : List Spool) (snaps : List EvRec) (f : Fld) (v : Nat) :
    (s.withWaiting ready snaps).put f v = (s.put f v).withWaiting ready snaps := rfl

/-! ### The requests of a command (R395) -/

/-- A request that became ready in the command, as the command's end leaves it. -/
def Spool.aged (r : Spool) : Spool := { r with fresh := false }

/-- The requests that became ready in the command, in the order in which they line up. -/
def State.newReady : List Spool := sortBy Spool.sid ((s.ready.filter (·.fresh)).map Spool.aged)

theorem spoolSort_eq : s.spoolSort = s.withWaiting (s.ready.filter (!·.fresh) ++ s.newReady) s.snaps := by
  rw [State.newReady, sortBy, List.foldl_map]
  rfl

/-- The requests of one stream keep the order in which they became ready. -/
theorem filter_newReady (i : Nat) :
    s.newReady.filter (·.sid == i) = (s.ready.filter fun r => r.fresh && r.sid == i).map Spool.aged := by
  rw [State.newReady, filter_sortBy, List.filter_map, List.filter_filter]
  exact congrArg (List.map Spool.aged) (List.filter_congr fun r _ => Bool.and_comm ..)

theorem spoolSort_old (h : ∀ r ∈ s.ready, r.fresh = false) : s.spoolSort = s := by
  have hnew : s.ready.filter (·.fresh) = [] := List.filter_eq_nil_iff.mpr fun r hr => by simp [h r hr]
  have hold : s.ready.filter (!·.fresh) = s.ready := List.filter_eq_self.mpr fun r hr => by simp [h r hr]
  rw [spoolSort_eq, State.newReady, hnew, hold]
  exact congrArg (s.withWaiting · s.snaps) (List.append_nil _)

/-! ### The snapshots of a command (R424) -/

/-- t differs from s at most in registers from the snapshot slots on. -/
structure State.SnapFrame (s t : State) : Prop where
  rest : { t with regs := s.regs } = s
  regs : ∀ a, a < FEV_SNAP.adr 0 → t.reg a = s.reg a

theorem State.SnapFrame.refl : s.SnapFrame s := ⟨rfl, fun _ _ => rfl⟩

theorem State.SnapFrame.trans {s t u : State} (h : s.SnapFrame t) (k : t.SnapFrame u) : s.SnapFrame u where
  rest := Eq.trans (congrArg (fun x : State => { x with regs := s.regs }) k.rest) h.rest
  regs a ha := (k.regs a ha).trans (h.regs a ha)

theorem snapFrame_setReg {a : Nat} (h : FEV_SNAP.adr 0 ≤ a) (w : Word32) : s.SnapFrame (s.setReg a w) :=
  ⟨rfl, fun _ hb => State.reg_setReg_ne s (by omega) w⟩

theorem snapFrame_snapshot (r : EvRec) : s.SnapFrame (s.snapshot r) :=
  .trans (State.each_keeps (P := s.SnapFrame) (fun u _ _ hu => hu.trans (snapFrame_setReg u (by simp [FEV_SNAP.adr]) _)) (.refl s))
    (snapFrame_setReg _ (by decide) _)

theorem snapFrame_snapshots (l : List EvRec) : s.SnapFrame (l.foldl State.snapshot s) := by
  induction l generalizing s with
  | nil => exact .refl s
  | cons r l ih => rw [List.foldl_cons]; exact (snapFrame_snapshot s r).trans (ih _)

/-- The interrupt lines ask the same: the registers of the rings' indices stand below the snapshot slots. -/
theorem State.SnapFrame.irq {s t : State} (h : s.SnapFrame t) (r : Nat) (hr : r < 2) : t.irq r = s.irq r := by
  have hget : ∀ f : Fld, f.adr < 0x2100 → t.get (evF r f) = s.get (evF r f) := fun f hf => by
    rw [State.get, State.get, h.regs _ (by simp only [evF, FEV_SNAP.adr]; omega)]
  have hring : t.ringOf r = s.ringOf r := (congrArg (·.ringOf r) h.rest :)
  have htop : t.usable pdTop = s.usable pdTop := (congrArg (·.usable pdTop) h.rest :)
  unfold State.irq State.evN
  rw [htop, hring, hget EV_HEAD.INDEX (by decide), hget EV_TAIL.INDEX (by decide), hget EV_IRQ.COUNT (by decide),
    hget EV_CFG.LOG2N (by decide)]

/-- A snapshot neither reads nor moves what waits. -/
theorem snapshot_withWaiting (ready : List Spool) (snaps : List EvRec) (r : EvRec) :
    (s.withWaiting ready snaps).snapshot r = (s.snapshot r).withWaiting ready snaps := by
  have hslots : ∀ f : Nat → Nat, ∀ g : Nat → Word32, (s.withWaiting ready snaps).each [0, 1, 2, 3] (fun u k => u.setReg (f k) (g k))
      = (s.each [0, 1, 2, 3] fun u k => u.setReg (f k) (g k)).withWaiting ready snaps :=
    fun f g => List.foldl_hom (State.withWaiting · ready snaps) fun u k => setReg_withWaiting u ready snaps (f k) (g k)
  unfold State.snapshot
  dsimp only
  rw [get_withWaiting, hslots, get_withWaiting, put_withWaiting]

theorem snapshots_withWaiting (ready : List Spool) (snaps l : List EvRec) :
    l.foldl State.snapshot (s.withWaiting ready snaps) = (l.foldl State.snapshot s).withWaiting ready snaps :=
  List.foldl_hom (State.withWaiting · ready snaps) fun u r => snapshot_withWaiting u ready snaps r

/-! ### The end of a command in which nothing more is due -/

theorem doTodos_nil (h : s.todo = []) (n : Nat) : State.doTodos n s = s := by
  cases n with
  | zero => rfl
  | succ n => rw [State.doTodos, h]

theorem settleLoop_still (h : s.Still) (n : Nat) : State.settleLoop n s = s := by
  obtain ⟨htodo, hhouse⟩ := h
  cases n with
  | zero => rfl
  | succ n => rw [State.settleLoop, doTodos_nil s htodo, hhouse, htodo]; rfl

theorem settle_still (h : s.Still) : s.settle = s.spoolSort.snapAll.setIrqs := by
  obtain ⟨htodo, hhouse⟩ := h
  rw [State.settle, doTodos_nil s htodo, hhouse, settleLoop_still s ⟨htodo, hhouse⟩]

/-- The snapshots move nothing that the pins show: they show what the state before them asks. -/
theorem snapAll_setIrqs (ready : List Spool) : (s.withWaiting ready s.snaps).snapAll.setIrqs =
    { s.snaps.foldl State.snapshot s with
      snaps := [], ready := ready, pins := { s.pins with irqN := !s.irq 0, irqF := s.irq 1, pshReady := s.pshReady } } := by
  have hsnap : s.SnapFrame (s.snaps.foldl State.snapshot s) := snapFrame_snapshots s s.snaps
  have hall : (s.withWaiting ready s.snaps).snapAll = (s.snaps.foldl State.snapshot s).withWaiting ready [] :=
    snapshots_withWaiting s ready [] s.snaps
  have hirq : ∀ r, r < 2 → ((s.snaps.foldl State.snapshot s).withWaiting ready []).irq r = s.irq r := fun r hr => hsnap.irq r hr
  have hpins : ((s.snaps.foldl State.snapshot s).withWaiting ready []).pins = s.pins := (congrArg State.pins hsnap.rest :)
  have hpsh : ((s.snaps.foldl State.snapshot s).withWaiting ready []).pshReady = s.pshReady := (congrArg State.pshReady hsnap.rest :)
  rw [hall, State.setIrqs, hirq 0 (by decide), hirq 1 (by decide), hpins, hpsh]
  rfl

end Sys2Proof.Machine

open Sys2Proof Sys2Proof.Machine

/-- Settles O3: what is left of the command's end is the order of its requests, its snapshots and the pins. -/
theorem settledStateShowsPins : Obligations.SettledStateShowsPins := by
  refine fun u hu => ⟨⟨u.newReady, ?_, sortBy_pairwise _ _, sortBy_perm _ _, filter_newReady u⟩, fun hold hsnaps => ?_⟩
  · rw [settle_still u hu, spoolSort_eq, snapAll_setIrqs]
  · rw [settle_still u hu, spoolSort_old u hold]
    refine (snapAll_setIrqs u u.ready).trans ?_
    rw [hsnaps, List.foldl_nil]
end

section
/-! The canonical form of the sparse stores, and the step. -/

namespace Sys2Proof.Machine

/-- An index below every listed one reads as at reset. -/
theorem tabGet_below {α : Type} {d : Nat → α} {t : Tab α} {k : Nat} (h : ∀ e ∈ t, k < e.1) : tabGet d t k = d k := by
  induction t with
  | nil => rfl
  | cons e r ih =>
    rw [List.forall_mem_cons] at h
    rw [tabGet, if_neg h.1.ne', ih h.2]

theorem mem_tabIns {α : Type} {k : Nat} {v : α} {t : Tab α} {e : Nat × α} (h : e ∈ tabIns k v t) : e = (k, v) ∨ e ∈ t := by
  induction t with
  | nil => exact .inl (List.mem_singleton.1 h)
  | cons x r ih =>
    rw [tabIns] at h
    split at h
    · exact List.mem_cons.1 h
    · rcases List.mem_cons.1 h with rfl | h
      · exact .inr List.mem_cons_self
      · exact (ih h).imp id (List.mem_cons_of_mem _)

/-- Of two stores in canonical form, the one with the smaller first index reads there what the other does not. -/
theorem tabGet_first_ne {α : Type} {d : Nat → α} {i : Nat} {v : α} {r u : Tab α} (hv : v ≠ d i) (hu : ∀ e ∈ u, i < e.1) :
    tabGet d ((i, v) :: r) i ≠ tabGet d u i := by
  rw [tabGet_below hu, tabGet, if_pos rfl]
  exact hv

section
variable {α : Type} [DecidableEq α] {d : Nat → α}

theorem tabWf_cons {i : Nat} {v : α} {r : Tab α} : tabWf d ((i, v) :: r) = true ↔ v ≠ d i ∧ (∀ e ∈ r, i < e.1) ∧ tabWf d r = true := by
  simp [tabWf, and_assoc]

theorem tabWf_tabDrop {t : Tab α} (h : tabWf d t = true) (k : Nat) : tabWf d (tabDrop k t) = true := by
  induction t with
  | nil => rfl
  | cons e r ih =>
    obtain ⟨hv, hlt, hr⟩ := tabWf_cons.1 h
    rw [tabDrop, List.filter_cons]
    split
    · exact tabWf_cons.2 ⟨hv, fun x hx => hlt x (List.mem_of_mem_filter hx), ih hr⟩
    · exact ih hr

theorem tabWf_tabIns {t : Tab α} (h : tabWf d t = true) {k : Nat} {v : α} (hv : v ≠ d k) (hk : ∀ e ∈ t, e.1 ≠ k) :
    tabWf d (tabIns k v t) = true := by
  induction t with
  | nil => exact tabWf_cons.2 ⟨hv, by simp, rfl⟩
  | cons e r ih =>
    obtain ⟨he, hlt, hr⟩ := tabWf_cons.1 h
    rw [List.forall_mem_cons] at hk
    rw [tabIns]
    split
    · rename_i hke
      exact tabWf_cons.2 ⟨hv, List.forall_mem_cons.2 ⟨hke, fun x hx => hke.trans (hlt x hx)⟩, h⟩
    · rename_i hke
      refine tabWf_cons.2 ⟨he, fun x hx => ?_, ih hr hk.2⟩
      rcases mem_tabIns hx with rfl | hx
      · exact lt_of_le_of_ne (not_lt.1 hke) hk.1
      · exact hlt x hx

/-- Every write keeps the canonical form. -/
theorem tabWf_tabPut {t : Tab α} (h : tabWf d t = true) (k : Nat) (v : α) : tabWf d (tabPut d t k v) = true := by
  rw [tabPut]
  split
  · exact tabWf_tabDrop h k
  · rename_i hv
    exact tabWf_tabIns (tabWf_tabDrop h k) hv (by simp [tabDrop])

/-- Canonical stores that read alike are the same data. -/
theorem tabWf_ext {t u : Tab α} (ht : tabWf d t = true) (hu : tabWf d u = true) (h : ∀ k, tabGet d t k = tabGet d u k) : t = u := by
  induction t generalizing u with
  | nil =>
    cases u with
    | nil => rfl
    | cons e q => exact absurd (h e.1).symm (tabGet_first_ne (tabWf_cons.1 hu).1 (by simp))
  | cons e r ih =>
    obtain ⟨hv, hlt, hr⟩ := tabWf_cons.1 ht
    cases u with
    | nil => exact absurd (h e.1) (tabGet_first_ne hv (by simp))
    | cons x q =>
      obtain ⟨hw, hgt, hq⟩ := tabWf_cons.1 hu
      rcases lt_trichotomy e.1 x.1 with hix | hix | hix
      · exact absurd (h e.1) (tabGet_first_ne hv (List.forall_mem_cons.2 ⟨hix, fun y hy => hix.trans (hgt y hy)⟩))
      · obtain ⟨i, v⟩ := e
        obtain ⟨j, w⟩ := x
        obtain rfl : i = j := hix
        have hval : v = w := by simpa [tabGet] using h i
        have hrest : ∀ k, tabGet d r k = tabGet d q k := by
          intro k
          by_cases hk : i = k
          · rw [tabGet_below (hk ▸ hlt), tabGet_below (hk ▸ hgt)]
          · simpa [tabGet, hk] using h k
        rw [hval, ih hr hq hrest]
      · exact absurd (h x.1).symm (tabGet_first_ne hw (List.forall_mem_cons.2 ⟨hix, fun y hy => hix.trans (hlt y hy)⟩))

end

theorem tick_resetHigh (s : State) (hr : s.pins.resetN = true) : s.tick = { s with tet := { s.tet with time := s.tet.time + 1 } } := if_pos hr

theorem tick_resetLow (s : State) (hr : s.pins.resetN = false) : s.tick = s := if_neg (by simp [hr])

end Sys2Proof.Machine

open Sys2Proof Sys2Proof.Machine

/-- Settles O55: a write drops its index and puts it back in order; the first index at which two stores differ reads differently. -/
theorem canonicalStores : Obligations.CanonicalStores :=
  ⟨fun _ _ _ _ k v h => tabWf_tabPut h k v, fun _ _ _ _ _ ht hu h => tabWf_ext ht hu h⟩

/-- Settles O1, by the two cases of the queue. -/
theorem stepRunsFrontCommand : Obligations.StepRunsFrontCommand := by
  refine ⟨fun c l s h => step_cons s h, fun s h => ⟨fun hr => ?_, fun hr => ?_⟩⟩
  · rw [step_nil s h, tick_resetHigh s hr]
  · rw [step_nil s h, tick_resetLow s hr]
end

section
/-! Raising an event: the wake slots and windows that see it, its mask, its snapshot and its ring (R409, R419 to R427). -/

namespace Sys2Proof.Machine

variable (s : State)

/-! ### Wake slots -/

/-- t differs from s at most in the wake slots' causes. -/
structure State.WakesOnly (s t : State) : Prop where
  reg : ∀ a, a ≠ TET_WAKE_CAUSE.adr → t.reg a = s.reg a
  windows : t.tet.windows = s.tet.windows
  time : t.tet.time = s.tet.time

theorem State.WakesOnly.refl : s.WakesOnly s := ⟨fun _ _ => rfl, rfl, rfl⟩

theorem State.WakesOnly.trans {s t u : State} (h : s.WakesOnly t) (k : t.WakesOnly u) : s.WakesOnly u :=
  ⟨fun a ha => (k.reg a ha).trans (h.reg a ha), k.windows.trans h.windows, k.time.trans h.time⟩

theorem wakesOnly_fireSlot (j : Nat) : s.WakesOnly (s.fireSlot j) := by
  have hcause : ∀ a, a ≠ TET_WAKE_CAUSE.adr → (s.setBit TET_WAKE_CAUSE.adr j true).reg a = s.reg a :=
    fun a ha => s.reg_setReg_ne ha.symm _
  unfold State.fireSlot
  split
  · dsimp only
    split
    · exact ⟨hcause, rfl, rfl⟩
    · exact ⟨hcause, rfl, rfl⟩
  · exact .refl s

theorem wakesOnly_fireSource (src : Nat) : s.WakesOnly (s.fireSource src) := by
  refine State.each_keeps (P := s.WakesOnly) (fun u j _ hu => ?_) (.refl s)
  split
  · exact hu.trans (wakesOnly_fireSlot u j)
  · exact hu

/-- CAUSE of a slot that fires: set where EN is 1. -/
theorem fireSlot_cause {k j : Nat} (hj : j < 32) :
    ((s.fireSlot k).reg TET_WAKE_CAUSE.adr).getLsbD j
      = ((s.reg TET_WAKE_CAUSE.adr).getLsbD j || (decide (j = k) && (s.reg TET_WAKE_EN.adr).getLsbD j)) := by
  unfold State.fireSlot
  split
  · rename_i hen
    have hset : ((s.setBit TET_WAKE_CAUSE.adr k true).reg TET_WAKE_CAUSE.adr).getLsbD j
        = ((s.reg TET_WAKE_CAUSE.adr).getLsbD j || (decide (j = k) && (s.reg TET_WAKE_EN.adr).getLsbD j)) := by
      rw [State.setBit, State.reg_setReg_self, getLsbD_putBit _ _ _ hj]
      by_cases hjk : j = k
      · simp [hjk, hen]
      · simp [hjk]
    dsimp only
    split <;> exact hset
  · rename_i hen
    by_cases hjk : j = k
    · simp [hjk, hen]
    · simp [hjk]

/-- CAUSE after the slots of a list that watch the source have fired. -/
theorem fireWatching_cause (src : Nat) {j : Nat} (hj : j < 32) (l : List Nat) :
    ((s.each l fun s k => if s.get (TET_WAKE_SEL.SOURCE k) = src then s.fireSlot k else s).reg TET_WAKE_CAUSE.adr).getLsbD j
      = ((s.reg TET_WAKE_CAUSE.adr).getLsbD j
        || (decide (j ∈ l) && (s.reg TET_WAKE_EN.adr).getLsbD j && decide (s.get (TET_WAKE_SEL.SOURCE j) = src))) := by
  induction l generalizing s with
  | nil => simp [State.each]
  | cons k l ih =>
    rw [State.each, List.foldl_cons]
    refine (ih _).trans ?_
    split
    · rename_i hsel
      have hw := wakesOnly_fireSlot s k
      have hget : (s.fireSlot k).get (TET_WAKE_SEL.SOURCE j) = s.get (TET_WAKE_SEL.SOURCE j) := by
        rw [State.get, State.get, hw.reg _ (by simp only [TET_WAKE_SEL.SOURCE, TET_WAKE_SEL.adr, TET_WAKE_CAUSE.adr]; omega)]
      rw [fireSlot_cause s hj, hw.reg _ (by decide), hget]
      by_cases hjk : j = k
      · subst hjk
        simp only [decide_true, hsel, Bool.true_and, Bool.and_true, List.mem_cons, true_or]
        generalize (s.reg TET_WAKE_EN.adr).getLsbD j = e
        generalize decide (j ∈ l) = m
        cases e <;> simp
      · simp [hjk]
    · rename_i hsel
      by_cases hjk : j = k
      · subst hjk; simp [hsel]
      · simp [hjk]

theorem fireSource_cause (src : Nat) {j : Nat} (hj : j < 32) :
    ((s.fireSource src).reg TET_WAKE_CAUSE.adr).getLsbD j
      = ((s.reg TET_WAKE_CAUSE.adr).getLsbD j
        || (decide (4 ≤ j) && (s.reg TET_WAKE_EN.adr).getLsbD j && decide (s.get (TET_WAKE_SEL.SOURCE j) = src))) := by
  have hmem : j ∈ (List.range 28).map (fun k => k + 4) ↔ 4 ≤ j := by
    simp only [List.mem_map, List.mem_range]
    exact ⟨by rintro ⟨k, -, rfl⟩; omega, fun h => ⟨j - 4, by omega, by omega⟩⟩
  rw [State.fireSource, fireWatching_cause s src hj, decide_eq_decide.2 hmem]

/-! ### The ring -/

theorem enqueue_reg {ring a : Nat} (r : EvRec) (ha : a ≠ (evF ring EV_CNT.COALESCED).adr) : (s.enqueue ring r).reg a = s.reg a := by
  unfold State.enqueue
  dsimp only
  split
  · rfl
  · split
    · rfl
    · split
      · split
        · exact State.reg_setReg_ne _ ha.symm _
        · rfl
      · rfl

theorem enqueue_tet (ring : Nat) (r : EvRec) : (s.enqueue ring r).tet = s.tet := by
  unfold State.enqueue
  dsimp only
  split
  · rfl
  · split
    · rfl
    · split
      · split <;> rfl
      · rfl

/-- The latch that an occurrence finds: its source's, and of EV_READABLE its LUN's. -/
def EvRec.finds (r e : EvRec) : Prop := e.src = r.src ∧ (r.src = srcReadable → e.info &&& 0x3FF = r.info &&& 0x3FF)

section
variable {r e : EvRec}

theorem mergeLate_passes (h : ¬ r.finds e) (l : List EvRec) :
    mergeLate r (e :: l) = (mergeLate r l).map fun p => (e :: p.1, p.2) := by
  rw [mergeLate, if_neg, if_neg]
  · cases mergeLate r l <;> rfl
  · simp only [Bool.and_eq_true, bne_iff_ne, decide_eq_true_eq]
    rintro ⟨⟨hsrc, hread⟩, -⟩
    exact h ⟨hsrc, fun hr => absurd hr hread⟩
  · simp only [Bool.and_eq_true, decide_eq_true_eq]
    rintro ⟨⟨hr, he⟩, hinfo⟩
    exact h ⟨he.trans hr.symm, fun _ => hinfo⟩

theorem mergeLate_none {l : List EvRec} (h : ∀ e ∈ l, ¬ r.finds e) : mergeLate r l = none := by
  induction l with
  | nil => rfl
  | cons e l ih =>
    rw [List.forall_mem_cons] at h
    rw [mergeLate_passes h.1, ih h.2, Option.map_none]

theorem mergeLate_found {a b b' : List EvRec} {c : Bool} (ha : ∀ x ∈ a, ¬ r.finds x) (hm : mergeLate r (e :: b) = some (b', c)) :
    mergeLate r (a ++ e :: b) = some (a ++ b', c) := by
  induction a with
  | nil => exact hm
  | cons x a ih =>
    rw [List.forall_mem_cons] at ha
    rw [List.cons_append, mergeLate_passes ha.1, ih ha.2]
    rfl

theorem mergeLate_replaces (h : r.finds e) (hr : r.src = srcReadable) (b : List EvRec) :
    mergeLate r (e :: b) = some ({ e with time := r.time, info := r.info } :: b, false) := by
  rw [mergeLate, if_pos (by simpa [hr, h.1] using h.2 hr)]

theorem mergeLate_counts (h : r.finds e) (hr : r.src ≠ srcReadable) (hheld : sourceHeld r.src = false) (b : List EvRec) :
    mergeLate r (e :: b) = some ({ e with coal := min (e.coal + 1) 255 } :: b, true) := by
  rw [mergeLate, if_neg (by simp [hr]), if_pos (by simp [h.1, hr, hheld])]

end

section
variable {ring : Nat} {r : EvRec}

theorem enqueue_room (h : (s.ringOf ring).queue.length < 64) :
    s.enqueue ring r = s.modRing ring fun q => { q with queue := q.queue ++ [r] } := if_pos h

variable {s} (hfull : 64 ≤ (s.ringOf ring).queue.length)
include hfull

theorem enqueue_latches (h : sourceHeld r.src = true ∨ ∀ e ∈ (s.ringOf ring).late, ¬ r.finds e) :
    s.enqueue ring r = s.modRing ring fun q => { q with late := q.late ++ [r] } := by
  unfold State.enqueue
  dsimp only
  rw [if_neg (by omega)]
  split
  · rfl
  · rename_i hheld
    rw [mergeLate_none (h.resolve_left hheld)]

theorem enqueue_merges (hheld : sourceHeld r.src = false) {l : List EvRec} {c : Bool} (hm : mergeLate r (s.ringOf ring).late = some (l, c)) :
    s.enqueue ring r =
      (let u := s.modRing ring fun q => { q with late := l }
       if c then u.bump (evF ring EV_CNT.COALESCED) 1 else u) := by
  unfold State.enqueue
  dsimp only
  rw [if_neg (by omega), if_neg (by simp [hheld]), hm]

end

/-! ### The event -/

/-- The event has fired the wake slots that watch it and counts as work (R426, R427). -/
def State.watched (src : Nat) : State := if src = 279 then s.fireSource src else (s.fireSource src).sawWork

theorem watched_cases {P : State → Prop} {src : Nat} (h : P (s.fireSource src)) (hw : P (s.fireSource src).sawWork) : P (s.watched src) := by
  unfold State.watched
  split
  · exact h
  · exact hw

theorem watched_reg {a : Nat} (src : Nat) (ha : a ≠ TET_WAKE_CAUSE.adr) : (s.watched src).reg a = s.reg a :=
  watched_cases s (P := fun u => u.reg a = s.reg a) ((wakesOnly_fireSource s src).reg a ha) ((wakesOnly_fireSource s src).reg a ha)

theorem watched_cause (src j : Nat) (hj : j < 32) :
    ((s.watched src).reg TET_WAKE_CAUSE.adr).getLsbD j
      = ((s.reg TET_WAKE_CAUSE.adr).getLsbD j
        || (decide (4 ≤ j) && (s.reg TET_WAKE_EN.adr).getLsbD j && decide (s.get (TET_WAKE_SEL.SOURCE j) = src))) :=
  watched_cases s (P := fun u => (u.reg TET_WAKE_CAUSE.adr).getLsbD j = _) (fireSource_cause s src hj) (fireSource_cause s src hj)

theorem watched_windows {src : Nat} (h : src ≠ 279) : (s.watched src).tet.windows = s.tet.windows.map fun _ => true := by
  rw [State.watched, if_neg h, State.sawWork, (wakesOnly_fireSource s src).windows]

theorem watched_time32 (src : Nat) : (s.watched src).time32 = s.time32 :=
  congrArg (BitVec.setWidth 32) (watched_cases s (P := fun u => u.tet.time = s.tet.time)
    (wakesOnly_fireSource s src).time (wakesOnly_fireSource s src).time)

/-- The event's bits in the registers of R421 are not its wake slots'. -/
theorem watched_srcBit {base : Nat} (src : Nat) (h : TET_WAKE_CAUSE.adr < base) : (s.watched src).srcBit base src = s.srcBit base src := by
  unfold State.srcBit
  rw [watched_reg s src (by omega)]

/-- The record of an event of s. -/
def State.evRecord (src sev info : Nat) (h : Option Holder) : EvRec :=
  { src := src, fast := sourceFixed src || s.srcBit EV_CLASS0.adr src, sev := sev, time := s.time32, info := BitVec.ofNat 64 info, holder := h }

/-- The record's snapshot is due if it is fast, among those of its command in ascending source ID (R424). -/
def State.snapDue (r : EvRec) : State := if r.fast then { s with snaps := insBy EvRec.src r s.snaps } else s

theorem snapDue_reg (r : EvRec) (a : Nat) : (s.snapDue r).reg a = s.reg a := by unfold State.snapDue; split <;> rfl

theorem snapDue_tet (r : EvRec) : (s.snapDue r).tet = s.tet := by unfold State.snapDue; split <;> rfl

section
variable {src : Nat} (sev info : Nat) (h : Option Holder)

theorem raise_off (hp : s.powered (sourceDomain src) = false) : s.raise src sev info h = s := if_pos (by simp [hp])

/-- The state in which the mask is looked up is the watched one. -/
theorem raise_powered (hp : s.powered (sourceDomain src) = true) :
    s.raise src sev info h =
      (let u := s.watched src
       if s.srcBit (EV_MASK.adr 0) src then u.setBit (EV_PEND.adr (src / 32)) (src % 32) true
       else (u.snapDue (s.evRecord src sev info h)).enqueue (s.evRecord src sev info h).fast.toNat (s.evRecord src sev info h)) := by
  have hu : (if src != 279 then (s.fireSource src).sawWork else s.fireSource src) = s.watched src := by
    unfold State.watched
    by_cases h279 : src = 279 <;> simp [h279]
  unfold State.raise
  rw [if_neg (by simp [hp])]
  dsimp only
  rw [hu, watched_srcBit s src (by decide), watched_srcBit s src (by decide), watched_time32]
  rfl

variable (hp : s.powered (sourceDomain src) = true)
include hp

theorem raise_masked (hm : s.srcBit (EV_MASK.adr 0) src = true) :
    s.raise src sev info h = (s.watched src).setBit (EV_PEND.adr (src / 32)) (src % 32) true := by
  rw [raise_powered s sev info h hp]
  exact if_pos hm

theorem raise_unmasked (hm : s.srcBit (EV_MASK.adr 0) src = false) :
    s.raise src sev info h = ((s.watched src).snapDue (s.evRecord src sev info h)).enqueue (s.evRecord src sev info h).fast.toNat
      (s.evRecord src sev info h) := by
  rw [raise_powered s sev info h hp]
  exact if_neg (by simp [hm])

/-- The wake slots' causes are the watched state's. -/
theorem raise_cause : (s.raise src sev info h).reg TET_WAKE_CAUSE.adr = (s.watched src).reg TET_WAKE_CAUSE.adr := by
  cases hm : s.srcBit (EV_MASK.adr 0) src with
  | true =>
    rw [raise_masked s sev info h hp hm]
    exact State.reg_setReg_ne _ (by simp only [EV_PEND.adr, TET_WAKE_CAUSE.adr]; omega) _
  | false =>
    rw [raise_unmasked s sev info h hp hm, enqueue_reg _ _ (by simp only [evF, EV_CNT.COALESCED, EV_CNT.adr, TET_WAKE_CAUSE.adr]; omega),
      snapDue_reg]

theorem raise_tet : (s.raise src sev info h).tet = (s.watched src).tet := by
  cases hm : s.srcBit (EV_MASK.adr 0) src with
  | true => rw [raise_masked s sev info h hp hm]; rfl
  | false => rw [raise_unmasked s sev info h hp hm, enqueue_tet, snapDue_tet]

end

/-! ### The snapshot -/

theorem snapshot_slots (r : EvRec) {k : Nat} (hk : k < 4) :
    (s.snapshot r).reg (FEV_SNAP.adr (4 * (s.get FEV_SNAP_CNT.COUNT % 4) + k)) = r.word true 0 k := by
  have hslot : s.get FEV_SNAP_CNT.COUNT % 4 < 4 := Nat.mod_lt _ (by decide)
  unfold State.snapshot
  dsimp only
  rw [State.put, State.reg_setReg_ne _ (by simp only [FEV_SNAP_CNT.COUNT, FEV_SNAP_CNT.adr, FEV_SNAP.adr]; omega)]
  generalize s.get FEV_SNAP_CNT.COUNT % 4 = j
  simp only [State.each, List.foldl_cons, List.foldl_nil, State.reg_setReg, FEV_SNAP.adr]
  obtain rfl | rfl | rfl | rfl : k = 0 ∨ k = 1 ∨ k = 2 ∨ k = 3 := by omega
  all_goals simp

theorem snapshot_count (r : EvRec) : (s.snapshot r).get FEV_SNAP_CNT.COUNT = (s.get FEV_SNAP_CNT.COUNT + 1) % 2 ^ 16 := by
  have hslot : s.get FEV_SNAP_CNT.COUNT % 4 < 4 := Nat.mod_lt _ (by decide)
  have hcnt : (s.each [0, 1, 2, 3] fun u k => u.setReg (FEV_SNAP.adr (4 * (s.get FEV_SNAP_CNT.COUNT % 4) + k)) (r.word true 0 k)).get
      FEV_SNAP_CNT.COUNT = s.get FEV_SNAP_CNT.COUNT := by
    refine State.each_keeps (P := fun u => u.get FEV_SNAP_CNT.COUNT = s.get FEV_SNAP_CNT.COUNT) (fun u k hk hu => ?_) rfl
    have hk4 : k < 4 := by simp only [List.mem_cons, List.not_mem_nil, or_false] at hk; omega
    rw [State.get, State.reg_setReg_ne _ (by simp only [FEV_SNAP_CNT.COUNT, FEV_SNAP_CNT.adr, FEV_SNAP.adr]; omega)]
    exact hu
  unfold State.snapshot
  dsimp only
  rw [State.put, hcnt, State.get, State.reg_setReg_self]
  exact fld_putFld _ _ (by decide)

end Sys2Proof.Machine

open Sys2Proof Sys2Proof.Machine

/-- Settles O44: an event by its domain and its mask, a record by its ring's room and the first latch that it finds. -/
theorem eventRaise : Obligations.EventRaise := by
  refine ⟨fun s src sev info h _ => ⟨raise_off s sev info h, State.eventFrame_raise s src sev info h, fun hp => ⟨fun j hj => ?_, fun h279 => ?_,
    raise_masked s sev info h hp, raise_unmasked s sev info h hp⟩⟩, fun r l => ⟨insBy_perm EvRec.src r l, insBy_pairwise EvRec.src r⟩,
    fun s r k hk => ⟨snapshot_slots s r hk, snapshot_count s r⟩, fun s ring r => ⟨enqueue_room s, enqueue_latches, ?_⟩⟩
  · rw [raise_cause s sev info h hp, watched_cause s src j hj]
  · rw [raise_tet s sev info h hp, watched_windows s h279]
  · intro a b e hfull hheld hlate hnone hhit
    refine ⟨fun hr => ?_, fun hr => ?_⟩
    · rw [enqueue_merges hfull hheld (hlate ▸ mergeLate_found hnone (mergeLate_counts hhit hr hheld b))]; rfl
    · rw [enqueue_merges hfull hheld (hlate ▸ mergeLate_found hnone (mergeLate_replaces hhit hr b))]; rfl
end

section
/-! The end of power-fail hold-up (R365, R481): a reconstruct-around that LATCH held back goes on as the latch goes. -/

namespace Sys2Proof.Machine

theorem exec_pwrfailLatchClear (w : Word32) (high : Bool) (s : State) : exec (.pwrfailLatchClear w high) s =
    onPort s (·.writeWith TET_PWRFAIL.adr w fun u =>
      let v := { u with pins := { u.pins with pwrfailN := high } }
      if bit w 31 then v.latchClear high else v) := rfl

/-- The block after start-up, every domain powered and every store filled. -/
def started : State :=
  ((({ pins := { resetN := true, faultN := true, pwrReq := BitVec.allOnes 28, pwrAck := BitVec.allOnes 28, cclkReq := true, cclkAck := true },
       tet := { usable := BitVec.allOnes 28 } } : State).put TET_PWR_STAT.BLOCK blockActive).put TET_STARTUP.READY 1)

/-- Hold-up has expired, LATCH still 1: a reconstruct-around that has its buffer waits for nothing but the latch. -/
def aroundHeld : State :=
  { started.put TET_PWRFAIL.LATCH 1 with
    racs := [{ id := 1, group := 1, around := true, cws := [0], srcs := [{ member := 1, lun := 128, st := 1 }] }] }

end Sys2Proof.Machine

open Sys2Proof Sys2Proof.Machine

/-- Refutes O28: its clauses on a clear of LATCH leave out the reconstruct-arounds that the latch held back. In `aroundHeld` the one that waits
begins its member reads with the clear, where the clause leaves it waiting. -/
theorem not_wakeAndPowerFailCommands : ¬ Obligations.WakeAndPowerFailCommands := by
  intro h
  obtain ⟨hworks, hanswers⟩ : aroundHeld.Works ∧ aroundHeld.answers TET_PWRFAIL.adr = true := by decide +kernel
  obtain ⟨-, hpowerFail⟩ := h
  obtain ⟨-, -, hclear⟩ := hpowerFail aroundHeld hworks
  obtain ⟨-, -, -, hexpired, -⟩ := hclear 0x80000000#32 true (by decide)
  have hwaits := hexpired (by decide +kernel) (by decide +kernel) rfl
  rw [exec_pwrfailLatchClear, onPort_writeWith_answers _ _ _ hworks hanswers] at hwaits
  have hphase := congrArg (fun u : State => u.racs.map Rac.phase) (Host.Outcome.next.inj hwaits)
  exact absurd hphase (by decide +kernel)
end

section
/-! Fatal causes (R436, R440): an uncorrectable row is poisoned as well. -/

namespace Sys2Proof.Machine

variable (s : State)

theorem exec_fatalCause (cause : Fin 8) (ctx : Word32) : exec (.fatalCause cause ctx) s = live s (·.fatalCause cause.val ctx) := rfl

end Sys2Proof.Machine

open Sys2Proof Sys2Proof.Machine

/-- Refutes O21: its clause on a bank 36 row of the tag table leaves out that the word read is poisoned until it is written again (R440). After
FATAL_CAUSE 2 at row 5 the model holds that poison, where the clause's state holds none. -/
theorem not_fatalCommands : ¬ Obligations.FatalCommands := by
  intro h
  have hworks : started.Works := by decide +kernel
  obtain ⟨-, -, -, hcause⟩ := h started hworks
  obtain ⟨-, -, hstore, -⟩ := hcause 5
  have hspared := hstore (by decide +kernel)
  rw [exec_fatalCause, live_works _ _ hworks] at hspared
  have hpoison := congrArg (fun u : State => u.ballast.poison) (Host.Outcome.next.inj hspared)
  exact absurd hpoison (by decide +kernel)
end

section
/-! A quad that is switched off (R452, R464): the switch-over of a PLL that has not relocked is told first. -/

namespace Sys2Proof.Machine

variable (s : State)

theorem exec_quadOffEntry (q : Fin 8) : exec (.quadOffEntry q) s = live s (·.quadOff q.val) := rfl

/-- Quad 7 is idle, may be switched off, and runs on its standby PLL while the lost one still relocks. -/
def idleRelocking : State :=
  (((started.put (TET_QPOL.OFF_EN 7) 1).put (PHY_STAT.LOCK 7) 1).setQstate 7 1).modQuad 7 fun x => { x with relocking := true, lostPll := 1 }

end Sys2Proof.Machine

open Sys2Proof Sys2Proof.Machine

/-- Refutes O29: its clause on QUAD_OFF_ENTRY leaves out EV_PLL_SWITCH of a switch-over whose lost PLL has not relocked (log entry 91). In
`idleRelocking` the model raises it, where the clause raises nothing. -/
theorem not_powerStateCommands : ¬ Obligations.PowerStateCommands := by
  intro h
  obtain ⟨hworks, hrun⟩ : idleRelocking.Works ∧ idleRelocking.halted = false := by decide +kernel
  obtain ⟨hidle, hoffEn, hon, hasleep⟩ : idleRelocking.qstate 7 = 1 ∧ idleRelocking.on (TET_QPOL.OFF_EN 7) = true
      ∧ idleRelocking.on (TET_QPOL.ON 7) = false ∧ idleRelocking.quadAsleep 7 = true := by decide +kernel
  obtain ⟨-, hquads, -⟩ := h
  obtain ⟨-, hoff, -⟩ := hquads idleRelocking 7 hworks
  have hsilent := hoff hrun hidle hoffEn hon hasleep
  rw [exec_quadOffEntry, live_works _ _ hworks] at hsilent
  have hqueue := congrArg (fun u : State => (u.ringOf 0).queue.length) (Host.Outcome.next.inj hsilent)
  exact absurd hqueue (by decide +kernel)
end

section
/-! Fault status blocks: what a capture writes and what a clear of VALID leaves (R430, R431). -/

namespace Sys2Proof.Machine

variable (s : State)

theorem exec_fltValidClear (u : FltUnit) (w : Word32) :
    exec (.fltValidClear u w) s = onPort s (·.writeWith (fltAdr u) w (·.validClear (fltAdr u) w)) := rfl

/-! ### VALID written 1 -/

/-- A store changes no other register, but for a balance that a new rate settles (R368). -/
theorem reg_storeReg_other {a b : Nat} (hcred : isReg a 0x8100 0x10 8 = false) (hb : a ≠ b) (w : Word32) : (s.storeReg a w).reg b = s.reg b := by
  unfold State.storeReg
  rw [portTake_otherRegister s hcred]
  split
  · rfl
  · exact State.reg_setReg_ne _ hb _

/-- No status block lies among the credit registers. -/
theorem fltAdr_notCredit : ∀ u : FltUnit, isReg (fltAdr u) 0x8100 0x10 8 = false
  | .chan n => by revert n; decide
  | .quad q => by revert q; decide
  | .slice i => by revert i; decide
  | .top k => by revert k; decide

section
variable {s} {a : Nat} {w : Word32}

theorem validClear_recovering (hr : s.on (fltRecovering a) = true) : s.validClear a w = s := if_pos (by simp [hr])

theorem validClear_clears (hw : bit w 31 = true) (hr : s.on (fltRecovering a) = false) :
    s.validClear a w = (s.put (fltValid a) 0).put (fltMulti a) 0 := if_neg (by simp [hw, hr])

end

/-- A clear of VALID and MULTI writes FIRST alone. -/
theorem validCleared_reg {a b : Nat} (hb : a ≠ b) : ((s.put (fltValid a) 0).put (fltMulti a) 0).reg b = s.reg b := by
  simp only [State.put, fltValid, fltMulti]
  rw [State.reg_setReg_ne _ hb, State.reg_setReg_ne _ hb]

/-! ### Captures -/

/-- The counter of a fault's class (Table 13.2). -/
def fltCount (a cls : Nat) : Fld := if cls = 1 then ⟨a + 12, 15, 0⟩ else ⟨a + 12, 31, 16⟩

theorem fltCount_adr (a cls : Nat) : (fltCount a cls).adr = a + 12 := by unfold fltCount; split <;> rfl

/-- The word that a first fault puts into FIRST (Table 13.2). -/
def fltFirst (code cls : Nat) (rec inj : Bool) : Word32 :=
  BitVec.ofNat 32 (2 ^ 31 + cls * 2 ^ 28 + rec.toNat * 2 ^ 27 + inj.toNat * 2 ^ 26 + code * 2 ^ 16)

theorem fltFirst_fields {code cls : Nat} (hcls : cls < 4) (hcode : code < 2 ^ 8) (rec inj : Bool) :
    fld (fltFirst code cls rec inj) 31 31 = 1 ∧ fld (fltFirst code cls rec inj) 30 30 = cls / 4
    ∧ fld (fltFirst code cls rec inj) 29 28 = cls ∧ fld (fltFirst code cls rec inj) 23 16 = code := by
  have hrec := rec.toNat_le
  have hinj := inj.toNat_le
  simp only [fld, fltFirst, BitVec.toNat_ofNat]
  generalize rec.toNat = r at *
  generalize inj.toNat = i at *
  norm_num at hcode ⊢
  omega

/-- The count of R430 alone. -/
def State.faultCounted (u : FltUnit) (cls : Nat) : State := s.bump (fltCount (fltAdr u) cls) 1

section
variable {s} {u : FltUnit} (code : Nat) (cls ctx : Nat) (inj : Bool)

theorem faultCounted_reg {b : Nat} (hb : b ≠ fltAdr u + 12) : (s.faultCounted u cls).reg b = s.reg b :=
  State.reg_setReg_ne _ (by rw [fltCount_adr]; exact hb.symm) _

theorem faultCounted_on {f : Fld} (hf : f.adr ≠ fltAdr u + 12) : (s.faultCounted u cls).on f = s.on f :=
  State.on_congr (faultCounted_reg cls hf)

theorem capture_cases : s.capture u code cls ctx inj =
    if (s.faultCounted u cls).on (fltValid (fltAdr u)) then (s.faultCounted u cls).put (fltMulti (fltAdr u)) 1
    else
      let v := (s.faultCounted u cls).setReg (fltAdr u) (fltFirst code cls ((s.faultCounted u cls).recovering u) inj)
      (v.setReg (fltAdr u + 4) (BitVec.ofNat 32 ctx)).setReg (fltAdr u + 8) v.time32 := by
  unfold State.capture State.faultCounted fltCount fltFirst
  rfl

theorem setReg_time32 (t : State) (a : Nat) (w : Word32) : (t.setReg a w).time32 = t.time32 := by
  rw [State.time32, State.setReg_tet, State.time32]

theorem faultCounted_time32 : (s.faultCounted u cls).time32 = s.time32 := setReg_time32 s _ _

theorem capture_again (hv : s.on (fltValid (fltAdr u)) = true) :
    s.capture u code cls ctx inj = (s.faultCounted u cls).put (fltMulti (fltAdr u)) 1 := by
  rw [capture_cases, if_pos ((faultCounted_on cls (by simp [fltValid])).trans hv)]

theorem capture_first (hv : s.on (fltValid (fltAdr u)) = false) :
    s.capture u code cls ctx inj =
      (((s.faultCounted u cls).setReg (fltAdr u) (fltFirst code cls (s.recovering u) inj)).setReg (fltAdr u + 4) (BitVec.ofNat 32 ctx)).setReg
        (fltAdr u + 8) s.time32 := by
  have hvalid : (s.faultCounted u cls).on (fltValid (fltAdr u)) = false := (faultCounted_on cls (by simp [fltValid])).trans hv
  have hrec : (s.faultCounted u cls).recovering u = s.recovering u := faultCounted_on cls (by simp [fltRecovering])
  rw [capture_cases, if_neg (by simp [hvalid]), hrec]
  dsimp only
  rw [setReg_time32, faultCounted_time32]

/-- Every capture leaves all but its unit's block as it was. -/
theorem capture_reg {b : Nat} (h0 : b ≠ fltAdr u) (h4 : b ≠ fltAdr u + 4) (h8 : b ≠ fltAdr u + 8) :
    (s.capture u code cls ctx inj).reg b = (s.faultCounted u cls).reg b := by
  cases hv : s.on (fltValid (fltAdr u)) with
  | true =>
    rw [capture_again code cls ctx inj hv]
    exact State.reg_setReg_ne _ h0.symm _
  | false =>
    rw [capture_first code cls ctx inj hv, State.reg_setReg_ne _ h8.symm, State.reg_setReg_ne _ h4.symm, State.reg_setReg_ne _ h0.symm]

theorem setReg_withRegs (t : State) (a : Nat) (w : Word32) (r : Tab Word32) : { t.setReg a w with regs := r } = { t with regs := r } := rfl

theorem capture_rest : { s.capture u code cls ctx inj with regs := s.regs } = s := by
  cases hv : s.on (fltValid (fltAdr u)) with
  | true => rw [capture_again code cls ctx inj hv, State.put, setReg_withRegs, State.faultCounted, State.bump, State.put, setReg_withRegs]
  | false =>
    rw [capture_first code cls ctx inj hv, setReg_withRegs, setReg_withRegs, setReg_withRegs, State.faultCounted, State.bump, State.put,
      setReg_withRegs]

theorem capture_count : (s.capture u code cls ctx inj).get (fltCount (fltAdr u) cls) = min (s.get (fltCount (fltAdr u) cls) + 1) 65535 := by
  have hreg := capture_reg (s := s) (u := u) (b := fltAdr u + 12) code cls ctx inj (by omega) (by omega) (by omega)
  rw [State.get, fltCount_adr, hreg, ← fltCount_adr (fltAdr u) cls]
  have hbits : (fltCount (fltAdr u) cls).hi < 32 ∧ (fltCount (fltAdr u) cls).hi + 1 - (fltCount (fltAdr u) cls).lo = 16 := by
    unfold fltCount
    split <;> exact ⟨by simp, rfl⟩
  refine (State.get_put_self s _ _ hbits.1).trans ?_
  rw [hbits.2]
  exact Nat.mod_eq_of_lt (by simp only [satAdd]; omega)

/-- A fault that comes while VALID is 1 sets MULTI alone. -/
theorem capture_again_record (hv : s.on (fltValid (fltAdr u)) = true) :
    (s.capture u code cls ctx inj).on (fltMulti (fltAdr u)) = true ∧ (s.capture u code cls ctx inj).on (fltValid (fltAdr u)) = true
    ∧ (s.capture u code cls ctx inj).reg (fltAdr u + 4) = s.reg (fltAdr u + 4)
    ∧ (s.capture u code cls ctx inj).reg (fltAdr u + 8) = s.reg (fltAdr u + 8) := by
  have hkeep : ∀ k, k ≠ 0 → k ≠ 12 → (s.capture u code cls ctx inj).reg (fltAdr u + k) = s.reg (fltAdr u + k) := by
    intro k h0 h12
    rw [capture_again code cls ctx inj hv, State.put, State.reg_setReg_ne _ (by simp only [fltMulti]; omega), faultCounted_reg cls (by omega)]
  refine ⟨?_, ?_, hkeep 4 (by decide) (by decide), hkeep 8 (by decide) (by decide)⟩
  · rw [capture_again code cls ctx inj hv, State.on, State.get_put_self _ _ _ (show (30 : Nat) < 32 by decide)]
    rfl
  · rw [capture_again code cls ctx inj hv, State.on, State.get_put_disjoint _ (show (30 : Nat) < 31 ∨ 31 < 30 by decide) (show (31 : Nat) < 32 by decide)]
    exact (faultCounted_on cls (by simp [fltValid])).trans hv

/-- The first fault fills FIRST, CTX and TIME. -/
theorem capture_first_record (hv : s.on (fltValid (fltAdr u)) = false) :
    (s.capture u code cls ctx inj).reg (fltAdr u) = fltFirst code cls (s.recovering u) inj
    ∧ (s.capture u code cls ctx inj).reg (fltAdr u + 4) = BitVec.ofNat 32 ctx ∧ (s.capture u code cls ctx inj).reg (fltAdr u + 8) = s.time32 := by
  rw [capture_first code cls ctx inj hv]
  refine ⟨?_, ?_, State.reg_setReg_self _ _ _⟩
  · rw [State.reg_setReg_ne _ (by omega), State.reg_setReg_ne _ (by omega), State.reg_setReg_self]
  · rw [State.reg_setReg_ne _ (by omega), State.reg_setReg_self]

end

end Sys2Proof.Machine

open Sys2Proof Sys2Proof.Machine

/-- Settles O25: a clear by whether the unit recovers, a capture by whether VALID is 1. -/
theorem faultRecords : Obligations.FaultRecords := by
  refine ⟨fun s u w hs ha hw => ?_, fun s u code cls ctx inj hcls hcode => ?_⟩
  · have hkeep : ∀ k, k ≠ 0 → (((s.storeReg (fltAdr u) w).put (fltValid (fltAdr u)) 0).put (fltMulti (fltAdr u)) 0).reg (fltAdr u + k)
        = s.reg (fltAdr u + k) := fun k hk => by
      rw [validCleared_reg _ (by omega), reg_storeReg_other s (fltAdr_notCredit u) (by omega)]
    refine ⟨fun hr => ?_, fun hr => ?_, hkeep 4 (by decide), hkeep 8 (by decide)⟩
    · rw [exec_fltValidClear, onPort_writeWith_answers s w _ hs ha, validClear_recovering hr]
    · rw [exec_fltValidClear, onPort_writeWith_answers s w _ hs ha, validClear_clears hw hr]
  · refine ⟨capture_rest code cls ctx inj, fun b h0 h4 h8 h12 => ?_, capture_again_record code cls ctx inj, fun hv => ?_, fun h => ?_, fun h => ?_⟩
    · rw [capture_reg code cls ctx inj h0 h4 h8, faultCounted_reg cls h12]
    · obtain ⟨hfirst, hctx, htime⟩ := capture_first_record code cls ctx inj hv
      obtain ⟨hvalid, hmulti, hclass, hcodeFld⟩ := fltFirst_fields (show cls < 4 by omega) hcode (s.recovering u) inj
      rw [← hfirst] at hvalid hmulti hclass hcodeFld
      rw [Nat.div_eq_of_lt (show cls < 4 by omega)] at hmulti
      exact ⟨bne_iff_ne.2 (hvalid.trans_ne one_ne_zero), hcodeFld, hclass, bne_eq_false_iff_eq.2 hmulti, hctx, htime⟩
    · have hcount := capture_count (s := s) (u := u) code cls ctx inj
      rwa [fltCount, if_pos h] at hcount
    · have hcount := capture_count (s := s) (u := u) code cls ctx inj
      rwa [fltCount, if_neg h] at hcount
end

section
/-! Ballast's commands: test reads and their injections, repairs, the row tracker and row copies (R442, R446, R447). -/

namespace Sys2Proof.Machine

variable (s : State)

theorem exec_testread (w : Word32) (errs : Nat) : exec (.testread w errs) s = onPort s (·.writeWith BAL_INJECT.adr w (·.balInject w errs)) := rfl

theorem exec_balInjectArm (w : Word32) : exec (.balInjectArm w) s =
    onPort s (·.writeWith BAL_INJECT.adr w fun u => if fld w 31 30 != 0 then u.put BAL_INJECT_STAT.DONE 0 else u) := rfl

theorem exec_blwInjectArm (w : Word32) : exec (.blwInjectArm w) s = onPort s (·.writeWith BLW_INJECT.adr w (·.blwInject w)) := rfl

theorem exec_repair (w : Word32) : exec (.repair w) s = onPort s (·.writeWith BAL_REPAIR.adr w (·.repairGo w)) := rfl

theorem exec_rowTrackExpiry (bank : Fin 37) (row : Nat) : exec (.rowTrackExpiry bank row) s = live s (·.trackFree bank.val row) := rfl

theorem exec_rowCopyDone (bank : Fin 37) : exec (.rowCopyDone bank) s = live s (·.rowCopied bank.val) := rfl

/-- Commands that end in the same state before its consequences end alike. -/
theorem next_settle_congr {t u : State} (h : t = u) : (.next t.settle : Host.Outcome State Fault Refusal) = .next u.settle := by rw [h]

/-! ### Test reads -/

theorem storeReg_accs (a : Nat) (w : Word32) : (s.storeReg a w).accs = s.accs := by
  have htake : (s.portTake a).accs = s.accs := by
    unfold State.portTake
    split <;> rfl
  unfold State.storeReg
  dsimp only
  split
  · exact htake
  · exact htake

theorem testCtx_congr {s t : State} (h : t.accs = s.accs) (b row : Nat) : t.testCtx b row = s.testCtx b row := by
  unfold State.testCtx
  rw [h]

/-- What a write that arms an injection leaves to the test read. -/
def State.injectArmed (w : Word32) : State := if fld w 31 30 != 0 then s.put BAL_INJECT_STAT.DONE 0 else s

theorem injectArmed_accs (w : Word32) : (s.injectArmed w).accs = s.accs := by unfold State.injectArmed; split <;> rfl

theorem balInject_testread {w : Word32} (hw : bit w 23 = true) (errs : Nat) : s.balInject w errs = (s.injectArmed w).testread errs := if_pos hw

/-- A test read has used up the injection and shows its outcome. -/
def State.testShown (res : Nat) : State := ((s.put BAL_INJECT.MODE 0).put BAL_INJECT_STAT.DONE 1).put BAL_INJECT_STAT.RESULT res

/-- Banks 32 to 36 capture in a unit of the top (Table 13.4). -/
theorem testCapture_top {b : Nat} (h : 32 ≤ b) (hb : b ≤ 36) :
    testCapture b = (.top (bankTop b), if b = 34 ∨ b = 36 then 2 else 1, if b = 36 then 3 else 2) := by
  obtain rfl | rfl | rfl | rfl | rfl : b = 32 ∨ b = 33 ∨ b = 34 ∨ b = 35 ∨ b = 36 := by omega
  all_goals rfl

theorem testCapture_chan (n : Fin 32) : testCapture n.val = (.chan n, 6, 2) := by
  rw [testCapture, if_pos n.isLt, bankUnit, dif_pos n.isLt]

section
variable {s} {errs b row res : Nat} (hbank : s.get BAL_INJECT.BANK = b) (hrow : s.get BAL_INJECT.ROW = row)
  (hres : min 3 (s.get BAL_INJECT.MODE + errs) = res) (hb : b ≤ 36) (hr : row < bankRows b) (hon : ∀ d, bankDomain b = some d → s.usable d = true)
include hbank hrow hres hb hr hon

theorem testread_reads : s.testread errs =
    if res = 0 then s.testShown res
    else if res < 3 then (s.testShown res).bump (BAL_BANK.CORR b) 1
    else
      let x := if b = 36 && queueRows ≤ row then s.testShown res
        else (s.testShown res).fault (testCapture b).1 (testCapture b).2.1 (testCapture b).2.2 (s.testCtx b row) false true
      if b < 32 then x.evSramUe (b / 4) b row 0xFFF false true else x.evTopSramUe b row 0xFFF 0 true := by
  subst hbank hrow hres
  unfold State.testread
  dsimp only
  rw [if_neg]
  · rfl
  · intro hoff
    cases hd : bankDomain (s.get BAL_INJECT.BANK) with
    | none => simp [hd] at hoff; omega
    | some d => simp [hd, hon d hd] at hoff; omega

theorem testread_clean (h : res = 0) : s.testread errs = s.testShown res := by
  rw [testread_reads hbank hrow hres hb hr hon, if_pos h]

theorem testread_corrected (h : res = 1 ∨ res = 2) : s.testread errs = (s.testShown res).bump (BAL_BANK.CORR b) 1 := by
  rw [testread_reads hbank hrow hres hb hr hon, if_neg (by omega), if_pos (by omega)]

variable (h3 : res = 3)
include h3

theorem testread_bad : s.testread errs =
    let x := if b = 36 && queueRows ≤ row then s.testShown res
      else (s.testShown res).fault (testCapture b).1 (testCapture b).2.1 (testCapture b).2.2 (s.testCtx b row) false true
    if b < 32 then x.evSramUe (b / 4) b row 0xFFF false true else x.evTopSramUe b row 0xFFF 0 true := by
  rw [testread_reads hbank hrow hres hb hr hon, if_neg (by omega), if_neg (by omega)]

theorem testread_bad_chan {n : Fin 32} (hn : b = n.val) :
    s.testread errs = ((s.testShown res).fault (.chan n) 6 2 (s.testCtx b row) false true).evSramUe (n.val / 4) b row 0xFFF false true := by
  have hlt := n.isLt
  rw [testread_bad hbank hrow hres hb hr hon h3]
  dsimp only
  rw [if_pos (by omega), if_neg (by simp; omega), hn, testCapture_chan]

theorem testread_bad_top (ht : 32 ≤ b) (hq : b ≠ 36 ∨ row < queueRows) :
    s.testread errs = ((s.testShown res).fault (.top (bankTop b)) (if b = 34 ∨ b = 36 then 2 else 1) (if b = 36 then 3 else 2)
      (s.testCtx b row) false true).evTopSramUe b row 0xFFF 0 true := by
  rw [testread_bad hbank hrow hres hb hr hon h3]
  dsimp only
  rw [if_neg (by omega), if_neg (by simp; omega), testCapture_top ht hb]

theorem testread_bad_line (h36 : b = 36) (hq : queueRows ≤ row) : s.testread errs = (s.testShown res).evTopSramUe b row 0xFFF 0 true := by
  rw [testread_bad hbank hrow hres hb hr hon h3]
  dsimp only
  rw [if_neg (by omega), if_pos (by simp [h36, hq])]

end

/-! ### Arming -/

theorem injectArmed_armed {w : Word32} (h : fld w 31 30 ≠ 0) : s.injectArmed w = s.put BAL_INJECT_STAT.DONE 0 := if_pos (bne_iff_ne.2 h)

theorem blwInject_armed {w : Word32} (h : bit w 8 = true) :
    s.blwInject w = { s with ballast := { s.ballast with sliceArmed := some (fld w 4 0) } } := if_pos h

/-! ### Rows -/

/-- The row tracker forgets a row. -/
def State.untracked (b row : Nat) : State :=
  { s with ballast := { s.ballast with tracker := s.ballast.tracker.filter (fun t => !(t.bank == b && t.row == row)) } }

/-- A bank's row goes to its next spare row, which EV_ROW_SPARED tells. -/
def State.rowTold (b row used : Nat) (bad : Bool) : State :=
  (s.put (BAL_BANK.USED b) (used + 1)).raise 284 2 (b + row * 2 ^ 6 + used * 2 ^ 26 + bad.toNat * 2 ^ 30)

theorem rowTold_asked (b row used : Nat) :
    s.rowTold b row used false = (s.put (BAL_BANK.USED b) (used + 1)).raise 284 2 (b + row * 2 ^ 6 + used * 2 ^ 26) := by
  rw [State.rowTold, Bool.toNat_false, Nat.zero_mul, Nat.add_zero (b + _ + _)]

/-- The row's copy into its spare row begins. -/
def State.copyBegun (b row used : Nat) : State :=
  let x := { s with ballast := { s.ballast with copying := s.ballast.copying ++ [(b, row, used)] } }
  if b < 32 then x.updChanRec b else x.updTopRec 4

theorem repairGo_row {w : Word32} (hw : bit w 31 = true) (hb : fld w 29 24 ≤ 36) (hr : fld w 19 0 < bankRows (fld w 29 24)) :
    s.repairGo w = s.spareRow (fld w 29 24) (fld w 19 0) false := if_pos (by simp [hw, hb, hr])

section
variable {s} {b row : Nat} (hfree : s.ballast.copying.any (fun c => c.1 == b && c.2.1 == row) = false)
include hfree

theorem spareRow_exhausted (hu : s.get (BAL_BANK.USED b) ≥ 16) :
    s.spareRow b row false = ((s.untracked b row).evSpareExhausted 1 b).fault (.top 4) 2 2 b := by
  unfold State.spareRow
  rw [if_neg (by simp [hfree])]
  exact if_pos hu

variable (hu : s.get (BAL_BANK.USED b) < 16)
include hu

theorem spareRow_takes (bad : Bool) :
    s.spareRow b row bad =
      (let used := s.get (BAL_BANK.USED b)
       let x := (s.untracked b row).rowTold b row used bad
       State.copyBegun (if b < 32 then
           (if bad then x.capture (bankUnit b) 7 2 (row + used * 2 ^ 12) false else x.fault (bankUnit b) 7 2 (row + used * 2 ^ 12))
         else x.fault (.top 4) 1 2 (b + row * 2 ^ 6)) b row used) := by
  unfold State.spareRow
  rw [if_neg (by simp [hfree])]
  exact if_neg (not_le.2 hu)

theorem spareRow_top (hb : 32 ≤ b) :
    s.spareRow b row false =
      ((((s.untracked b row).put (BAL_BANK.USED b) (s.get (BAL_BANK.USED b) + 1)).raise 284 2
        (b + row * 2 ^ 6 + s.get (BAL_BANK.USED b) * 2 ^ 26)).fault (.top 4) 1 2 (b + row * 2 ^ 6)).copyBegun b row (s.get (BAL_BANK.USED b)) := by
  rw [spareRow_takes hfree hu, ← rowTold_asked]
  dsimp only
  rw [if_neg (by omega)]

theorem spareRow_chan {n : Fin 32} (hb : b = n.val) :
    s.spareRow b row false =
      ((((s.untracked b row).put (BAL_BANK.USED b) (s.get (BAL_BANK.USED b) + 1)).raise 284 2
        (b + row * 2 ^ 6 + s.get (BAL_BANK.USED b) * 2 ^ 26)).fault (.chan n) 7 2 (row + s.get (BAL_BANK.USED b) * 2 ^ 12)).copyBegun b row
        (s.get (BAL_BANK.USED b)) := by
  have hunit : bankUnit b = .chan n := by subst hb; rw [bankUnit, dif_pos n.isLt]
  rw [spareRow_takes hfree hu, ← rowTold_asked]
  dsimp only
  rw [if_pos (hb ▸ n.isLt), if_neg (by decide), hunit]

end

theorem rowCopied_done {bank : Nat} {c : Nat × Nat × Nat} (hc : s.ballast.copying.find? (fun x => x.1 == bank) = some c) :
    s.rowCopied bank =
      (let u := { s with ballast := { s.ballast with
        copying := s.ballast.copying.erase c,
        rowMap := s.ballast.rowMap.filter (fun (x : Nat × Nat × Nat) => !(x.1 == c.1 && x.2.1 == c.2.1)) ++ [c] } }
       if bank < 32 then u.updChanRec bank else u.updTopRec 4) := by
  unfold State.rowCopied
  rw [hc]

end Sys2Proof.Machine

open Sys2Proof Sys2Proof.Machine

/-- Settles O22: a test read by its outcome and its bank, a repair by the spare rows left, a copy by its bank. -/
theorem ballastCommands : Obligations.BallastCommands := by
  refine ⟨fun s w hs ha hb => ⟨fun errs => ?_, fun hf => ?_, fun hw => ?_⟩, fun s hs => ⟨fun w => ?_, fun bank row => ?_, fun bank c hc => ?_⟩⟩
  · intro u v b res x hw hbank hrow hon row ctx
    have hctx : v.testCtx b row = ctx := testCtx_congr ((injectArmed_accs u w).trans (storeReg_accs s _ w)) b row
    rw [exec_testread, onPort_writeWith_answers s w _ hs ha, balInject_testread _ hw, ← hctx]
    refine ⟨fun h => ?_, fun h => ?_, fun n h hn => ?_, fun h ht hq => ?_, fun h h36 hq => ?_⟩
    · exact next_settle_congr (testread_clean (s := v) rfl rfl rfl hbank hrow hon h)
    · exact next_settle_congr (testread_corrected (s := v) rfl rfl rfl hbank hrow hon h)
    · exact next_settle_congr (testread_bad_chan (s := v) rfl rfl rfl hbank hrow hon h hn)
    · exact next_settle_congr (testread_bad_top (s := v) rfl rfl rfl hbank hrow hon h ht hq)
    · exact next_settle_congr (testread_bad_line (s := v) rfl rfl rfl hbank hrow hon h h36 hq)
  · rw [exec_balInjectArm, onPort_writeWith_answers s w _ hs ha]
    exact next_settle_congr (injectArmed_armed _ hf)
  · rw [exec_blwInjectArm, onPort_writeWith_answers s w _ hs hb, blwInject_armed _ hw]
  · intro u b row used v ha hw hb hr hfree
    rw [exec_repair, onPort_writeWith_answers s w _ hs ha, repairGo_row u hw hb hr]
    refine ⟨fun h => ?_, fun h ht => ?_, fun n h hn => ?_⟩
    · rw [spareRow_exhausted hfree h]; rfl
    · rw [spareRow_top hfree h ht, State.copyBegun, if_neg (not_lt.2 ht)]; rfl
    · rw [spareRow_chan hfree h hn, State.copyBegun, if_pos (hn ▸ n.isLt)]; rfl
  · rw [exec_rowTrackExpiry, live_works s _ hs]; rfl
  · rw [exec_rowCopyDone, live_works s _ hs, rowCopied_done s hc]
end

section
/-! Software fences and their ends, declarations of a Chanter, and spares (R435, R448 to R450). -/

namespace Sys2Proof.Machine

variable (s : State)

theorem exec_lunFence (n : Fin 32) (w : Word32) :
    exec (.lunFence n w) s = onPort s (·.writeWith (CH_FENCE.adr n.val) w (·.lunFenceWrite n.val w)) := rfl

theorem exec_lunUnfence (n : Fin 32) (w : Word32) :
    exec (.lunUnfence n w) s = onPort s (·.writeWith (CH_UNFENCE.adr n.val) w (·.lunUnfenceWrite n.val w)) := rfl

theorem exec_channelFence (n : Fin 32) (w : Word32) :
    exec (.channelFence n w) s = onPort s (·.writeWith (CH_FLT_CTRL.adr n.val) w (·.chanFenceWrite n.val w)) := rfl

theorem exec_channelUnfence (n : Fin 32) (w : Word32) :
    exec (.channelUnfence n w) s = onPort s (·.writeWith (CH_FLT_CTRL.adr n.val) w (·.chanUnfenceWrite n.val w)) := rfl

theorem exec_quadFence (q : Fin 8) (w : Word32) :
    exec (.quadFence q w) s = onPort s (·.writeWith (Q_FLT_CTRL.adr q.val) w (·.quadFenceWrite q.val w)) := rfl

theorem exec_quadUnfence (q : Fin 8) (w : Word32) :
    exec (.quadUnfence q w) s = onPort s (·.writeWith (Q_FLT_CTRL.adr q.val) w (·.quadUnfenceWrite q.val w)) := rfl

theorem exec_declare (q : Fin 8) (w : Word32) :
    exec (.declare q w) s = onPort s (·.writeWith (Q_FLT_CTRL.adr q.val) w (·.declareWrite q.val w)) := rfl

theorem exec_spareTakeoverDone : exec .spareTakeoverDone s = live s State.takeoverEnd := rfl

theorem exec_sliceSpareActive (sl : Fin 18) (fail : Option (BitVec 2 × Nat)) :
    exec (.sliceSpareActive sl fail) s = liveTop s (·.spareTested sl fail) := rfl

/-! ### LUNs -/

/-- The word of one LUN has its one bit. -/
theorem onesOf_oneLun : ∀ l : Fin 32, onesOf 32 (BitVec.ofNat 32 (2 ^ l.val)).toNat = [l.val] := by decide

/-- Why the fence of LUN l of channel n persists (Table 13.6). -/
def State.fenceStays (n l : Nat) : Bool :=
  (s.reg (CH_FLT_LUNS.adr n)).getLsbD l || (s.lunOf (32 * n + l)).resetting || s.untrained n
    || s.on (CH_FLT_CTRL.FENCED n) || s.on (Q_FLT_CTRL.FENCED (chanQuad n))

section
variable {s} {n : Fin 32} {l : Fin 32}

theorem lunFenceWrite_fences (h : (s.lunOf (32 * n.val + l.val)).fenced = false) :
    s.lunFenceWrite n.val (BitVec.ofNat 32 (2 ^ l.val)) = (s.fenceLun (32 * n.val + l.val)).fault (.chan n) 9 2 l.val := by
  rw [State.lunFenceWrite, onesOf_oneLun, List.foldl_cons, List.foldl_nil]
  dsimp only
  rw [if_neg (by simp [h]), dif_pos n.isLt]

theorem lunUnfenceWrite_ends (hp : s.fenceStays n.val l.val = false) (h : (s.lunOf (32 * n.val + l.val)).fenced = true) :
    s.lunUnfenceWrite n.val (BitVec.ofNat 32 (2 ^ l.val)) =
      (s.modLun (32 * n.val + l.val) fun x => { x with fenced := false }).pollAgain (32 * n.val + l.val) := by
  rw [State.fenceStays] at hp
  rw [State.lunUnfenceWrite, onesOf_oneLun, List.foldl_cons, List.foldl_nil]
  dsimp only
  rw [if_neg (by simp only [hp, h]; decide)]

theorem lunUnfenceWrite_persists (hp : s.fenceStays n.val l.val = true) : s.lunUnfenceWrite n.val (BitVec.ofNat 32 (2 ^ l.val)) = s := by
  rw [State.fenceStays] at hp
  rw [State.lunUnfenceWrite, onesOf_oneLun, List.foldl_cons, List.foldl_nil]
  dsimp only
  rw [if_pos (by simp only [hp, Bool.true_or])]

end

/-! ### Channels and quads -/

section
variable {s} {n : Fin 32} {w : Word32}

theorem chanFenceWrite_fences (hw : bit w 1 = true) (h : s.on (CH_FLT_CTRL.FENCED n.val) = false) :
    s.chanFenceWrite n.val w = (s.fenceChan n.val).fault (.chan n) 9 2 (2 ^ 31) := by
  rw [State.chanFenceWrite, if_neg (by simp [hw, h])]
  exact dif_pos n.isLt

theorem chanUnfenceWrite_ends (hw : bit w 0 = true) (hv : s.on (fltValid (CH_FLT_FIRST.adr n.val)) = false)
    (hr : s.on (fltRecovering (CH_FLT_FIRST.adr n.val)) = false) (ht : s.untrained n.val = false) :
    s.chanUnfenceWrite n.val w = (chanLuns n.val).foldl State.pollAgain (s.put (CH_FLT_CTRL.FENCED n.val) 0) :=
  if_neg (by simp [hw, hv, hr, ht])

theorem chanUnfenceWrite_persists (h : s.on (fltValid (CH_FLT_FIRST.adr n.val)) = true
    ∨ s.on (fltRecovering (CH_FLT_FIRST.adr n.val)) = true ∨ s.untrained n.val = true) : s.chanUnfenceWrite n.val w = s := by
  refine if_pos ?_
  rcases h with h | h | h <;> simp [h]

end

section
variable {s} {q : Fin 8} {w : Word32}

theorem quadFenceWrite_fences (hw : bit w 1 = true) (h : s.on (Q_FLT_CTRL.FENCED q.val) = false) :
    s.quadFenceWrite q.val w = (s.fenceQuad q.val).fault (.quad q) 0x15 2 0 := by
  rw [State.quadFenceWrite, if_neg (by simp [hw, h])]
  exact dif_pos q.isLt

theorem quadUnfenceWrite_ends (hw : bit w 0 = true) (hv : s.on (fltValid (Q_FLT_FIRST.adr q.val)) = false)
    (hr : s.on (fltRecovering (Q_FLT_FIRST.adr q.val)) = false)
    (hd : s.on (Q_FLT_CTRL.CHT_FAULTED q.val) = false ∨ s.on (Q_FLT_CTRL.SPARE_SERVING q.val) = true) (hl : s.on (PHY_STAT.LOCK q.val) = true) :
    s.quadUnfenceWrite q.val w = ((quadChans q.val).flatMap chanLuns).foldl State.pollAgain (s.put (Q_FLT_CTRL.FENCED q.val) 0) := by
  refine if_neg ?_
  rcases hd with hd | hd <;> simp [hw, hv, hr, hd, hl]

theorem quadUnfenceWrite_persists (h : s.on (fltValid (Q_FLT_FIRST.adr q.val)) = true ∨ s.on (fltRecovering (Q_FLT_FIRST.adr q.val)) = true
    ∨ (s.on (Q_FLT_CTRL.CHT_FAULTED q.val) = true ∧ s.on (Q_FLT_CTRL.SPARE_SERVING q.val) = false) ∨ s.on (PHY_STAT.LOCK q.val) = false) :
    s.quadUnfenceWrite q.val w = s := by
  refine if_pos ?_
  rcases h with h | h | ⟨h, h'⟩ | h
  · simp [h]
  · simp [h]
  · simp [h, h']
  · simp [h]

/-! ### Spares -/

/-- The declared Chanter's bit and its capture (R449). -/
def State.declared' (q : Fin 8) : State := (s.put (Q_FLT_CTRL.CHT_FAULTED q.val) 1).capture (.quad q) 0x10 2 32 false

section
variable (hw : bit w 2 = true) (hd : s.on (Q_FLT_CTRL.CHT_FAULTED q.val) = false)
include hw hd

theorem declareWrite_declares : s.declareWrite q.val w =
    (let c := s.declared' q
     if s.recovering (.quad q) && !c.on (Q_FLT_CTRL.FENCED q.val) then c.escalate (.quad q) 0x10 2 false
     else if c.ballast.spcOk && c.ballast.spcQuad.isNone then
       ((((({ c with ballast := { c.ballast with spcQuad := some q.val } } : State).modQuad q.val fun x => { x with takeover := true }).updQuadRec
         q.val).evSpareTaken 3 q.val 8).powerUp pdSpc).abandon q.val
     else ((c.capture (.quad q) 0x13 2 0x10 false).evSpareExhausted 3 q.val).fenceQuad q.val) := by
  rw [State.declareWrite, dif_pos q.isLt, if_pos hw, State.declareChanter, if_neg (by simp [hd])]
  rfl

theorem declareWrite_again (hr : s.recovering (.quad q) = true) (hf : (s.declared' q).on (Q_FLT_CTRL.FENCED q.val) = false) :
    s.declareWrite q.val w = (s.declared' q).escalate (.quad q) 0x10 2 false := by
  rw [declareWrite_declares hw hd]
  exact if_pos (by simp [hr, hf])

variable (hr : s.recovering (.quad q) = false)
include hr

theorem declareWrite_spare (hok : (s.declared' q).ballast.spcOk = true) (hq : (s.declared' q).ballast.spcQuad = none) :
    s.declareWrite q.val w =
      (let c := s.declared' q
       ((((({ c with ballast := { c.ballast with spcQuad := some q.val } } : State).modQuad q.val fun x => { x with takeover := true }).updQuadRec
         q.val).evSpareTaken 3 q.val 8).powerUp pdSpc).abandon q.val) := by
  rw [declareWrite_declares hw hd]
  exact (if_neg (by simp [hr])).trans (if_pos (by simp [hok, hq]))

theorem declareWrite_noSpare (h : (s.declared' q).ballast.spcOk = false ∨ (s.declared' q).ballast.spcQuad ≠ none) :
    s.declareWrite q.val w =
      (((s.declared' q).capture (.quad q) 0x13 2 0x10 false).evSpareExhausted 3 q.val).fenceQuad q.val := by
  rw [declareWrite_declares hw hd]
  refine (if_neg (by simp [hr])).trans (if_neg ?_)
  rcases h with h | h
  · simp [h]
  · simp [Option.isNone_iff_eq_none, h]

end

end

theorem takeoverEnd_serves {q : Nat} (hq : s.ballast.spcQuad = some q) (ht : (s.quadOf q).takeover = true) (hp : s.usable pdSpc = true) :
    s.takeoverEnd =
      (let w := s.reg PAT_QUAD_PATCH_STATE.adr
       let u := (s.setReg PAT_QUAD_PATCH_STATE.adr (putFld w 25 24 (fld w (3 * q + 1) (3 * q)))).patDone
       let v := ((u.put (Q_FLT_CTRL.SPARE_SERVING q) 1).modQuad q fun x => { x with takeover := false }).updQuadRec q
       v.each (quadChans q) fun y n =>
         let z := if (y.ctxOf n).state != 0 && (y.ctxOf n).committed then (y.freeCtx n (y.ctxOf n).lun).finishNow n (y.ctxOf n).lun (y.ctxOf n) else y
         z.each (chanLuns n) fun x g => match (x.lunOf g).park with
           | some c => if c.committed then (x.dropPark g).finishOp g c else x
           | none => x) := by
  rw [State.takeoverEnd, hq]
  exact if_neg (by simp [ht, hp])

section
variable {s} {sl : Fin 18} (ht : (s.sliceOf sl.val).st = sliceTesting) (hp : s.powered (pdB (sl.val / 2)) = true)
include ht hp

theorem spareTested_passes : s.spareTested sl none =
    ((s.modSlice sl.val fun x => { x with st := sliceActive }).evSpareTaken 2 (s.sliceOf sl.val).forFault sl.val).updPairs :=
  if_neg (by simp [ht, hp])

theorem spareTested_fails (v : BitVec 2) (k : Nat) : s.spareTested sl (some (v, k)) =
    (((s.fault (.slice sl) 0x10 2 v.toNat).evSlice sl.val 1 (v.toNat + k % 256 * 2 ^ 8)).modSlice sl.val
      fun x => { x with st := sliceRetired }).takeSpare (s.sliceOf sl.val).forFault :=
  if_neg (by simp [ht, hp])

end

end Sys2Proof.Machine

open Sys2Proof Sys2Proof.Machine

/-- Settles O23: a fence by whether it is set, its end by the causes that persist. -/
theorem fenceCommands : Obligations.FenceCommands := by
  refine ⟨fun s n l hs => ⟨fun ha h => ?_, fun ha hp h => ?_, fun ha hp => ?_⟩, fun s hs => ⟨fun n w ha => ⟨fun hw h => ?_, fun hw hv hr ht => ?_,
    fun h => ?_⟩, fun q w ha => ⟨fun hw h => ?_, fun hw hv hr hd hl => ?_, fun h => ?_⟩⟩⟩
  · rw [exec_lunFence, onPort_writeWith_answers s _ _ hs ha, lunFenceWrite_fences h]; rfl
  · rw [exec_lunUnfence, onPort_writeWith_answers s _ _ hs ha, lunUnfenceWrite_ends hp h]
  · rw [exec_lunUnfence, onPort_writeWith_answers s _ _ hs ha, lunUnfenceWrite_persists hp]
  · rw [exec_channelFence, onPort_writeWith_answers s _ _ hs ha, chanFenceWrite_fences hw h]; rfl
  · rw [exec_channelUnfence, onPort_writeWith_answers s _ _ hs ha, chanUnfenceWrite_ends hw hv hr ht]
  · rw [exec_channelUnfence, onPort_writeWith_answers s _ _ hs ha, chanUnfenceWrite_persists h]
  · rw [exec_quadFence, onPort_writeWith_answers s _ _ hs ha, quadFenceWrite_fences hw h]; rfl
  · rw [exec_quadUnfence, onPort_writeWith_answers s _ _ hs ha, quadUnfenceWrite_ends hw hv hr hd hl]
  · rw [exec_quadUnfence, onPort_writeWith_answers s _ _ hs ha, quadUnfenceWrite_persists h]

/-- Settles O24: a declaration by whether the unit recovers and a spare is free, a take-over's and a test's end by their one outcome. -/
theorem spareCommands : Obligations.SpareCommands := by
  refine fun s hs => ⟨fun q w ha hw => ?_, fun q hq ht hp => ?_, fun sl htop ht hp => ⟨?_, fun v k => ?_⟩⟩
  · intro u c hd
    rw [exec_declare, onPort_writeWith_answers s _ _ hs ha]
    refine ⟨fun hr hf => ?_, fun hr hok hq => ?_, fun hr h => ?_⟩
    · rw [declareWrite_again hw hd hr hf]; rfl
    · rw [declareWrite_spare hw hd hr hok hq]; rfl
    · rw [declareWrite_noSpare hw hd hr h]; rfl
  · rw [exec_spareTakeoverDone, live_works s _ hs]
    exact next_settle_congr (takeoverEnd_serves s hq ht hp)
  · rw [exec_sliceSpareActive, liveTop_works s _ ⟨hs, htop⟩, spareTested_passes ht hp]
  · rw [exec_sliceSpareActive, liveTop_works s _ ⟨hs, htop⟩, spareTested_fails ht hp]
end

section
/-! The action of each register's write, and the command that names it (R16, R486). -/

namespace Sys2Proof.Machine

section
variable (u : State) (w : Word32)

/-! ### The registers of a quad, a channel, a queue, a ring and a zone -/

theorem regActs_phyCtrl (q : Fin 8) : u.regActs (PHY_CTRL.adr q.val) w = if bit w 0 then u.applyStart q.val else u := by fin_cases q <;> rfl

theorem regActs_zqCtrl (q : Fin 8) : u.regActs (ZQ_CTRL.adr q.val) w = u.zqStart q.val w := by fin_cases q <;> rfl

theorem regActs_qpol (q : Fin 8) : u.regActs (TET_QPOL.adr q.val) w = u.qpolWrite q.val w := by fin_cases q <;> rfl

theorem regActs_qFltCtrl (q : Fin 8) :
    u.regActs (Q_FLT_CTRL.adr q.val) w = ((u.quadFenceWrite q.val w).quadUnfenceWrite q.val w).declareWrite q.val w := by fin_cases q <;> rfl

theorem regActs_trainCtrl (n : Fin 32) : u.regActs (CH_TRAIN_CTRL.adr n.val) w = if bit w 0 then u.trainStart n.val else u := by
  fin_cases n <;> rfl

theorem regActs_rbStat (n : Fin 32) : u.regActs (CH_RB_STAT.adr n.val) w = u.stuckClear n.val w := by fin_cases n <;> rfl

theorem regActs_fence (n : Fin 32) : u.regActs (CH_FENCE.adr n.val) w = u.lunFenceWrite n.val w := by fin_cases n <;> rfl

theorem regActs_unfence (n : Fin 32) : u.regActs (CH_UNFENCE.adr n.val) w = u.lunUnfenceWrite n.val w := by fin_cases n <;> rfl

theorem regActs_chFltCtrl (n : Fin 32) : u.regActs (CH_FLT_CTRL.adr n.val) w = (u.chanFenceWrite n.val w).chanUnfenceWrite n.val w := by
  fin_cases n <;> rfl

theorem regActs_sqCfg (q : Fin 128) : u.regActs (SQ_CFG.adr q.val) w = u.sqEnable q.val w := by fin_cases q <;> rfl

theorem regActs_cqCfg (c : Fin 32) : u.regActs (CQ_CFG.adr c.val) w = u.cqEnable c.val w := by fin_cases c <;> rfl

theorem regActs_ring (r : Fin 2) : u.regActs (ringBase r.val) w = u.evEnable r.val w := by fin_cases r <;> rfl

theorem regActs_temp (g : Fin 16) : u.regActs (GEO_TEMP.adr g.val) w = u.updateHold g.val := by fin_cases g <;> rfl

theorem regActs_patCtrl : u.regActs PAT_CTRL.adr w =
    (let v := if bit w 1 then u.patClear else u
     if bit w 0 then v.patActivate else v) := rfl

theorem regActs_fltFirst : ∀ f : FltUnit, u.regActs (fltAdr f) w = u.validClear (fltAdr f) w
  | .chan n => by fin_cases n <;> rfl
  | .quad q => by fin_cases q <;> rfl
  | .slice i => by fin_cases i <;> rfl
  | .top k => by fin_cases k <;> rfl

/-! ### Each action alone -/

section
variable {u w} {q n : Nat}

theorem quadFenceWrite_none (h : bit w 1 = false) : u.quadFenceWrite q w = u := if_pos (by simp [h])

theorem quadUnfenceWrite_none (h : bit w 0 = false) : u.quadUnfenceWrite q w = u := if_pos (by simp [h])

theorem declareWrite_none (h : bit w 2 = false) : u.declareWrite q w = u := by simp [State.declareWrite, h]

theorem chanFenceWrite_none (h : bit w 1 = false) : u.chanFenceWrite n w = u := if_pos (by simp [h])

theorem chanUnfenceWrite_none (h : bit w 0 = false) : u.chanUnfenceWrite n w = u := if_pos (by simp [h])

theorem evEnable_disables (h : bit w 30 = true) : u.evEnable n w = u.evDisable n := if_pos h

theorem pwrCtrl_deep (h : bit w 31 = true) (hw : bit w 30 = false) : u.pwrCtrl w = u.sleepStart (bit w 30) := by
  unfold State.pwrCtrl State.sleepStart
  by_cases hb : u.block = blockActive <;> simp [h, hw, hb]

theorem pwrCtrl_wake (h : bit w 31 = false) : u.pwrCtrl w = if bit w 30 then u.wakeWrite else u := if_neg (by simp [h])

theorem balInject_arms (h : bit w 23 = false) :
    u.balInject w 0 = if fld w 31 30 != 0 then u.put BAL_INJECT_STAT.DONE 0 else u := if_neg (by simp [h])

end

end

/-! ### The command and the write -/

variable (s : State) (w : Word32)

/-- A byte address of a word of the setup window. -/
abbrev isWordAdr (a : Nat) : Prop := a % 4 = 0 ∧ a < 2 ^ 20

/-- A command that writes the register at a is REGISTER_WRITE of a when its action is that of a's write. -/
theorem registerWrite_acts (a : Nat) (ha : isWordAdr a) {act : State → State} (hact : (s.storeReg a w).regActs a w = act (s.storeReg a w)) :
    onPort s (·.writeWith a w act) = exec (.registerWrite (BitVec.ofNat 18 (a / 4)) w) s := by
  have hadr : 4 * (BitVec.ofNat 18 (a / 4)).toNat = a := by
    rw [BitVec.toNat_ofNat, Nat.mod_eq_of_lt (by omega)]
    omega
  rw [exec_registerWrite, hadr]
  simp only [onPort, State.setupWrite, State.writeWith, hact]

theorem fltAdr_word : ∀ f : FltUnit, isWordAdr (fltAdr f)
  | .chan n => by revert n; decide
  | .quad q => by revert q; decide
  | .slice i => by revert i; decide
  | .top k => by revert k; decide

theorem storeReg_pwrfailN (a : Nat) : (s.storeReg a w).pins.pwrfailN = s.pins.pwrfailN := by
  have htake : (s.portTake a).pins.pwrfailN = s.pins.pwrfailN := by
    unfold State.portTake
    split <;> rfl
  unfold State.storeReg
  dsimp only
  split
  · exact htake
  · exact htake

/-- The pin that a clear of LATCH reports is the pin as it stands. -/
theorem regActs_pwrfail {u : State} {high : Bool} (h : u.pins.pwrfailN = high) :
    u.regActs TET_PWRFAIL.adr w =
      (let v := { u with pins := { u.pins with pwrfailN := high } }
       if bit w 31 then v.latchClear high else v) := by
  subst h
  rfl

end Sys2Proof.Machine

open Sys2Proof Sys2Proof.Machine

/-- Settles O15: the action of the register's write, with the actions that the word does not ask for left out. -/
theorem actionRowsAreRegisterWrites : Obligations.ActionRowsAreRegisterWrites := by
  intro s w same
  have hquad : ∀ q : Fin 8, isWordAdr (PHY_CTRL.adr q.val) ∧ isWordAdr (ZQ_CTRL.adr q.val) ∧ isWordAdr (TET_QPOL.adr q.val)
      ∧ isWordAdr (Q_FLT_CTRL.adr q.val) := by decide
  have hchan : ∀ n : Fin 32, isWordAdr (CH_TRAIN_CTRL.adr n.val) ∧ isWordAdr (CH_RB_STAT.adr n.val) ∧ isWordAdr (CH_FENCE.adr n.val)
      ∧ isWordAdr (CH_UNFENCE.adr n.val) ∧ isWordAdr (CH_FLT_CTRL.adr n.val) ∧ isWordAdr (CQ_CFG.adr n.val) := by decide
  refine ⟨fun q => ?_, fun n => ?_, fun q => ?_, fun g => ?_, fun r => ⟨?_, fun h30 => ?_⟩, fun f => ?_, fun h1 => ?_, fun h0 => ?_, ?_, ?_, ?_,
    ?_, ?_, ?_, ?_, ?_, ?_, fun h23 => ?_, ?_, ?_, ?_, fun h31 h30 => ?_, fun h31 => ?_, ?_, fun hw => ?_, fun hw => ?_⟩
  · obtain ⟨hphy, hzq, hqpol, hflt⟩ := hquad q
    refine ⟨registerWrite_acts s w _ hphy (regActs_phyCtrl _ w q), registerWrite_acts s w _ hzq (regActs_zqCtrl _ w q),
      registerWrite_acts s w _ hqpol (regActs_qpol _ w q), fun h0 h2 => registerWrite_acts s w _ hflt ?_,
      fun h1 h2 => registerWrite_acts s w _ hflt ?_, fun h0 h1 => registerWrite_acts s w _ hflt ?_⟩
    · rw [regActs_qFltCtrl, quadUnfenceWrite_none h0, declareWrite_none h2]
    · rw [regActs_qFltCtrl, quadFenceWrite_none h1, declareWrite_none h2]
    · rw [regActs_qFltCtrl, quadFenceWrite_none h1, quadUnfenceWrite_none h0]
  · obtain ⟨htrain, hrb, hfence, hunfence, hflt, hcq⟩ := hchan n
    refine ⟨registerWrite_acts s w _ htrain (regActs_trainCtrl _ w n), registerWrite_acts s w _ hrb (regActs_rbStat _ w n),
      registerWrite_acts s w _ hfence (regActs_fence _ w n), registerWrite_acts s w _ hunfence (regActs_unfence _ w n),
      fun h0 => registerWrite_acts s w _ hflt ?_, fun h1 => registerWrite_acts s w _ hflt ?_, registerWrite_acts s w _ hcq (regActs_cqCfg _ w n)⟩
    · rw [regActs_chFltCtrl, chanUnfenceWrite_none h0]
    · rw [regActs_chFltCtrl, chanFenceWrite_none h1]
  · exact registerWrite_acts s w _ (by simp only [SQ_CFG.adr]; omega) (regActs_sqCfg _ w q)
  · exact registerWrite_acts s w _ (by simp only [GEO_TEMP.adr]; omega) (regActs_temp _ w g)
  · exact registerWrite_acts s w _ (by simp only [ringBase]; omega) (regActs_ring _ w r)
  · refine registerWrite_acts s w _ (by simp only [ringBase]; omega) ?_
    rw [regActs_ring, evEnable_disables h30, if_pos h30]
  · exact registerWrite_acts s w _ (fltAdr_word f) (regActs_fltFirst _ w f)
  · exact registerWrite_acts s w PAT_CTRL.adr (by decide) (by simp [regActs_patCtrl, h1])
  · exact registerWrite_acts s w PAT_CTRL.adr (by decide) (by simp [regActs_patCtrl, h0])
  · exact registerWrite_acts s w GEO_CTRL.adr (by decide) rfl
  · exact registerWrite_acts s w GEO_STRIPE_SEL.adr (by decide) rfl
  · exact registerWrite_acts s w TOP_CTRL.adr (by decide) rfl
  · exact registerWrite_acts s w BLW_CTRL.adr (by decide) rfl
  · exact registerWrite_acts s w GEO_RLHC_CTRL.adr (by decide) rfl
  · exact registerWrite_acts s w BAL_FATAL_TEST.adr (by decide) rfl
  · exact registerWrite_acts s w BAL_FATAL.adr (by decide) rfl
  · exact registerWrite_acts s w BAL_REPAIR.adr (by decide) rfl
  · exact registerWrite_acts s w BAL_INJECT.adr (by decide) rfl
  · exact registerWrite_acts s w BAL_INJECT.adr (by decide) (balInject_arms h23)
  · exact registerWrite_acts s w BLW_INJECT.adr (by decide) rfl
  · exact registerWrite_acts s w PAT_INJECT.adr (by decide) rfl
  · exact registerWrite_acts s w TET_WAKEN_STAT.adr (by decide) rfl
  · refine registerWrite_acts s w TET_PWR_CTRL.adr (by decide) ((pwrCtrl_deep h31 h30).trans ?_)
    rw [if_pos h31]
  · exact registerWrite_acts s w TET_PWR_CTRL.adr (by decide) (pwrCtrl_wake h31)
  · exact registerWrite_acts s w TET_PWRFAIL.adr (by decide) (regActs_pwrfail w (storeReg_pwrfailN s w _))
  · subst hw; exact registerWrite_acts s _ TOP_FRESET.adr (by decide) rfl
  · subst hw; exact registerWrite_acts s _ TOP_FRESET.adr (by decide) rfl
end


section
/-! The setup registers' form (log 8). Registers are written by `State.setReg`, by a reset and by `startRebuild`, which clears a spare, so every
operation of the model keeps the form: one lemma per operation, in the order of the model's files, whose proof is the operations it is made of. -/

namespace Sys2Proof.Machine.State.regsWf

/-! ### Rules for how operations are put together -/


theorem same {s t : State} (h : s.regsWf) (hr : t.regs = s.regs) : t.regsWf := by
  unfold State.regsWf at *
  rwa [hr]

theorem ite {c : Prop} [Decidable c] {s t : State} (hs : s.regsWf) (ht : t.regsWf) : (if c then s else t).regsWf := by
  split <;> assumption

theorem iteSnd {α : Type} {c : Prop} [Decidable c] {p q : α × State} (hp : p.2.regsWf) (hq : q.2.regsWf) :
    (if c then p else q).2.regsWf := by
  split <;> assumption

theorem foldl {α : Type} {l : List α} {f : State → α → State} {s : State} (h : s.regsWf)
    (hf : ∀ u k, u.regsWf → (f u k).regsWf) : (l.foldl f s).regsWf :=
  List.foldlRecOn l f h fun u hu k _ => hf u k hu

theorem setReg {s : State} (h : s.regsWf) {a : Nat} {w : Word32} : (s.setReg a w).regsWf :=
  tabWf_tabPut h a w

/-- What an operation that may decline to act answers, if it acts. -/
theorem ofSome {s u : State} (h : s.regsWf) (hu : u ∈ some s) : u.regsWf :=
  Option.mem_some.1 hu ▸ h

theorem ofSnd {α : Type} {p : α × State} {a : α} {s : State} (hp : p = (a, s)) (h : p.2.regsWf) : s.regsWf := by
  subst hp
  exact h

theorem foldlSnd {α β : Type} {l : List α} {f : β × State → α → β × State} {p : β × State} (h : p.2.regsWf)
    (hf : ∀ q k, q.2.regsWf → (f q k).2.regsWf) : (l.foldl f p).2.regsWf :=
  List.foldlRecOn (motive := fun q => State.regsWf q.2) l f h fun q hq k _ => hf q k hq

theorem reset : State.reset.regsWf :=
  rfl

end Sys2Proof.Machine.State.regsWf
end

section
/-! The operations that every family uses -/

namespace Sys2Proof.Machine.State.regsWf

variable {s : State}

theorem put {f : Fld} {v : ℕ} (h : s.regsWf) : (s.put f v).regsWf :=
  .setReg h

theorem bump {f : Fld} {n : ℕ} (h : s.regsWf) : (s.bump f n).regsWf :=
  .put h

theorem setBit {a i : ℕ} {b : Bool} (h : s.regsWf) : (s.setBit a i b).regsWf :=
  .setReg h

theorem modSq {i : ℕ} {f : Sq → Sq} (h : s.regsWf) : (s.modSq i f).regsWf :=
  .same h rfl

theorem modCq {i : ℕ} {f : Cq → Cq} (h : s.regsWf) : (s.modCq i f).regsWf :=
  .same h rfl

theorem modTag {i : ℕ} {f : Tag → Tag} (h : s.regsWf) : (s.modTag i f).regsWf :=
  .same h rfl

theorem modRing {i : ℕ} {f : Ring → Ring} (h : s.regsWf) : (s.modRing i f).regsWf :=
  .same h rfl

theorem modLun {i : ℕ} {f : Lun → Lun} (h : s.regsWf) : (s.modLun i f).regsWf :=
  .same h rfl

theorem modChan {i : ℕ} {f : Chan → Chan} (h : s.regsWf) : (s.modChan i f).regsWf :=
  .same h rfl

theorem modCtx {i : ℕ} {f : Ctx → Ctx} (h : s.regsWf) : (s.modCtx i f).regsWf :=
  .same h rfl

theorem modQuad {i : ℕ} {f : Quad → Quad} (h : s.regsWf) : (s.modQuad i f).regsWf :=
  .same h rfl

theorem modStripe {i : ℕ} {f : Stripe → Stripe} (h : s.regsWf) : (s.modStripe i f).regsWf :=
  .same h rfl

theorem modSlice {i : ℕ} {f : Slice → Slice} (h : s.regsWf) : (s.modSlice i f).regsWf :=
  .same h rfl

theorem later {t : Todo} (h : s.regsWf) : (s.later t).regsWf :=
  .same h rfl

theorem draw (h : s.regsWf) : s.draw.2.regsWf :=
  .same h rfl

theorem drawBytes {k : ℕ} : ∀ {s : State}, s.regsWf → (s.drawBytes k).2.regsWf := by
  induction k with
  | zero => exact fun h => h
  | succ k ih => exact fun h => ih (.draw h)

theorem each {l : List ℕ} {f : State → ℕ → State} (h : s.regsWf)
    (hf : ∀ u k, u.regsWf → (f u k).regsWf) : (s.each l f).regsWf :=
  .foldl h hf

theorem setReq {d : ℕ} {b : Bool} (h : s.regsWf) : (s.setReq d b).regsWf :=
  .same h rfl

theorem powerUp {d : ℕ} (h : s.regsWf) : (s.powerUp d).regsWf :=
  .ite h (.setReq h)

theorem setQstate {q v : ℕ} (h : s.regsWf) : (s.setQstate q v).regsWf :=
  .setReg h

theorem fireSlot {j : ℕ} (h : s.regsWf) : (s.fireSlot j).regsWf := by
  unfold State.fireSlot
  refine .ite ?_ h
  extract_lets _ s
  have hs : s.regsWf := .setBit h
  exact .ite (.same hs rfl) hs

theorem fireSource {src : ℕ} (h : s.regsWf) : (s.fireSource src).regsWf :=
  .each h fun _ _ hu => .ite (.fireSlot hu) hu

theorem snapshot {r : EvRec} (h : s.regsWf) : (s.snapshot r).regsWf :=
  .put (.each h (fun _ _ hu => .setReg hu))

theorem snapAll (h : s.regsWf) : s.snapAll.regsWf :=
  .foldl (.same h rfl) fun _ _ hu => .snapshot hu

theorem enqueue {ring : ℕ} {r : EvRec} (h : s.regsWf) : (s.enqueue ring r).regsWf := by
  unfold State.enqueue
  refine .ite (.modRing h) (.ite (.modRing h) ?_)
  split
  · exact .ite (.bump (.modRing h)) (.modRing h)
  · exact .modRing h

theorem sawWork (h : s.regsWf) : s.sawWork.regsWf :=
  .same h rfl

theorem raise {src sev info : ℕ} {holder : Option Holder} (h : s.regsWf) : (s.raise src sev info holder).regsWf := by
  unfold State.raise
  refine .ite h ?_
  extract_lets _ s1
  have hs1 : s1.regsWf := .ite (.sawWork (.fireSource h)) (.fireSource h)
  exact .ite (.setBit hs1) (.enqueue (.ite (.same hs1 rfl) hs1))

theorem refillRing {ring : ℕ} (h : s.regsWf) : (s.refillRing ring).regsWf :=
  .foldl (.modRing h) fun _ _ hu => .later hu

theorem andThen {w : Holder} {t : Todo} {f : State → State} (h : s.regsWf) (hf : ∀ u, u.regsWf → (f u).regsWf) :
    (s.andThen w t f).regsWf :=
  .ite (.same h rfl) (hf _ h)

theorem laterFor {w : Holder} {t : Todo} (h : s.regsWf) : (s.laterFor w t).regsWf :=
  .andThen h fun _ hu => .later hu

theorem unholdWork {w : Holder} (h : s.regsWf) : (s.unholdWork w).regsWf :=
  .ite h (.same h rfl)

theorem evOpError {n lun tag code detail : ℕ} (h : s.regsWf) : (s.evOpError n lun tag code detail).regsWf :=
  .raise h

theorem evLunFault {n lun tag code : ℕ} (h : s.regsWf) : (s.evLunFault n lun tag code).regsWf :=
  .raise h

theorem evRbStuck {n code t : ℕ} (h : s.regsWf) : (s.evRbStuck n code t).regsWf :=
  .raise h

theorem evTimeout {n lun tag code us : ℕ} (h : s.regsWf) : (s.evTimeout n lun tag code us).regsWf :=
  .raise h

theorem evTrainDrift {n code : ℕ} (h : s.regsWf) : (s.evTrainDrift n code).regsWf :=
  .raise h

theorem evPhyFault {n lun tag code detail : ℕ} (h : s.regsWf) : (s.evPhyFault n lun tag code detail).regsWf :=
  .raise h

theorem evQuad {q k sev info : ℕ} (h : s.regsWf) : (s.evQuad q k sev info).regsWf :=
  .raise h

theorem evSlice {sl k info : ℕ} (h : s.regsWf) : (s.evSlice sl k info).regsWf :=
  .raise h

theorem evSpareExhausted {kind unit : ℕ} (h : s.regsWf) : (s.evSpareExhausted kind unit).regsWf :=
  .raise h

theorem evSpareTaken {kind unit spare : ℕ} (h : s.regsWf) : (s.evSpareTaken kind unit spare).regsWf :=
  .raise h

theorem evStripeDegraded {id why : ℕ} {w : Option Holder} (h : s.regsWf) : (s.evStripeDegraded id why w).regsWf :=
  .raise h

theorem evLateFail {g eb page pass outcome spare stripe : ℕ} {w : Option Holder} (h : s.regsWf) :
    (s.evLateFail g eb page pass outcome spare stripe w).regsWf :=
  .raise h

theorem enterSafe {n : ℕ} (h : s.regsWf) : (s.enterSafe n).regsWf :=
  .put (.modChan h)

theorem leaveSafe {n : ℕ} (h : s.regsWf) : (s.leaveSafe n).regsWf :=
  .ite h (.put (.modChan h))

theorem allSafe (h : s.regsWf) : s.allSafe.regsWf :=
  .each h fun _ _ hu => .enterSafe hu

theorem cutApply {q : ℕ} (h : s.regsWf) : (s.cutApply q).regsWf :=
  .ite h (.each (.put (.modQuad (.ite (.put h) h))) (fun _ _ hu => .put (.put (.modChan (.ite (.modChan (.modCtx hu)) hu)))))

theorem fatal {b : ℕ} (h : s.regsWf) : (s.fatal b).regsWf := by
  unfold State.fatal
  extract_lets s
  have hs : s.regsWf := .setBit h
  exact .raise (.allSafe (.each (.same hs rfl) (fun _ _ hu => .cutApply hu)))

theorem capture {u : FltUnit} {code cls ctx : ℕ} {injected : Bool} (h : s.regsWf) :
    (s.capture u code cls ctx injected).regsWf :=
  .ite (.put (.bump h)) (.setReg (.setReg (.setReg (.bump h))))

theorem fenceLun {g : ℕ} (h : s.regsWf) : (s.fenceLun g).regsWf :=
  .later (.modLun h)

theorem fenceChan {n : ℕ} (h : s.regsWf) : (s.fenceChan n).regsWf :=
  .later (.put h)

theorem fenceQuad {q : ℕ} (h : s.regsWf) : (s.fenceQuad q).regsWf :=
  .later (.put h)

theorem escalate {u : FltUnit} {code cls : ℕ} {restarted : Bool} (h : s.regsWf) : (s.escalate u code cls restarted).regsWf := by
  unfold State.escalate
  split
  · exact .ite (.evLunFault (.fenceChan (.capture h))) h
  · exact .ite h (.fenceQuad (.capture (.each h (fun _ _ hu => .evLunFault hu))))
  · exact h
  · exact .ite (.fatal h) h

theorem fault {u : FltUnit} {code cls ctx : ℕ} {restarted injected : Bool} (h : s.regsWf) :
    (s.fault u code cls ctx restarted injected).regsWf := by
  unfold State.fault
  extract_lets _ _ s1
  have hs1 : s1.regsWf := by
    unfold s1
    split
    · exact .setBit (.capture h)
    · exact .capture h
  exact .ite (.escalate hs1) hs1

theorem releaseBuf {owner addr : ℕ} (h : s.regsWf) : (s.releaseBuf owner addr).regsWf := by
  unfold State.releaseBuf
  split
  · exact h
  · exact .same h rfl

theorem releaseAll {owner : ℕ} (h : s.regsWf) : (s.releaseAll owner).regsWf :=
  .foldl h fun _ _ hu => .releaseBuf hu

theorem cosPut {t : ℕ} {c : Cpl} (h : s.regsWf) : (s.cosPut t c).regsWf := by
  unfold State.cosPut
  refine .ite h ?_
  extract_lets _ _ s _ _ _ s4
  have hs : s.regsWf := .ite (.bump h) h
  have hs4 : s4.regsWf := .put (.modCq (.modTag (.same hs rfl)))
  exact .later (.each (.ite (.raise (.same hs4 rfl)) hs4) (fun _ _ hu => .ite (.modChan hu) hu))

theorem cosInsert {t : ℕ} {c : Cpl} (h : s.regsWf) : (s.cosInsert t c).regsWf := by
  unfold State.cosInsert
  refine .ite h ?_
  extract_lets s
  have hs : s.regsWf := .releaseAll h
  exact .ite (.same hs rfl) (.cosPut hs)

theorem retryParked (h : s.regsWf) : s.retryParked.regsWf :=
  .foldl (.same h rfl) fun _ _ hu => .cosPut hu

theorem complete {t status detail info0 info1 : ℕ} (h : s.regsWf) : (s.complete t status detail info0 info1).regsWf :=
  .cosInsert h

theorem tryFree {t : ℕ} (h : s.regsWf) : (s.tryFree t).regsWf := by
  unfold State.tryFree
  refine .ite ?_ h
  extract_lets s
  have hs : s.regsWf := .each h fun _ _ hu => .ite (.modChan hu) hu
  exact .same hs (by with_reducible rfl)

end Sys2Proof.Machine.State.regsWf
end

section
/-! What software tells the controller -/

namespace Sys2Proof.Machine.State.regsWf

variable {s : State}

theorem updateHold {t : ℕ} (h : s.regsWf) : (s.updateHold t).regsWf :=
  .ite h (.raise (.put h))

theorem badRanges {t : ℕ} (h : s.regsWf) : (s.badRanges t).regsWf :=
  .put h

end Sys2Proof.Machine.State.regsWf
end

section
/-! Rows, injection and slices -/

namespace Sys2Proof.Machine.State.regsWf

variable {s : State}

theorem updChanRec {n : ℕ} (h : s.regsWf) : (s.updChanRec n).regsWf :=
  .put h

theorem updTopRec {k : ℕ} (h : s.regsWf) : (s.updTopRec k).regsWf :=
  .put h

theorem recWait {unit x : ℕ} (h : s.regsWf) : (s.recWait unit x).regsWf :=
  .ite (.updChanRec (.same h rfl)) (.updTopRec (.same h rfl))

theorem recDone {p : ℕ × ℕ → Bool} (h : s.regsWf) : (s.recDone p).regsWf :=
  .foldl (.same h rfl) fun _ _ hu => .ite (.updChanRec hu) (.updTopRec hu)

theorem evSramUe {q bank row tag : ℕ} {test inj : Bool} (h : s.regsWf) : (s.evSramUe q bank row tag test inj).regsWf :=
  .evQuad h

theorem evTopSramUe {bank row tag detail : ℕ} {inj : Bool} (h : s.regsWf) : (s.evTopSramUe bank row tag detail inj).regsWf :=
  .raise h

theorem spareRow {bank row : ℕ} {bad : Bool} (h : s.regsWf) : (s.spareRow bank row bad).regsWf := by
  unfold State.spareRow
  refine .ite h ?_
  extract_lets +onlyGivenNames _ _ _
  refine .ite (.fault (.evSpareExhausted (.same h rfl))) ?_
  extract_lets +onlyGivenNames _ _ s2
  have hs2 : s2.regsWf := .ite (.ite (.capture (.raise (.put (.same h rfl)))) (.fault (.raise (.put (.same h rfl)))))
    (.fault (.raise (.put (.same h rfl))))
  exact .ite (.updChanRec (.same hs2 rfl)) (.updTopRec (.same hs2 rfl))

theorem rowCopied {bank : ℕ} (h : s.regsWf) : (s.rowCopied bank).regsWf := by
  unfold State.rowCopied
  split
  · exact h
  · exact .ite (.updChanRec (.same h rfl)) (.updTopRec (.same h rfl))

theorem track {bank row : ℕ} (h : s.regsWf) : (s.track bank row).regsWf := by
  unfold State.track
  extract_lets +onlyGivenNames s _ _ _ _
  have hs : s.regsWf := .bump h
  split
  · exact .ite (.later (.same hs rfl)) (.same (.same hs rfl) rfl)
  · extract_lets +onlyGivenNames _ s
    have hs : s.regsWf := .ite (.same hs rfl) (.bump (.same (.same hs rfl) rfl))
    exact .same hs rfl

theorem queueBad {row : ℕ} (h : s.regsWf) : (s.queueBad row).regsWf :=
  .ite (.fatal (.evTopSramUe (.capture h))) (.evTopSramUe h)

theorem recOwner {bank : ℕ} {owner : Option ℕ} (h : s.regsWf) : (s.recOwner bank owner).regsWf := by
  unfold State.recOwner
  split
  · exact .recWait h
  · exact h

theorem setPoison {r : SramRead} {bad : Bool} (h : s.regsWf) : (s.setPoison r bad).regsWf :=
  .same h rfl

theorem sramRead {r : SramRead} {owner : Option ℕ} (h : s.regsWf) : (s.sramRead r owner).2.regsWf := by
  unfold State.sramRead
  extract_lets _ _ _ _ _ s1
  have hs1 : s1.regsWf := .ite (.setPoison h) (.put (.put (.put (.setPoison h))))
  exact .iteSnd (.track hs1) (.later (.ite (.recOwner (.evSramUe (.fault hs1))) (.ite (.recOwner (.fault (.evTopSramUe hs1)))
    (.ite (.recOwner (.fault (.evTopSramUe hs1))) (.ite (.queueBad hs1) (.evTopSramUe hs1))))))

theorem updPairs (h : s.regsWf) : s.updPairs.regsWf :=
  .ite h (.each h (fun _ _ hu => .ite (.powerUp hu) (.ite hu (.setReq hu))))

theorem checkSlices' (h : s.regsWf) : (s.checkSlices').regsWf :=
  .ite (.fatal (.capture h)) h

theorem takeSpare {for' : ℕ} (h : s.regsWf) : (s.takeSpare for').regsWf := by
  unfold State.takeSpare
  split
  · exact .updPairs (.powerUp (.modSlice h))
  · exact .checkSlices' (.updPairs (.evSpareExhausted h))

theorem sliceLost {sl : Fin 18} {code tag ctx : ℕ} (h : s.regsWf) : (s.sliceLost sl code tag ctx).regsWf :=
  .takeSpare (.evSlice (.modSlice (.fault h)))

theorem spareTested {sl : Fin 18} {fail : Option (BitVec 2 × ℕ)} (h : s.regsWf) : (s.spareTested sl fail).regsWf := by
  unfold State.spareTested
  refine .ite h ?_
  split
  · exact .updPairs (.evSpareTaken (.modSlice h))
  · exact .takeSpare (.modSlice (.evSlice (.fault h)))

theorem trackFree {bank row : ℕ} (h : s.regsWf) : (s.trackFree bank row).regsWf :=
  .same h rfl

theorem pairUp {b : ℕ} (h : s.regsWf) : (s.pairUp b).regsWf :=
  .ite (.powerUp h) h

theorem pairDown {b : ℕ} (h : s.regsWf) : (s.pairDown b).regsWf :=
  .ite (.setReq h) h

end Sys2Proof.Machine.State.regsWf
end

section
/-! Spool requests, Pool needs and the RLH cache -/

namespace Sys2Proof.Machine.State.regsWf

variable {s : State}

theorem ask {r : Spool} (h : s.regsWf) : (s.ask r).regsWf :=
  .same h rfl

theorem askTag {t : ℕ} {r : Spool} (h : s.regsWf) : (s.askTag t r).regsWf :=
  .ite h (.ask (.modTag h))

theorem sendUser {t k : ℕ} {data : List Byte} (h : s.regsWf) : (s.sendUser t k data).regsWf :=
  .foldl h fun _ _ hu => .askTag hu

theorem sendMeta {t k : ℕ} {data : List Byte} (h : s.regsWf) : (s.sendMeta t k data).regsWf :=
  .ite h (List.foldlRecOn (motive := fun p : State × ℕ => State.regsWf p.1) _ _ h fun _ hp _ _ => .askTag hp)

theorem dmaErrorEvent {r : Spool} {err : ℕ} {late : Bool} {tag : ℕ} {w : Option Holder} (h : s.regsWf) :
    (s.dmaErrorEvent r err late tag w).regsWf :=
  .raise (.fault (.ite (.bump (.bump h)) (.bump h)))

theorem need {cls owner : ℕ} {use : PoolUse} (h : s.regsWf) : (s.need cls owner use).regsWf :=
  .ite h (.same h rfl)

theorem share {t addr : ℕ} {use : PoolUse} (h : s.regsWf) : (s.share t addr use).regsWf :=
  .same h rfl

theorem emptyOver (h : s.regsWf) : s.emptyOver.regsWf :=
  .ite (.same h rfl) h

theorem dropNeeds {p : PoolReq → Bool} (h : s.regsWf) : (s.dropNeeds p).regsWf :=
  .emptyOver (.same h rfl)

theorem freeUse {use : PoolUse} (h : s.regsWf) : (s.freeUse use).regsWf := by
  unfold State.freeUse
  split
  · split
    · exact .releaseBuf h
    · exact h
  · exact h

theorem rlhTouch {l : RlhLine} (h : s.regsWf) : (s.rlhTouch l).regsWf :=
  .same h rfl

theorem modLine {line : ℕ} {f : RlhLine → RlhLine} (h : s.regsWf) : (s.modLine line f).regsWf :=
  .same h rfl

theorem askFill {line : ℕ} (h : s.regsWf) : (s.askFill line).regsWf :=
  .ite h (.ask h)

theorem writeBack {line : ℕ} (h : s.regsWf) : (s.writeBack line).regsWf := by
  unfold State.writeBack
  split
  · exact .ite h (.ask (.bump (.modLine h)))
  · exact h

theorem rlhWay {line : ℕ} {tag : Option ℕ} (h : s.regsWf) : (s.rlhWay line tag).2.regsWf := by
  unfold State.rlhWay
  extract_lets +onlyGivenNames _ _
  split
  · exact h
  · extract_lets +onlyGivenNames _
    split
    · exact h
    · extract_lets +onlyGivenNames _ _
      refine .iteSnd (.same h rfl) (.iteSnd (.ask (.bump (.same h rfl))) ?_)
      split
      · exact h
      · exact .iteSnd (.ask (.same h rfl)) (.iteSnd h (.need h))

theorem rlhInstall {line : ℕ} {tag : Option ℕ} {data : List Byte} (h : s.regsWf) : (s.rlhInstall line tag data).2.regsWf := by
  unfold State.rlhInstall
  refine .iteSnd h ?_
  split
  rename_i u heq
  have hu : u.regsWf := .ofSnd heq (.rlhWay h)
  split
  · exact hu
  · exact .rlhTouch (.same hu rfl)

theorem rlhPut {x : ℕ} {e : Word32} (h : s.regsWf) : (s.rlhPut x e).regsWf :=
  .modLine h

theorem rlhApply {u : RlhUpd} (h : s.regsWf) : (s.rlhApply u).regsWf := by
  unfold State.rlhApply
  split
  · exact h
  · exact .ite h (.ite h (.ite (.writeBack (.rlhPut h)) (.rlhPut h)))

theorem rlhUpdates {line : ℕ} (h : s.regsWf) : (s.rlhUpdates line).regsWf :=
  .foldl (.same h rfl) fun _ _ hu => .rlhApply hu

end Sys2Proof.Machine.State.regsWf
end

section
/-! The queue of die operations -/

namespace Sys2Proof.Machine.State.regsWf

variable {s : State}

theorem addOp {o : Op} (h : s.regsWf) : (s.addOp o).regsWf := by
  unfold State.addOp
  refine .ite h (.ite (.later h) ?_)
  extract_lets _ _ _ _ s
  have hs : s.regsWf := .ite h (.ite (.modChan h) h)
  exact .same hs rfl

theorem dropOps {p : Op → Bool} (h : s.regsWf) : (s.dropOps p).regsWf :=
  .same h rfl

theorem newSeq (h : s.regsWf) : s.newSeq.2.regsWf :=
  .same h rfl

theorem newId (h : s.regsWf) : s.newId.2.regsWf :=
  .same h rfl

theorem wakePark {g : ℕ} (h : s.regsWf) : (s.wakePark g).regsWf :=
  .ite (.same h rfl) h

theorem dropPark {g : ℕ} (h : s.regsWf) : (s.dropPark g).regsWf :=
  .ite h (.ite (.modChan (.modChan (.modLun h))) (.modChan (.modLun h)))

theorem requestPark {g k : ℕ} (h : s.regsWf) : (s.requestPark g k).regsWf := by
  unfold State.requestPark
  split
  · exact .ite (.wakePark (.modLun h)) (.modLun h)
  · exact h

theorem request {k : ℕ} {p : Op → Bool} (h : s.regsWf) : (s.request k p).regsWf := by
  unfold State.request
  refine .each (.each (.same h rfl) (fun _ _ hu => .ite (.modCtx hu) hu)) fun _ _ hu => ?_
  split
  · exact .ite (.requestPark hu) hu
  · exact hu

theorem cancelOps {p : Op → Bool} (h : s.regsWf) : (s.cancelOps p).regsWf :=
  .request (.dropOps h)

end Sys2Proof.Machine.State.regsWf
end

section
/-! The read of a plane page -/

namespace Sys2Proof.Machine.State.regsWf

variable {s : State}

theorem modRead {id : ℕ} {f : PRead → PRead} (h : s.regsWf) : (s.modRead id f).regsWf :=
  .same h rfl

theorem setUnit {t plane cw : ℕ} {f : Cw → Cw} (h : s.regsWf) : (s.setUnit t plane cw f).regsWf :=
  .modTag h

theorem countSenses {r : PRead} {n : ℕ} (h : s.regsWf) : (s.countSenses r n).regsWf := by
  unfold State.countSenses
  split
  · exact .modTag h
  · exact h

theorem reached {r : PRead} {k : ℕ} (h : s.regsWf) : (s.reached r k).regsWf := by
  unfold State.reached
  split
  · exact .modTag h
  · exact h

theorem dropStage {n : ℕ} {p : Stage → Bool} (h : s.regsWf) : (s.dropStage n p).regsWf :=
  .ite (.modChan h) h

theorem freeStages {r : PRead} {cw : ℕ} {keep : Option ℕ} (h : s.regsWf) : (s.freeStages r cw keep).regsWf := by
  unfold State.freeStages
  split
  · exact .modChan (.dropStage h)
  · exact .dropStage h

theorem addJob {j : Job} {order : Option ℕ} (h : s.regsWf) : (s.addJob j order).regsWf :=
  .same h rfl

theorem dropJobs {p : Job → Bool} (h : s.regsWf) : (s.dropJobs p).regsWf := by
  unfold State.dropJobs
  refine .each (.same h rfl) fun _ _ hu => ?_
  split
  · exact .ite (.modSlice hu) hu
  · exact hu

theorem recountJobs {id : ℕ} (h : s.regsWf) : (s.recountJobs id).regsWf :=
  .modRead h

theorem startSense {id step set : ℕ} (h : s.regsWf) : (s.startSense id step set).regsWf := by
  unfold State.startSense
  split
  · exact h
  · exact .addOp (.reached (.modRead h))

theorem giveUp {id : ℕ} (h : s.regsWf) : (s.giveUp id).regsWf :=
  .modRead h

theorem softOp {r : PRead} {cw : ℕ} (h : s.regsWf) : (s.softOp r cw).regsWf :=
  .addOp h

theorem softGo {id : ℕ} (h : s.regsWf) : (s.softGo id).regsWf := by
  unfold State.softGo
  split
  · exact h
  · exact .ite h (.foldl (.modRead h) (fun _ _ hu => .softOp hu))

theorem softStep {id k : ℕ} (h : s.regsWf) : (s.softStep id k).regsWf := by
  unfold State.softStep
  split
  · exact h
  · exact .ite (.ite (.giveUp h) (.later (.modRead h))) (.softGo (.foldl (.reached (.modRead h)) (fun _ _ hu => .ite hu
      (.need hu))))

theorem unspent {r : PRead} (h : s.regsWf) : (s.unspent r).regsWf := by
  unfold State.unspent
  split
  · exact .ite h (.same h rfl)
  · exact h

theorem endRead {id : ℕ} (h : s.regsWf) : (s.endRead id).regsWf := by
  unfold State.endRead
  split
  · exact h
  · exact .ite h (.later (.foldl (.dropNeeds (.dropJobs (.cancelOps (.modRead (.unspent h))))) (fun _ _ hu => .freeUse hu)))

theorem readPush {id : ℕ} (h : s.regsWf) : (s.readPush id).regsWf := by
  unfold State.readPush
  split
  · exact h
  · refine .ite h (.ite (.endRead h) (.ite h (.ite (.softGo h) (.ite (.ite h (.ite (.endRead (.giveUp h)) ?_))
      (.ite (.softStep h) h)))))
    split
    · exact .startSense h
    · exact .ite (.softStep h) h

theorem readGo {id : ℕ} (h : s.regsWf) : (s.readGo id).regsWf := by
  unfold State.readGo
  extract_lets
  split
  · exact .ite (.endRead (.readPush h)) (.readPush h)
  · exact .readPush h

theorem dropRebuild {i cw : ℕ} (h : s.regsWf) : (s.dropRebuild i cw).regsWf := by
  unfold State.dropRebuild
  extract_lets s
  have hs : s.regsWf := .dropJobs h
  exact .foldl (.same hs (by with_reducible rfl)) fun _ _ hu =>
    .readGo (.freeStages (.recountJobs (.modRead (.dropJobs (.cancelOps hu)))))

theorem dropRival {o : Owner} {plane cw : ℕ} (h : s.regsWf) : (s.dropRival o plane cw).regsWf :=
  .foldl (.foldl (.same h rfl) (fun _ _ hu => .dropRebuild hu)) fun _ _ hu => .later hu

theorem tagGood {t plane cw step corr : ℕ} {word : List Byte} (h : s.regsWf) :
    (s.tagGood t plane cw step corr word).regsWf := by
  unfold State.tagGood
  extract_lets _ _ s
  have hs : s.regsWf := .setUnit h
  exact .ite (.sendMeta (.sendUser (.modTag hs))) (.same (.modTag hs) (by with_reducible rfl))

theorem cwGood {id cw corr set step : ℕ} {word : List Byte} {handle : ℕ} (h : s.regsWf) :
    (s.cwGood id cw corr set step word handle).regsWf := by
  unfold State.cwGood
  split
  · exact h
  · extract_lets _ _ _ s3
    have hs3 : s3.regsWf := .recountJobs (.modRead (.dropOps (.dropJobs (.modRead h))))
    split
    · exact .readGo (.tagGood (.modTag (.dropRival (.freeStages hs3))))
    · exact .readGo (.freeStages hs3)

theorem cwEnd {id cw : ℕ} {res : CwRes} (h : s.regsWf) : (s.cwEnd id cw res).regsWf :=
  .readGo (.dropOps (.dropJobs (.modRead h)))

theorem jobFailed {j : Job} {weight : ℕ} (h : s.regsWf) : (s.jobFailed j weight).regsWf := by
  unfold State.jobFailed
  split
  · exact .readGo (.ite (.modRead (.addJob (.modRead h))) (.modRead h))
  · exact h

theorem senseFailed {id : ℕ} (h : s.regsWf) : (s.senseFailed id).regsWf := by
  unfold State.senseFailed
  split
  · exact h
  · exact .ite (.readGo (.dropNeeds (.modRead (.dropOps h)))) (.readGo (.modRead (.dropOps h)))

theorem senseDone {id : ℕ} (h : s.regsWf) : (s.senseDone id).regsWf := by
  unfold State.senseDone
  split
  · exact h
  · exact .foldl (.modRead h) fun _ _ hu => .addOp hu

theorem xferDone {id cw : ℕ} {o : Op} (h : s.regsWf) : (s.xferDone id cw o).regsWf := by
  unfold State.xferDone
  extract_lets
  split
  · extract_lets
    refine .ite (.readGo (.dropStage (.modRead h))) (.ite ?_ (.ite (.cwEnd (.ite (.bump (.modRead h))
      (.freeStages (.bump (.modRead h))))) (.readGo (.modRead (.addJob (.modRead h))))))
    split
    · exact .readGo (.sendUser (.freeStages (.modRead (.setUnit (.modRead h)))))
    · exact .cwEnd (.modRead h)
  · exact .ite (.senseFailed h) (.readGo h)
  · exact .dropStage h

theorem fetchBack {addr len : ℕ} {c : Cont} (h : s.regsWf) : (s.fetchBack addr len c).regsWf :=
  .foldl h fun _ _ hu => .ask hu

theorem softDone {id cw : ℕ} {o : Op} (h : s.regsWf) : (s.softDone id cw o).regsWf := by
  unfold State.softDone
  extract_lets
  split
  · exact .ite (.cwEnd (.modRead (.bump (.dropStage h)))) (.foldl (.dropStage (.modRead h)) (fun _ _ hu => .ask hu))
  · exact .senseFailed h
  · exact .dropStage h

theorem softFail {id cw : ℕ} (h : s.regsWf) : (s.softFail id cw).regsWf :=
  .readGo (.modRead h)

theorem softStaged {id cw : ℕ} (h : s.regsWf) : (s.softStaged id cw).regsWf := by
  unfold State.softStaged
  refine .ite h ?_
  split
  · exact h
  · exact .ite h (.ite (.softFail h) (.fetchBack h))

theorem softRead {id cw : ℕ} (h : s.regsWf) : (s.softRead id cw).regsWf := by
  unfold State.softRead
  refine .ite h ?_
  split
  · exact h
  · exact .ite h (.ite (.softFail h) (.readGo (.modRead (.addJob h))))

theorem readFenced {id : ℕ} (h : s.regsWf) : (s.readFenced id).regsWf := by
  unfold State.readFenced
  split
  · exact h
  · exact .ite h (.ite (.ite (.modRead (.dropOps h)) (.readGo (.giveUp (.modRead (.dropOps h)))))
      (.later (.modRead (.modRead (.dropOps h)))))

theorem startRead {r : PRead} (h : s.regsWf) : (s.startRead r).regsWf := by
  unfold State.startRead
  split
  rename_i u heq
  have hu : u.regsWf := .ofSnd heq (.newId h)
  extract_lets +onlyGivenNames _ _
  refine .ite (.startSense (.same hu rfl)) (.ite (.startSense (.same hu rfl)) ?_)
  extract_lets +onlyGivenNames _
  split
  · exact .startSense (.modRead (.rlhTouch (.bump (.same hu rfl))))
  · extract_lets +onlyGivenNames s
    have hs : s.regsWf := .modRead (.bump (.same hu rfl))
    exact .askFill (.same hs rfl)

theorem fillEnds {id : ℕ} {late : Bool} (h : s.regsWf) : (s.fillEnds id late).regsWf := by
  unfold State.fillEnds
  split
  · exact h
  · refine .ite h ?_
    extract_lets _ _ _ s1
    have hs1 : s1.regsWf := .ite (.bump (.same h rfl)) (.same h rfl)
    split
    · exact .startSense (.modRead (.modRead hs1))
    · exact .startSense (.modRead hs1)

theorem rlhUpdate {r : PRead} {step4 : Bool} (h : s.regsWf) : (s.rlhUpdate r step4).regsWf := by
  unfold State.rlhUpdate
  extract_lets
  split
  · exact h
  · exact .ite h (.ite (.rlhApply h) (.askFill (.same h rfl)))

end Sys2Proof.Machine.State.regsWf
end

section
/-! Stripe rows and accumulators -/

namespace Sys2Proof.Machine.State.regsWf

variable {s : State}

theorem modRow {sid r : ℕ} {f : Row → Row} (h : s.regsWf) : (s.modRow sid r f).regsWf :=
  .same h rfl

theorem openRow {sid r : ℕ} (h : s.regsWf) : (s.openRow sid r).regsWf :=
  .ite h (.same h rfl)

theorem modAcc {sid r : ℕ} {f : Acc → Acc} (h : s.regsWf) : (s.modAcc sid r f).regsWf :=
  .same h rfl

theorem needAcc {sid r : ℕ} (h : s.regsWf) : (s.needAcc sid r).regsWf := by
  unfold State.needAcc
  refine .ite h ?_
  refine .ite (.same h rfl) ?_
  refine .ite h ?_
  split
  · exact .need (.modAcc h)
  · exact .need (.same h rfl)

theorem spillMove {sid r : ℕ} {tag : Option ℕ} {addr : ℕ} {w : Bool} {data : List Byte} (h : s.regsWf) :
    (s.spillMove sid r tag addr w data).regsWf :=
  .foldl h fun _ _ hu => .ask hu

theorem spillGranted {sid r : ℕ} (h : s.regsWf) : (s.spillGranted sid r).regsWf := by
  unfold State.spillGranted
  split
  · exact .ite (.spillMove (.modAcc h)) (.modAcc h)
  · exact .freeUse h

theorem fold {sid r m : ℕ} {tag : Option ℕ} {i : ℕ} {d : List Byte} (h : s.regsWf) : (s.fold sid r m tag i d).regsWf := by
  unfold State.fold
  split
  · exact h
  · extract_lets +onlyGivenNames _ _ _
    refine .ite (.modAcc h) ?_
    extract_lets +onlyGivenNames _ s
    have hs : s.regsWf := .spillMove (.spillMove (.modAcc h))
    exact .ite hs (.spillMove (.spillMove hs))

theorem foldSlot {sid r m : ℕ} {tag : Option ℕ} {data : List (List Byte)} (h : s.regsWf) :
    (s.foldSlot sid r m tag data).regsWf :=
  .foldl h fun _ _ hu => .fold hu

theorem releaseAcc {sid r : ℕ} (h : s.regsWf) : (s.releaseAcc sid r).regsWf := by
  unfold State.releaseAcc
  split
  · exact h
  · exact .ite (.dropNeeds (.same h rfl)) (.releaseBuf (.dropNeeds (.same h rfl)))

theorem readAcc {sid r m : ℕ} (h : s.regsWf) : (s.readAcc sid r m).regsWf := by
  unfold State.readAcc
  split
  · exact .ite h (.spillMove h)
  · exact h

end Sys2Proof.Machine.State.regsWf
end

section
/-! Calibration, training, drift and the APPLY step -/

namespace Sys2Proof.Machine.State.regsWf

variable {s : State}

theorem applyEnd {q reason chan : ℕ} (h : s.regsWf) : (s.applyEnd q reason chan).regsWf :=
  .modQuad (.put (.put (.put h)))

theorem leftUntrained {n reason : ℕ} {tell : Bool} (h : s.regsWf) : (s.leftUntrained n reason tell).regsWf := by
  unfold State.leftUntrained
  extract_lets _ s
  have hs : s.regsWf := by
    unfold s
    split
    · exact .fault h
    · exact h
  exact .ite (.evPhyFault hs) hs

theorem applyDead {q reason : ℕ} (h : s.regsWf) : (s.applyDead q reason).regsWf :=
  .each (.applyEnd h) fun _ _ hu => .leftUntrained (.enterSafe (.ite (.put (.modChan hu)) (.modChan hu)))

theorem switchTold {q : ℕ} (h : s.regsWf) : (s.switchTold q).regsWf :=
  .ite (.evQuad (.modQuad h)) h

theorem applyForce {q : ℕ} (h : s.regsWf) : (s.applyForce q).regsWf := by
  unfold State.applyForce
  extract_lets _ _ s2
  have hs2 : s2.regsWf := by
    unfold s2
    refine .each (.put (.switchTold h)) fun _ _ hu => ?_
    extract_lets _ _ s1
    have hs1 : s1.regsWf := .put (.put (.put (.modChan hu)))
    exact .ite hs1 (.enterSafe hs1)
  exact .modQuad (.put (.put hs2))

theorem driftRestart {n : ℕ} (h : s.regsWf) : (s.driftRestart n).regsWf :=
  .modChan (.put h)

theorem quadBack {q : ℕ} (h : s.regsWf) : (s.quadBack q).regsWf :=
  .each (.setQstate h) fun _ _ hu => .driftRestart hu

theorem applyStart {q : ℕ} (h : s.regsWf) : (s.applyStart q).regsWf :=
  .ite h (.modQuad (.put (.ite (.quadBack h) h)))

theorem applyDrained {q : ℕ} (h : s.regsWf) : (s.applyDrained q).regsWf := by
  unfold State.applyDrained
  refine .ite ?_ h
  split
  · exact .applyEnd h
  · exact .applyForce h

theorem applyFinish {q : ℕ} (h : s.regsWf) : (s.applyFinish q).regsWf := by
  unfold State.applyFinish
  refine .ite ?_ h
  extract_lets _ failed
  clear_value failed
  split
  · exact .applyEnd h
  · exact .each (.applyEnd h) fun _ _ hu => .leftUntrained hu

theorem applyTrain {q : ℕ} (h : s.regsWf) : (s.applyTrain q).regsWf :=
  .ite (.applyFinish (.each (.modQuad h) (fun _ _ hu => .ite (.ite (.modQuad (.setReg hu)) (.modChan (.put hu))) hu))) h

theorem pllLock {q : ℕ} (h : s.regsWf) : (s.pllLock q).regsWf :=
  .put (.put (.modQuad h))

theorem zqTake {n : ℕ} (h : s.regsWf) : (s.zqTake n).regsWf :=
  .modChan h

theorem zqLook {n : ℕ} (h : s.regsWf) : (s.zqLook n).regsWf :=
  .ite (.zqTake h) h

theorem zqBoundary {n : ℕ} (h : s.regsWf) : (s.zqBoundary n).regsWf := by
  unfold State.zqBoundary
  split
  · exact .ite (.zqTake h) h
  · exact h

theorem zqBegin {q : ℕ} (h : s.regsWf) : (s.zqBegin q).regsWf :=
  .ite (.modQuad h) h

theorem calCodes {q : ℕ} {r : CalReport} (h : s.regsWf) : (s.calCodes q r).regsWf :=
  .each (.modQuad (.put (.put (.put (.put (.put h)))))) fun _ _ hu => .zqTake hu

theorem shortCal {q : ℕ} {r : CalReport} (h : s.regsWf) : (s.shortCal q r).regsWf := by
  unfold State.shortCal
  extract_lets pu pd odt setC s₁ s₂ bad s₃
  have hset : ∀ u f v, u.regsWf → (setC u f v).regsWf := by
    intro u f v hu
    simp only [setC]
    split
    · exact .put hu
    · exact hu
  have h₁ : s₁.regsWf := hset _ _ _ (hset _ _ _ (hset _ _ _ h))
  have h₃ : s₃.regsWf := .put (.each h₁ fun _ _ hu => .zqLook (.modChan hu))
  refine .ite (.each h₃ fun u n hu => .evPhyFault ?_) h₃
  split
  · exact .fault hu
  · exact hu

theorem putDelays {a : ℕ} {x : List ℕ} (h : s.regsWf) : (s.putDelays a x).regsWf :=
  .setReg (.setReg h)

theorem trainGate {n : ℕ} {ts : List ℕ} {r : TrainReport} (h : s.regsWf) : (s.trainGate n ts r).2.regsWf :=
  .iteSnd h (.iteSnd (.put (.put h)) (.put (.draw (.put h))))

theorem trainRead {n : ℕ} {ts : List ℕ} {r : TrainReport} {levels : List ℕ} (h : s.regsWf) :
    (s.trainRead n ts r levels).2.regsWf := by
  unfold State.trainRead
  extract_lets
  split
  · exact h
  · exact .iteSnd h (.putDelays (.put (.put h)))

theorem trainWrite {n : ℕ} {ts : List ℕ} {r : TrainReport} (h : s.regsWf) :
    (s.trainWrite n ts r).2.regsWf := by
  unfold State.trainWrite
  extract_lets a
  split
  · exact h
  · exact .putDelays (.put h)

theorem trainStep {go : Bool} {f : State → Option (ℕ × ℕ) × State} {p : Option (ℕ × ℕ) × State} (h : p.2.regsWf)
    (hf : ∀ u, u.regsWf → (f u).2.regsWf) : (trainStep go f p).2.regsWf :=
  .iteSnd (hf _ h) h

theorem trainSteps {n : ℕ} {refresh : Bool} {r : TrainReport} (h : s.regsWf) :
    (s.trainSteps n refresh r).2.regsWf := by
  unfold State.trainSteps
  extract_lets ts st p₁ p₂ p₃
  have h₁ : p₁.2.regsWf := .trainStep h fun _ hu => hu
  have h₂ : p₂.2.regsWf := .trainStep h₁ fun _ hu => .trainGate hu
  have h₃ : p₃.2.regsWf := .trainStep h₂ fun _ hu => .trainRead hu
  exact .trainStep h₃ fun _ hu => .trainWrite hu

theorem retrain {n code : ℕ} (h : s.regsWf) : (s.retrain n code).regsWf :=
  .evTrainDrift (.put h)

theorem updQuadRec {q : ℕ} (h : s.regsWf) : (s.updQuadRec q).regsWf :=
  .put h

theorem switchEnd {q : ℕ} (h : s.regsWf) : (s.switchEnd q).regsWf :=
  .ite (.updQuadRec (.modQuad h)) h

theorem trainDone {n kind : ℕ} {r : TrainReport} (h : s.regsWf) : (s.trainDone n kind r).regsWf := by
  unfold State.trainDone
  split
  rename_i u heq
  have hu : u.regsWf := .ofSnd heq (.trainSteps h)
  extract_lets _ _ _ s3 _ s5
  have hs3 : s3.regsWf := .put (.put (.put (.put (.bump (.put (.modChan hu))))))
  have hs5 : s5.regsWf := .ite (.modChan (.put (.put hs3))) (.put hs3)
  exact .ite (.applyFinish (.ite (.modQuad hs5) hs5)) (.applyFinish (.switchEnd (.ite (.leftUntrained hs5) hs5)))

theorem trainStart {n : ℕ} (h : s.regsWf) : (s.trainStart n).regsWf :=
  .ite h (.ite (.modChan (.put (.ite (.quadBack h) h))) (.put (.put h)))

theorem refresh {n : ℕ} (h : s.regsWf) : (s.refresh n).regsWf :=
  .ite h (.ite (.retrain h) (.modChan (.put h)))

theorem driftBit {n b early late : ℕ} (h : s.regsWf) : (s.driftBit n b early late).2.regsWf :=
  .iteSnd h (.iteSnd h (.iteSnd h (.iteSnd h (.modChan (.put h)))))

theorem driftEnd {n : ℕ} {r : DriftReport} (h : s.regsWf) : (s.driftEnd n r).regsWf := by
  unfold State.driftEnd
  refine .ite h ?_
  split
  rename_i u heq
  have hu : u.regsWf := .ofSnd heq (.iteSnd (.foldlSnd h fun _ _ hv => .driftBit hv) (.bump h))
  extract_lets s₁ s₂ s₃
  have h₂ : s₂.regsWf := .ite (.put (.put hu)) (.put hu)
  exact .driftRestart (.ite (.retrain h₂) h₂)

theorem pllLost {q : Fin 8} (h : s.regsWf) : (s.pllLost q).regsWf := by
  unfold State.pllLost
  refine .ite h ?_
  refine .ite ?_ ?_
  · extract_lets _ _ s2
    have hs2 : s2.regsWf := .evSpareTaken (.put (.modQuad (.fault (.modQuad (.switchTold h)))))
    exact .switchEnd (.updQuadRec (.each (.ite (.evSpareExhausted (.evQuad hs2)) hs2) (fun _ _ hu => .refresh hu)))
  · extract_lets _ _ s2
    have hs2 : s2.regsWf := .each (.fenceQuad (.fault (.put (.modQuad (.switchTold h))))) fun _ _ hu => .enterSafe hu
    exact .ite hs2 (.setReq hs2)

theorem pllRelock {q : ℕ} {ok : Bool} (h : s.regsWf) : (s.pllRelock q ok).regsWf :=
  .ite h (.ite (.evQuad (.put (.modQuad h))) (.evSpareExhausted (.evQuad (.put (.modQuad h)))))

theorem rbFault {n : Fin 32} {t code : ℕ} (h : s.regsWf) : (s.rbFault n t code).regsWf :=
  .evRbStuck (.fault (.put h))

end Sys2Proof.Machine.State.regsWf
end

section
/-! Reconstruction -/

namespace Sys2Proof.Machine.State.regsWf

variable {s : State}

theorem modRac {id : ℕ} {f : Rac → Rac} (h : s.regsWf) : (s.modRac id f).regsWf :=
  .same h rfl

theorem giveCredit {q n : ℕ} (h : s.regsWf) : (s.giveCredit q n).regsWf :=
  .put h

theorem keepCredit {q : ℕ} (h : s.regsWf) : (s.keepCredit q).regsWf :=
  .modQuad (.put h)

theorem drawCredit {tenant : ℕ} {l : List Rac} (h : s.regsWf) : (s.drawCredit tenant l).2.regsWf := by
  unfold State.drawCredit
  extract_lets _ _ s
  have hs : s.regsWf := .each h fun _ _ hu => .keepCredit hu
  exact .iteSnd (.each hs (fun _ _ hu => .modQuad (.bump (.put hu)))) (.each hs (fun _ _ hu => .bump hu))

theorem racReads {id : ℕ} (h : s.regsWf) : (s.racReads id).regsWf := by
  unfold State.racReads
  split
  · exact h
  · extract_lets _ _ s2
    have hs2 : s2.regsWf := .foldl (.foldl (.modRac h) (fun _ _ hu => .readAcc hu)) fun _ _ hu => .ite (.startRead hu) hu
    exact .ite hs2 (.later hs2)

theorem racOver {id : ℕ} (h : s.regsWf) : (s.racOver id).regsWf :=
  .later h

theorem racReady {id : ℕ} (h : s.regsWf) : (s.racReady id).regsWf := by
  unfold State.racReady
  split
  · exact h
  · exact .ite h (.ite (.ite h (.foldl (.drawCredit h) (fun _ _ hu => .ite (.racReads (.same hu rfl)) (.racOver (.modRac hu)))))
      (.racReads h))

theorem startRac {k : Rac} (h : s.regsWf) : (s.startRac k).2.regsWf := by
  unfold State.startRac
  split
  · exact h
  · split
    · exact h
    · split
      rename_i u heq
      have hu : u.regsWf := .ofSnd heq (.newId h)
      extract_lets spilled _ _ _ _ s1
      have hs1 : s1.regsWf := .foldl (.same hu rfl) fun _ _ hv => .need hv
      clear_value spilled
      split
      · exact .ite hs1 (.share hs1)
      · exact hs1

theorem racGranted {id : ℕ} (h : s.regsWf) : (s.racGranted id).regsWf := by
  unfold State.racGranted
  split
  · exact h
  · exact .racReady (.modRac h)

theorem rebuilt {k : Rac} {cw : ℕ} {info : List Byte} (h : s.regsWf) : (s.rebuilt k cw info).regsWf :=
  .foldl h fun _ _ hu => .ask hu

theorem racCancel {id : ℕ} (h : s.regsWf) : (s.racCancel id).regsWf :=
  .foldl h fun _ _ hu => .endRead (.giveUp hu)

theorem racQ {id : ℕ} (h : s.regsWf) : (s.racQ id).regsWf := by
  unfold State.racQ
  split
  · exact h
  · refine .ite h ?_
    split
    · exact .startRead (.modRac h)
    · exact h

theorem racPush {id : ℕ} (h : s.regsWf) : (s.racPush id).regsWf := by
  unfold State.racPush
  split
  · exact h
  · refine .ite h ?_
    extract_lets s
    have hs : s.regsWf := by
      unfold s
      refine .foldl (.racQ h) fun _ _ hu => ?_
      refine .ite hu ?_
      split
      · exact .rebuilt hu
      · exact .ite hu (.modRac hu)
    split
    · exact .ite (.racOver hs) (.ite (.racCancel hs) hs)
    · exact hs

theorem racStaged {id cw : ℕ} (h : s.regsWf) : (s.racStaged id cw).regsWf := by
  unfold State.racStaged
  refine .ite h ?_
  split
  · exact h
  · exact .ite (.fetchBack h) (.racPush h)

theorem racRead {id cw : ℕ} (h : s.regsWf) : (s.racRead id cw).regsWf := by
  unfold State.racRead
  refine .ite h ?_
  split
  · exact h
  · split
    · exact .racPush h
    · exact .addJob h

theorem racSource {id i : ℕ} {r : PRead} (h : s.regsWf) : (s.racSource id i r).regsWf := by
  unfold State.racSource
  split
  · exact h
  · exact .racPush (.modRac h)

theorem racGood {id cw corr : ℕ} {word : List Byte} (h : s.regsWf) : (s.racGood id cw corr word).regsWf := by
  unfold State.racGood
  split
  · exact h
  · refine .ite h ?_
    extract_lets _ s1
    have hs1 : s1.regsWf := by
      unfold s1
      split
      · extract_lets _ _ _ _ _ s5
        have hs5 : s5.regsWf := by
          unfold s5
          split
          · exact .tagGood (.freeStages (.recountJobs (.dropJobs (.cancelOps (.modRead (.modRac h))))))
          · exact .freeStages (.recountJobs (.dropJobs (.cancelOps (.modRead (.modRac h)))))
        exact .readGo hs5
      · split
        · exact .same h rfl
        · exact .modRac h
    exact .racPush hs1

theorem racBad {id cw : ℕ} (h : s.regsWf) : (s.racBad id cw).regsWf :=
  .racPush (.modRac h)

theorem racEnd {id : ℕ} (h : s.regsWf) : (s.racEnd id).regsWf := by
  unfold State.racEnd
  split
  · exact h
  · extract_lets _ _ _ _ _ s3 s4 s5 own _ _ s7
    have hs3 : s3.regsWf := .foldl (.dropNeeds (.ite (.foldl (.racCancel h) (fun _ _ hu => .ite (.giveCredit (.keepCredit hu))
      hu)) (.racCancel h))) fun _ _ hu => .releaseBuf hu
    have hs4 : s4.regsWf := by
      unfold s4
      split
      · exact .ite hs3 (.ite hs3 (.releaseBuf hs3))
      · exact hs3
    have hs5 : s5.regsWf := .dropJobs hs4
    have hs7 : s7.regsWf := .ite (.same hs5 rfl) (.ite (.ite (.same (.same hs5 rfl) rfl) (.same hs5 rfl))
      (.ite (.bump (.same hs5 rfl)) (.bump (.same hs5 rfl))))
    clear_value own
    split
    · exact .ite hs7 (.ite (.later hs7) (.readGo (.giveUp hs7)))
    · split
      · exact .later hs7
      · exact hs7

theorem racShareRefused {id : ℕ} (h : s.regsWf) : (s.racShareRefused id).regsWf := by
  unfold State.racShareRefused
  split
  · exact h
  · extract_lets
    split
    · exact .racReady (.modRac (.modRac h))
    · exact .racOver (.modRac (.modRac h))

theorem goAround {t : ℕ} (h : s.regsWf) : (s.goAround t).regsWf :=
  .ite h (.foldl h (fun _ _ hu => .startRac hu))

theorem step4 {id : ℕ} (h : s.regsWf) : (s.step4 id).regsWf := by
  unfold State.step4
  split
  · exact h
  · refine .ite h ?_
    refine .ite (.readGo (.giveUp h)) (.ite ?_ (.ite (.readGo (.giveUp h)) (.ite (.reached (.startRac h))
      (.readGo (.giveUp (.startRac h))))))
    split
    · extract_lets s
      have hs : s.regsWf := .ite (.goAround h) h
      exact .ite hs (.readGo (.giveUp hs))
    · exact .readGo (.giveUp h)

end Sys2Proof.Machine.State.regsWf
end

section
/-! Programs -/

namespace Sys2Proof.Machine.State.regsWf

variable {s : State}

theorem stamp {o : Op} {t : Option ℕ} {tenant : ℕ} (h : s.regsWf) : (s.stamp o t tenant).2.regsWf := by
  unfold State.stamp
  split
  · exact h
  · exact .newSeq h

theorem frontMake {g e planes : ℕ} (h : s.regsWf) : (s.frontMake g e planes).regsWf := by
  unfold State.frontMake
  extract_lets s
  have hs : s.regsWf := .foldl h fun _ _ hu => .freeUse hu
  exact .ite (.modLun (.modLun hs)) (.raise (.bump (.modLun (.modLun hs))))

theorem frontHalt {g e q : ℕ} (h : s.regsWf) : (s.frontHalt g e q).regsWf :=
  .later (.modLun h)

theorem firstGone {o : Op} (h : s.regsWf) : (s.firstGone o).regsWf :=
  .ite (.frontHalt h) h

theorem beginFirst {g e q : ℕ} (h : s.regsWf) : (s.beginFirst g e q).regsWf := by
  unfold State.beginFirst
  split
  · exact h
  · exact .modLun h

theorem horizonUp {g e q : ℕ} (h : s.regsWf) : (s.horizonUp g e q).regsWf := by
  unfold State.horizonUp
  split
  · exact .ite (.modLun h) (.ite h (.ite (.raise (.modLun h)) (.modLun h)))
  · exact h

theorem recordGranted {g e q : ℕ} (h : s.regsWf) : (s.recordGranted g e q).regsWf := by
  unfold State.recordGranted
  split
  · exact .foldl h fun _ _ hu => .releaseBuf hu
  · split
    · exact .freeUse h
    · exact .foldl h fun _ _ hu => .ask hu

theorem addPass {o : Op} (h : s.regsWf) : (s.addPass o).regsWf := by
  unfold State.addPass
  extract_lets _ _ _ _ s
  have hs : s.regsWf := .ite (.need h) h
  exact .ite (.recordGranted (.addOp hs)) (.addOp hs)

theorem dropRecord {o : Op} (h : s.regsWf) : (s.dropRecord o).regsWf :=
  .ite h (.freeUse (.dropNeeds h))

theorem addPad {g e q planes : ℕ} {stripe : Option (ℕ × ℕ × ℕ)} {tenant : ℕ} {refill : Bool} (h : s.regsWf) :
    (s.addPad g e q planes stripe tenant refill).regsWf :=
  .addPass (.stamp h)

theorem takeSlot {sid : ℕ} (h : s.regsWf) : (s.takeSlot sid).2.regsWf :=
  .openRow (.modStripe h)

theorem padSlots {sid top n : ℕ} : ∀ {s : State}, s.regsWf → (s.padSlots sid top n).regsWf := by
  induction n with
  | zero => exact fun h => h
  | succ n ih => exact fun h => .ite h (ih (.addPad (.modRow (.takeSlot h))))

theorem padStripe {sid top : ℕ} (h : s.regsWf) : (s.padStripe sid top).regsWf :=
  .ite h (.padSlots h)

theorem padParity {sid r : ℕ} (h : s.regsWf) : (s.padParity sid r).regsWf :=
  .foldl (.modRow h) fun _ _ hu => .addPad hu

theorem padPages {g e q planes tenant : ℕ} (h : s.regsWf) : (s.padPages g e q planes tenant).regsWf :=
  .ite h (.each h (fun _ _ hu => .addPad hu))

theorem padBlock {g e q planes : ℕ} (h : s.regsWf) : (s.padBlock g e q planes).regsWf := by
  unfold State.padBlock
  refine .ite h ?_
  split
  · exact .ite (.padStripe h) (.ite h (.padPages h))
  · exact .padPages h

theorem addParity {sid r : ℕ} (h : s.regsWf) : (s.addParity sid r).regsWf :=
  .foldl (.modRow h) fun _ _ hu => .ite (.modRow hu) (.addPass (.stamp hu))

theorem rowPush {sid r : ℕ} (h : s.regsWf) : (s.rowPush sid r).regsWf := by
  unfold State.rowPush
  split
  · exact h
  · exact .ite h (.ite (.same h rfl) (.addParity (.same h rfl)))

theorem rowsPush {sid : ℕ} (h : s.regsWf) : (s.rowsPush sid).regsWf :=
  .each h fun _ _ hu => .rowPush hu

theorem rowDone {sid r : ℕ} (h : s.regsWf) : (s.rowDone sid r).regsWf := by
  unfold State.rowDone
  split
  · exact h
  · refine .ite h ?_
    extract_lets s
    have hs : s.regsWf := .releaseAcc h
    exact .ite hs (.same hs rfl)

theorem progEnd {t status detail : ℕ} (h : s.regsWf) : (s.progEnd t status detail).regsWf :=
  .later h

theorem setLoc {t w : ℕ} (h : s.regsWf) : (s.setLoc t w).regsWf :=
  .modTag h

theorem progOk {t : ℕ} (h : s.regsWf) : (s.progOk t).regsWf :=
  .progEnd h

theorem lastVerified {g e q : ℕ} {stripe : Option (ℕ × ℕ × ℕ)} {t : Option ℕ} (h : s.regsWf) :
    (s.lastVerified g e q stripe t).regsWf := by
  unfold State.lastVerified
  extract_lets _ _ _ s3
  have hs3 : s3.regsWf := by
    unfold s3
    split
    · exact .ite (.rowDone (.modRow (.horizonUp (.freeUse (.modLun h))))) (.horizonUp (.freeUse (.modLun h)))
    · exact .horizonUp (.freeUse (.modLun h))
  split
  · exact .ite (.progOk hs3) hs3
  · exact hs3

theorem firstVerified {o : Op} (h : s.regsWf) : (s.firstVerified o).regsWf := by
  unfold State.firstVerified
  extract_lets _ s s1 own
  have hs : s.regsWf := .ite (.bump h) h
  have hs1 : s1.regsWf := by
    unfold s1
    split
    · exact .ite hs (.ite (.rowsPush (.modRow hs)) (.modRow hs))
    · exact hs
  refine .ite (.lastVerified hs1) ?_
  clear_value own
  split
  · exact .ite (.progOk (.modLun hs1)) (.modLun hs1)
  · exact .modLun hs1

theorem modRec {g e q : ℕ} {f : PassRec → PassRec} (h : s.regsWf) : (s.modRec g e q f).regsWf :=
  .modLun h

theorem fineLine {g e q : ℕ} (h : s.regsWf) : (s.fineLine g e q).regsWf :=
  .modLun h

theorem askRec {g : ℕ} {r : PassRec} (h : s.regsWf) : (s.askRec g r).regsWf :=
  .foldl (.modRec h) fun _ _ hu => .ask hu

theorem addLater {g : ℕ} {r : PassRec} {data : List (List Byte)} (h : s.regsWf) : (s.addLater g r data).regsWf := by
  refine .addOp ?_
  split
  · exact .stamp (.modRec h)
  · exact .newSeq (.modRec h)

theorem stopPads {g : ℕ} (h : s.regsWf) : (s.stopPads g).regsWf := by
  refine .foldl h fun _ _ hu => ?_
  split
  · exact .ite (.padBlock hu) hu
  · exact hu

theorem passPush {g : ℕ} (h : s.regsWf) : (s.passPush g).regsWf := by
  unfold State.passPush
  refine .foldl h fun _ _ hu => ?_
  refine .ite hu ?_
  split
  · exact .ite (.addLater (.fineLine hu)) (.askRec (.fineLine hu))
  · exact .ite (.askRec (.fineLine hu)) (.addLater (.fineLine hu))

end Sys2Proof.Machine.State.regsWf
end

section
/-! The Tally agent -/

namespace Sys2Proof.Machine.State.regsWf

variable {s : State}

theorem modTally {g : ℕ} {f : Tally → Tally} (h : s.regsWf) : (s.modTally g f).regsWf :=
  .modLun h

theorem tallyOp {g step routine idx page v3 : ℕ} {data : List (List Byte)} (h : s.regsWf) :
    (s.tallyOp g step routine idx page v3 data).regsWf :=
  .addOp (.stamp h)

theorem evTally {g idx code : ℕ} (h : s.regsWf) : (s.evTally g idx code).regsWf :=
  .raise h

theorem workFails {g : ℕ} {w : TWork} (h : s.regsWf) : (s.workFails g w).regsWf := by
  unfold State.workFails
  split
  · exact .laterFor h
  · exact .laterFor (.modTally h)
  · exact .laterFor h
  · exact .laterFor h

theorem tallyStop {g idx : ℕ} (h : s.regsWf) : (s.tallyStop g idx).regsWf :=
  .foldl (.evTally (.modTally (.ite h (.dropOps h)))) fun _ _ hu => .workFails hu

theorem tallyProgram {g : ℕ} {r : TallyRec} {onW0 : Bool} (h : s.regsWf) : (s.tallyProgram g r onW0).regsWf :=
  .tallyOp (.modTally h)

theorem tallyAdvance {g : ℕ} (h : s.regsWf) : (s.tallyAdvance g).regsWf := by
  unfold State.tallyAdvance
  refine .ite (.modTally h) ?_
  split
  · exact .ite (.modTally h) (.tallyStop h)
  · exact .tallyOp (.modTally h)

theorem tallyNew {g : ℕ} {r : TallyRec} (h : s.regsWf) : (s.tallyNew g r).regsWf := by
  unfold State.tallyNew
  split
  · exact .tallyProgram h
  · exact .tallyAdvance h

theorem tallyHeaders {g : ℕ} (h : s.regsWf) : (s.tallyHeaders g).regsWf := by
  unfold State.tallyHeaders
  split
  · exact .tallyOp h
  · exact h

theorem tallyFirst {g : ℕ} (h : s.regsWf) : (s.tallyFirst g).regsWf := by
  unfold State.tallyFirst
  refine .ite (.tallyStop h) ?_
  split
  · exact .tallyStop h
  · exact .tallyOp (.modTally h)

theorem tallyReady {g : ℕ} (h : s.regsWf) : (s.tallyReady g).regsWf := by
  unfold State.tallyReady
  extract_lets
  split
  · exact .modTally (.modTally h)
  · exact .tallyStop (.modTally h)

theorem tallySearch {g : ℕ} (h : s.regsWf) : (s.tallySearch g).regsWf :=
  .ite (.tallyOp (.modTally h)) (.ite (.tallyReady h) (.tallyOp (.modTally h)))

theorem tallyUpdate {g t : ℕ} (h : s.regsWf) : (s.tallyUpdate g t).regsWf := by
  unfold State.tallyUpdate
  extract_lets
  split
  · split
    · exact .tallyProgram h
    · exact .modTally h
  · exact .later (.modTally h)
  · exact .later (.modTally h)
  · exact .later (.modTally h)

theorem tallyClear {g idx : ℕ} {bad : Bool} (h : s.regsWf) : (s.tallyClear g idx bad).regsWf := by
  unfold State.tallyClear
  extract_lets
  split
  · exact .ite (.tallyNew h) (.tallyProgram h)
  · exact .tallyNew h

theorem tallyTake {g : ℕ} {w : TWork} (h : s.regsWf) : (s.tallyTake g w).regsWf := by
  unfold State.tallyTake
  extract_lets
  split
  · exact .tallyNew (.modTally h)
  · split
    · exact .tallyNew (.modTally h)
    · exact .tallyClear (.modTally h)
    · exact .ite (.tallyNew (.modTally h)) (.ite (.tallyUpdate (.modTally h)) (.tallyOp (.modTally (.modTally h))))
    · exact .tallyOp (.modTally (.modTally h))

theorem tallyGo {g : ℕ} (h : s.regsWf) : (s.tallyGo g).regsWf := by
  unfold State.tallyGo
  refine .ite h ?_
  split
  · exact .tallyTake h
  · split
    · exact h
    · refine .ite (.workFails (.modTally h)) (.ite (.tallyHeaders (.modTally h)) (.ite ?_ ?_))
      · split
        · exact .tallyTake (.modTally h)
        · exact h
      · split
        · exact .tallyTake (.modTally h)
        · exact .tallyTake (.modTally h)

theorem tallyWork {g : ℕ} {w : TWork} (h : s.regsWf) : (s.tallyWork g w).regsWf :=
  .tallyGo (.modTally h)

theorem tallyScanned {g t : ℕ} (h : s.regsWf) : (s.tallyScanned g t).regsWf :=
  .later (.modTally (.modTag h))

theorem tallyPage {g : ℕ} {got : Option (List TallyRec)} (h : s.regsWf) : (s.tallyPage g got).regsWf := by
  unfold State.tallyPage
  extract_lets
  refine .ite (.ite (.tallySearch (.modTally h)) (.tallyReady (.modTally h))) ?_
  extract_lets
  split
  · exact .tallyUpdate (.modTally h)
  · exact .ite (.tallyOp (.modTally (.modTally h))) (.ite (.tallyOp (.modTally (.modTally h))) (.tallyScanned (.modTally h)))
  · exact .modTally (.modTally h)

theorem tallyFound {g : ℕ} (h : s.regsWf) : (s.tallyFound g).regsWf := by
  unfold State.tallyFound
  extract_lets
  split
  · exact .tallyFirst h
  · exact .tallySearch (.modTally h)

theorem tallyHeader {g : ℕ} {recs : List TallyRec} (h : s.regsWf) : (s.tallyHeader g recs).regsWf :=
  .ite (.tallyFound (.modTally h)) (.tallyHeaders (.modTally h))

theorem flightEnd {g : ℕ} {w : Eraser} (h : s.regsWf) : (s.flightEnd g w).regsWf :=
  .modTally h

theorem tallyWrote {g : ℕ} (h : s.regsWf) : (s.tallyWrote g).regsWf := by
  unfold State.tallyWrote
  extract_lets
  split
  · exact .later (.modTally (.modTally (.modTally h)))
  · exact .later (.modTally (.flightEnd (.modTally (.modTally h))))
  · exact .later (.modTally (.modTally h))
  · exact .modTally (.modTally h)

theorem tallyHeaded {g : ℕ} (h : s.regsWf) : (s.tallyHeaded g).regsWf := by
  unfold State.tallyHeaded
  extract_lets
  refine .ite (.tallyReady (.modTally h)) ?_
  extract_lets
  split
  · exact .modTally (.modTally h)
  · exact .modTally h

theorem eraseEnded {g : ℕ} {w : Eraser} {ok : Bool} (h : s.regsWf) : (s.eraseEnded g w ok).regsWf := by
  unfold State.eraseEnded
  extract_lets _ idx s s1
  have hs : s.regsWf := .ite (.modTally h) h
  have hs1 : s1.regsWf := by
    unfold s1
    split
    · refine .ite (.modTally hs) ?_
      extract_lets s
      have hs : s.regsWf := .evTally (.modTally hs)
      refine .ite (.tallyStop hs) ?_
      split
      · exact .modTally hs
      · exact .tallyStop hs
    · exact hs
  clear_value idx
  split
  · exact .tallyWork hs1
  · exact .later (.modTally hs1)

theorem eraseDropped {g : ℕ} {w : Eraser} (h : s.regsWf) : (s.eraseDropped g w).regsWf :=
  .modTally (.flightEnd h)

theorem tallyFailed {g : ℕ} (h : s.regsWf) : (s.tallyFailed g).regsWf :=
  .ite (.modTally h) (.ite (.tallyAdvance (.modTally (.evTally h))) (.ite (.tallyOp (.modTally (.evTally h)))
    (.ite (.tallyStop (.modTally (.evTally h))) h)))

theorem tallyErased {g : ℕ} {ok : Bool} (h : s.regsWf) : (s.tallyErased g ok).regsWf :=
  .ite (.tallyFirst (.ite (.modTally h) (.evTally (.modTally h)))) (.ite (.tallyOp (.modTally h))
    (.tallyFirst (.evTally (.modTally h))))

theorem tallyEnd {g step : ℕ} {o : Op} {result : ℕ} (h : s.regsWf) : (s.tallyEnd g step o result).regsWf := by
  unfold State.tallyEnd
  extract_lets
  refine .ite (.ite (.addOp h) (.ite (.tallyHeader h) (.tallyPage h))) (.ite (.tallyHeader (.dropStage h))
    (.ite (.tallyPage (.dropStage h)) (.ite (.tallyGo (.ite (.tallyWrote (.dropStage h)) (.tallyFailed (.dropStage h))))
    (.ite (.tallyGo (.ite (.tallyHeaded (.dropStage h)) (.tallyFailed (.dropStage h)))) ?_))))
  split
  · exact .eraseEnded h
  · exact .tallyErased h

end Sys2Proof.Machine.State.regsWf
end

section
/-! Spare blocks and substitution -/

namespace Sys2Proof.Machine.State.regsWf

variable {s : State}

theorem modSub {j : ℕ} {f : Sub → Sub} (h : s.regsWf) : (s.modSub j f).regsWf :=
  .same h rfl

theorem spareDrop {x : Sub} (h : s.regsWf) : (s.spareDrop x).regsWf :=
  .ite h (.modLun (.foldl (.freeUse (.dropOps h)) (fun _ _ hu => .freeUse hu)))

theorem endSub {j : ℕ} (h : s.regsWf) : (s.endSub j).regsWf := by
  unfold State.endSub
  extract_lets s
  have hs : s.regsWf := by
    unfold s
    split
    · exact .spareDrop h
    · exact h
  exact .same hs rfl

theorem unfold {o : Op} (h : s.regsWf) : (s.unfold o).regsWf := by
  unfold State.unfold
  split
  · exact .ite (.modRow (.foldSlot (.dropRecord h))) (.dropRecord h)
  · exact .dropRecord h

theorem stopEnds {sid row m : ℕ} (h : s.regsWf) : (s.stopEnds sid row m).regsWf := by
  unfold State.stopEnds
  refine .ite h ?_
  extract_lets _ _ _ _ _ _ s1
  have hs1 : s1.regsWf := .dropOps (.foldl (.foldl (.dropOps (.foldl h (fun _ _ hu => .unfold hu))) (fun _ _ hu => .later hu))
    (fun _ _ hu => .dropRecord hu))
  exact .rowsPush (.ite (.modRow hs1) hs1)

theorem stopStripe {sid row m : ℕ} (h : s.regsWf) : (s.stopStripe sid row m).regsWf :=
  .ite h (.andThen (.evStripeDegraded (.modStripe h)) (fun _ hu => .stopEnds hu))

theorem passOver {g e q : ℕ} {halt : Bool} (h : s.regsWf) : (s.passOver g e q halt).regsWf := by
  unfold State.passOver
  extract_lets s
  have hs : s.regsWf := .modLun (.freeUse h)
  exact .ite (.frontHalt hs) hs

theorem passTell {x : Sub} (h : s.regsWf) : (s.passTell x).regsWf := by
  unfold State.passTell
  extract_lets _ _ _ _ s
  have hs : s.regsWf := .foldl h fun _ _ hu => .later hu
  exact .ite (.evLateFail hs) hs

theorem passLost {x : Sub} (h : s.regsWf) : (s.passLost x).regsWf :=
  .andThen (.passTell h) fun _ hu => .passOver hu

theorem memberGone {x : Sub} (h : s.regsWf) : (s.memberGone x).regsWf := by
  unfold State.memberGone
  extract_lets _ _ _ _ _ s3
  have hs3 : s3.regsWf := .modLun (.dropOps (.foldl (.foldl (.foldl h (fun _ _ hu => .later hu)) (fun _ _ hu => .freeUse hu))
    (fun _ _ hu => .dropRecord hu)))
  exact .ite (.modStripe hs3) (.foldl (.modStripe hs3) (fun _ _ hu => .rowDone (.modRow hu)))

theorem lostOver {j : ℕ} (h : s.regsWf) : (s.lostOver j).regsWf := by
  unfold State.lostOver
  split
  · exact h
  · extract_lets _ s
    have hs : s.regsWf := .endSub (.passOver h)
    exact .ite (.stopStripe hs) (.stopStripe (.memberGone (.foldl hs (fun _ _ hu => .endSub (.modRow (.passLost hu))))))

theorem subLost {j : ℕ} (h : s.regsWf) : (s.subLost j).regsWf := by
  unfold State.subLost
  split
  · exact h
  · exact .andThen (.modSub (.passTell h)) fun _ hu => .lostOver hu

theorem subNoSpare {j : ℕ} {tell : Bool} (h : s.regsWf) : (s.subNoSpare j tell).regsWf := by
  unfold State.subNoSpare
  split
  · exact h
  · extract_lets s
    have hs : s.regsWf := .ite (.evSpareExhausted h) h
    refine .ite (.subLost hs) (.ite ?_ ?_)
    · extract_lets
      split
      · exact .later (.endSub hs)
      · exact .endSub hs
    · split
      · exact .later (.endSub hs)
      · exact .endSub hs

theorem subPick {j : ℕ} {l : List ℕ} : ∀ {s : State}, s.regsWf → (s.subPick j l).regsWf := by
  induction l with
  | nil => exact fun h => .subNoSpare h
  | cons k l ih =>
    intro s h
    unfold State.subPick
    split
    · exact h
    · exact .ite (ih h) (.ite (ih (.modSub (.ask h))) (.modSub (.ask h)))

theorem subRecord {j : ℕ} {data : List Byte} (h : s.regsWf) : (s.subRecord j data).regsWf :=
  .subPick (.modSub h)

theorem subTake {j : ℕ} (h : s.regsWf) : (s.subTake j).regsWf := by
  unfold State.subTake
  split
  · exact h
  · exact .ite (.subNoSpare h) (.ask (.modSub h))

theorem subErase {j : ℕ} (h : s.regsWf) : (s.subErase j).regsWf := by
  unfold State.subErase
  split
  · exact h
  · exact .tallyWork (.modSub h)

theorem newSub {x : Sub} (h : s.regsWf) : (s.newSub x).regsWf :=
  .ite h (.same h rfl)

theorem subStart {j : ℕ} (h : s.regsWf) : (s.subStart j).regsWf := by
  unfold State.subStart
  split
  · exact h
  · refine .ite h (.ite (.subErase h) (.ite ?_ (.subTake h)))
    split
    · exact .later (.endSub h)
    · exact .endSub h

theorem subProgram {j : ℕ} (h : s.regsWf) : (s.subProgram j).regsWf := by
  unfold State.subProgram
  split
  · exact h
  · exact .addPass (.modSub (.stamp h))

theorem subPage {j : ℕ} (h : s.regsWf) : (s.subPage j).regsWf := by
  unfold State.subPage
  split
  · exact h
  · split
    · exact .modSub h
    · extract_lets
      refine .ite (.subProgram (.modSub (.readAcc (.modSub h)))) (.ite (.subProgram (.modSub (.modSub h))) (.ite ?_ (.ite ?_
        ?_)))
      · extract_lets
        split
        rename_i u heq
        have hu : u.regsWf := .ofSnd heq (by split; exacts [.modSub h, .newSeq (.modSub h)])
        exact .foldl hu fun _ _ hv => .ite (.modSub (.startRac hv)) (.later (.modSub (.startRac hv)))
      · extract_lets
        split
        rename_i u heq
        have hu : u.regsWf := .ofSnd heq (by split; exacts [.modSub h, .newSeq (.modSub h)])
        exact .foldl hu fun _ _ hv => .startRead (.modSub hv)
      · split
        · exact .askRec (.modSub h)
        · exact .later (.modSub (.modSub h))

theorem subFromRec {x : Sub} {data : List (List Byte)} (h : s.regsWf) : (s.subFromRec x data).regsWf :=
  .subProgram (.modSub h)

theorem subRead {j : ℕ} {r : PRead} (h : s.regsWf) : (s.subRead j r).regsWf :=
  .later (.modSub h)

theorem foldMove {x : Sub} {o : Op} (h : s.regsWf) : (State.foldMove x s o).regsWf := by
  unfold State.foldMove
  split
  · exact .ite (.foldSlot h) h
  · exact h

theorem subFollow {x : Sub} (h : s.regsWf) : (s.subFollow x).regsWf := by
  unfold State.subFollow
  extract_lets _ s
  have hs : s.regsWf := .foldl h fun _ _ hu => .foldMove hu
  exact .same hs rfl

theorem subSwap {j : ℕ} (h : s.regsWf) : (s.subSwap j).regsWf := by
  unfold State.subSwap
  split
  · exact h
  · extract_lets _ s _ s2 s3
    have hs : s.regsWf := .foldl h fun _ _ hu => .ite (.fold hu) hu
    have hs2 : s2.regsWf := .ite (.modStripe hs) (.evSpareTaken (.modStripe hs))
    have hs3 : s3.regsWf := by
      unfold s3
      split
      · exact .ite (.rowsPush (.modRow (.freeUse hs2))) (.freeUse hs2)
      · exact hs2
    refine .each (.foldl (.modLun (.foldl (.foldl (.subFollow (.foldl (.dropOps (.foldl (.foldl (.dropOps hs3) (fun _ _ hu =>
      .foldMove hu)) (fun _ _ hu => .dropRecord hu))) (fun _ _ hu => .addOp hu))) (fun _ _ hu => .need hu)) (fun _ _ hu =>
      .freeUse hu))) (fun _ _ hu => .modRec hu)) fun _ _ hu => ?_
    split
    · exact .setLoc hu
    · exact hu

theorem subDone {j : ℕ} {deg : Bool} {tags : List ℕ} (h : s.regsWf) : (s.subDone j deg tags).regsWf := by
  unfold State.subDone
  split
  · exact h
  · extract_lets
    refine .ite (.ite (.foldl (.endSub h) (fun _ _ hu => .modTag hu)) (.endSub h)) (.ite ?_ ?_)
    · split
      · exact .later (.endSub h)
      · exact .endSub h
    · split
      · exact .modTag (.endSub h)
      · exact .endSub h

theorem subMove {j : ℕ} (h : s.regsWf) : (s.subMove j).regsWf := by
  unfold State.subMove
  split
  · exact h
  · extract_lets _ _ s
    have hs : s.regsWf := .modSub (.subSwap h)
    exact .andThen (.ite (.evLateFail hs) hs) fun _ hu => .subDone hu

theorem subFinish {j : ℕ} (h : s.regsWf) : (s.subFinish j).regsWf := by
  unfold State.subFinish
  split
  · exact h
  · extract_lets s
    have hs : s.regsWf := .ite (.evStripeDegraded (.modSub h)) h
    exact .ite hs (.subMove hs)

theorem subSourced {j : ℕ} {why : Option (ℕ × ℕ)} (h : s.regsWf) : (s.subSourced j why).regsWf := by
  unfold State.subSourced
  split
  · exact h
  · extract_lets bad
    refine .ite (.modSub h) (.ite (.subProgram (.modSub h)) (.ite (.subProgram (.modSub (.modSub h)))
      (.ite (.subLost (.modSub h)) ?_)))
    clear_value bad
    split
    · exact .later (.endSub (.modSub h))
    · exact .endSub (.modSub h)

theorem subPassed {j : ℕ} {o : Op} {bad : Option (ℕ × ℕ)} (h : s.regsWf) : (s.subPassed j o bad).regsWf := by
  unfold State.subPassed
  split
  · exact h
  · refine .ite ?_ (.ite (.subLost h) (.ite (.subTake (.spareDrop h)) ?_))
    · extract_lets _ s s1
      have hs : s.regsWf := by
        unfold s
        refine .ite ?_ h
        split
        · exact .modTag h
        · exact h
      have hs1 : s1.regsWf := by
        unfold s1
        split
        · exact .ite (.setLoc hs) hs
        · exact hs
      exact .subPage (.modSub (.firstVerified hs1))
    · split
      · exact .later (.endSub h)
      · exact .endSub h

theorem subErased {j : ℕ} {ok : Bool} (h : s.regsWf) : (s.subErased j ok).regsWf := by
  unfold State.subErased
  split
  · exact h
  · refine .ite ?_ (.ite ?_ (.subTake h))
    · extract_lets +onlyGivenNames _
      refine .ite ?_ (.subPage (.modSub (.frontMake h)))
      extract_lets +onlyGivenNames _ s
      have hs : s.regsWf := .endSub (.evSpareTaken (.frontMake h))
      split
      · exact .later hs
      · exact hs
    · split
      · exact .later (.endSub h)
      · exact .endSub h

theorem passFailed {o : Op} {mismatch : Bool} (h : s.regsWf) : (s.passFailed o mismatch).regsWf := by
  unfold State.passFailed
  extract_lets
  split
  · exact .ite h (.ite (.passLost h) (.ite (.subLost (.newSub h)) (.newSub h)))
  · split
    · extract_lets
      split
      · split
        · exact .ite (.progEnd (.passOver h)) (.passOver h)
        · exact .passOver h
      · split
        · exact .progEnd (.passOver h)
        · exact .andThen (.ite h (.evLateFail h)) fun _ hu => .passOver hu
      · exact .passOver h

theorem haltOver {g e : ℕ} (h : s.regsWf) : (s.haltOver g e).regsWf := by
  unfold State.haltOver
  refine .foldl (.dropOps (.foldl h (fun _ _ hu => .dropRecord hu))) fun _ _ hu => ?_
  split
  · exact .progEnd (.passOver hu)
  · exact .modLun hu

theorem slotPad {sid r m : ℕ} {begun : Bool} (h : s.regsWf) : (s.slotPad sid r m begun).regsWf :=
  .ite h (.addPad (.modRow h))

theorem slotGone {sid r m : ℕ} {begun : Bool} (h : s.regsWf) : (s.slotGone sid r m begun).regsWf :=
  .ite (.slotPad h) (.ite h (.ite (.slotPad h) (.ite (.rowsPush (.modRow h)) h)))

theorem recRead {g e q : ℕ} (h : s.regsWf) : (s.recRead g e q).regsWf := by
  unfold State.recRead
  split
  · exact h
  · split
    · extract_lets
      split
      · exact .ite (.subFromRec (.modRec h)) (.later (.modSub (.modRec h)))
      · exact .ite (.addLater (.modRec h)) (.passFailed (.modRec h))

theorem horizonDrop {g e : ℕ} (h : s.regsWf) : (s.horizonDrop g e).regsWf :=
  .modLun h

theorem eraseGo {g : ℕ} {w : Eraser} (h : s.regsWf) : (s.eraseGo g w).regsWf := by
  unfold State.eraseGo
  split
  · exact .tallyOp h
  · exact .ite (.eraseDropped h) (.addOp (.modTag h))
  · split
    · exact .eraseDropped h
    · exact .addOp (.modSub (.stamp h))

theorem eraseFail {g t : ℕ} (h : s.regsWf) : (s.eraseFail g t).regsWf :=
  .ite (.newSub h) (.later h)

theorem eraseOver {g : ℕ} {w : Eraser} {ok : Bool} (h : s.regsWf) : (s.eraseOver g w ok).regsWf := by
  unfold State.eraseOver
  split
  · exact h
  · split
    · exact .subErased (.horizonDrop h)
    · exact h
  · exact .ite (.ite (.frontMake (.horizonDrop h)) (.horizonDrop h)) (.ite (.later (.ite (.horizonDrop h)
      (.frontMake (.horizonDrop h)))) (.eraseFail (.horizonDrop h)))

theorem intentBad {g : ℕ} {w : Eraser} (h : s.regsWf) : (s.intentBad g w).regsWf := by
  unfold State.intentBad
  split
  · exact h
  · exact .later h
  · exact .subNoSpare h

end Sys2Proof.Machine.State.regsWf
end

section
/-! A tag from intake to completion -/

namespace Sys2Proof.Machine.State.regsWf

variable {s : State}

theorem withdraw {t : ℕ} (h : s.regsWf) : (s.withdraw t).regsWf := by
  unfold State.withdraw
  extract_lets _ _ _ _ _ src _ _ s4 _ s6 s7 _ _ s9
  have hsrc : src.regsWf := .foldl (.foldl (.foldl h (fun _ _ hu => .endRead (.giveUp hu))) (fun _ _ hu => .racOver hu))
    fun _ _ hu => .spareDrop hu
  have hs4 : s4.regsWf := by
    unfold s4
    split
    · exact .unfold (.modTag (.same hsrc rfl))
    · exact .modTag (.same hsrc rfl)
  have hs6 : s6.regsWf := by
    unfold s6
    refine .foldl (.ite (.eraseDropped hs4) hs4) fun _ _ hu => ?_
    split
    · exact .ite (.eraseDropped hu) hu
    · exact hu
  have hs7 : s7.regsWf := .ite (.modTally hs6) hs6
  have hs9 : s9.regsWf := .ite (.modTally (.dropOps hs7)) (.dropOps hs7)
  exact .dropNeeds (.ite (.tallyGo (.modTally hs9)) hs9)

theorem evDmaAborted {t left : ℕ} (h : s.regsWf) : (s.evDmaAborted t left).regsWf :=
  .raise h

theorem endTag {t status detail info0 info1 : ℕ} (h : s.regsWf) : (s.endTag t status detail info0 info1).regsWf := by
  unfold State.endTag
  refine .ite h ?_
  extract_lets +onlyGivenNames _
  split
  · split
    · split
      · extract_lets +onlyGivenNames _ _ s1 s2
        have hs1 : s1.regsWf := by
          unfold s1
          split
          · exact .ite (.withdraw h) (.slotGone (.withdraw h))
          · exact .withdraw h
        have hs2 : s2.regsWf := .ite (.modStripe hs1) hs1
        exact .complete (.ite (.evDmaAborted hs2) hs2)

theorem startReads {t : ℕ} (h : s.regsWf) : (s.startReads t).regsWf :=
  .foldl h fun _ _ hu => .startRead hu

theorem readDone {id : ℕ} (h : s.regsWf) : (s.readDone id).regsWf := by
  unfold State.readDone
  split
  · exact h
  · extract_lets
    split
    · exact .later (.foldl (.rlhUpdate (.same h rfl)) (fun _ _ hu => .setUnit hu))
    · exact .racSource (.rlhUpdate (.same h rfl))
    · exact .subRead (.rlhUpdate (.same h rfl))

theorem addFirst {t g e q planes : ℕ} {words : List (List Byte)} {digest : Word32} {pooled : Bool} (h : s.regsWf) :
    (s.addFirst t g e q planes words digest pooled).regsWf :=
  .addPass (.modTag (.setLoc h))

theorem askProgram {t : ℕ} (h : s.regsWf) : (s.askProgram t).regsWf :=
  .foldl h fun _ _ hu => .askTag hu

theorem formProgram {t : ℕ} (h : s.regsWf) : (s.formProgram t).regsWf :=
  .addFirst h

theorem formCopy {t : ℕ} (h : s.regsWf) : (s.formCopy t).regsWf :=
  .ite (.endTag h) (.ite (.endTag h) (.addFirst (.modTag (.takeSlot h))))

theorem imageRead {t : ℕ} {b : List Byte} (h : s.regsWf) : (s.imageRead t b).regsWf := by
  unfold State.imageRead
  extract_lets
  split
  · exact .endTag h
  · exact .endTag (.modStripe h)

theorem freeStripe {sid : ℕ} (h : s.regsWf) : (s.freeStripe sid).regsWf := by
  unfold State.freeStripe
  extract_lets _ _ _ _ _ _ _ _ _ _ _ s4
  have hs4 : s4.regsWf := .foldl (.each (.each (.same h rfl) (fun _ _ hu => .modLun hu)) (fun _ _ hu => .modCtx hu))
    fun _ _ hu => .releaseAcc hu
  exact .same hs4 (by with_reducible rfl)

theorem closePads {sid : ℕ} {parity : Bool} (h : s.regsWf) : (s.closePads sid parity).regsWf :=
  .ite (.padStripe h) (.ite (.each (.padStripe h) (fun _ _ hu => .padParity (.releaseAcc hu)))
    (.ite (.modRow (.releaseAcc (.padStripe h))) (.padStripe h)))

theorem closeRest {t sid : ℕ} (h : s.regsWf) : (s.closeRest t sid).regsWf :=
  .foldl h fun _ _ hu => .later (.modTag hu)

theorem closePush {t : ℕ} (h : s.regsWf) : (s.closePush t).regsWf :=
  .ite h (.ite (.ite h (.ite (.endTag (.freeStripe h)) (.ite (.endTag h) (.later (.modTag (.closePads h)))))) (.ite h
    (.endTag (.ite (.freeStripe (.closeRest h)) (.modStripe h)))))

theorem flushPads {t : ℕ} (h : s.regsWf) : (s.flushPads t).regsWf :=
  .foldl h fun _ _ hu => .ite hu (.padBlock hu)

theorem flushPush {t : ℕ} (h : s.regsWf) : (s.flushPush t).regsWf := by
  unfold State.flushPush
  extract_lets _ _ s
  have hs : s.regsWf := .ite (.flushPads h) h
  exact .ite (.ite hs (.later (.ite (.foldl (.modTag hs) (fun _ _ hu => .modTag (.padStripe hu))) (.modTag hs)))) (.ite hs
    (.endTag hs))

theorem erasePush {t : ℕ} (h : s.regsWf) : (s.erasePush t).regsWf :=
  .ite h (.ite (.endTag h) (.ite (.ite (.endTag h) (.ite h (.addOp (.modTag h)))) (.ite h (.tallyWork (.modTag h)))))

theorem startSamples {t : ℕ} (h : s.regsWf) : (s.startSamples t).regsWf := by
  unfold State.startSamples
  refine .foldl h fun _ _ hu => ?_
  split
  · exact .addOp hu

theorem sampleCheck {t : ℕ} (h : s.regsWf) : (s.sampleCheck t).regsWf :=
  .ite h (.endTag h)

theorem sampleEnd {t : ℕ} {o : Op} {i cw result : ℕ} (h : s.regsWf) : (s.sampleEnd t o i cw result).regsWf := by
  unfold State.sampleEnd
  refine .ite (.ite (.each h (fun _ _ hu => .addOp hu)) (.sampleCheck (.modTag h))) ?_
  extract_lets st
  refine .sampleCheck ?_
  clear_value st
  split
  · exact .modTag (.dropStage h)
  · exact .modTag (.dropStage h)

theorem startSync {t : ℕ} (h : s.regsWf) : (s.startSync t).regsWf :=
  .ite (.endTag h) (.later (.foldl (.modTag h) (fun _ _ hu => .ite hu (.writeBack hu))))

theorem syncLine {line : ℕ} (h : s.regsWf) : (s.syncLine line).regsWf :=
  .foldl h fun _ _ hu => .ite hu (.ite (.ite (.later (.modTag hu)) (.ite (.modTag hu) (.writeBack (.modTag hu))))
    (.ite (.later (.modTag hu)) hu))

theorem syncPush {t : ℕ} (h : s.regsWf) : (s.syncPush t).regsWf :=
  .ite h (.ite (.endTag (.same h rfl)) (.endTag h))

theorem rebuildPush {t : ℕ} (h : s.regsWf) : (s.rebuildPush t).regsWf := by
  unfold State.rebuildPush
  refine .ite h ?_
  split
  · exact .endTag (.ite h (.evSpareTaken h))
  · exact .modTag (.newSub h)

theorem startRebuild {t : ℕ} (h : s.regsWf) : (s.startRebuild t).regsWf :=
  have hclear : State.regsWf { s with
      regs := clearSpare s.regs (dAux (s.tagOf t).desc), force := clearSpare s.force (dAux (s.tagOf t).desc) } :=
    tabWf_tabPut h _ _
  .ite (.endTag hclear) (.rebuildPush hclear)

theorem addRaw {t : ℕ} (h : s.regsWf) : (s.addRaw t).regsWf :=
  .addOp (.modTag h)

theorem routineMark {o : Op} {result : ℕ} (h : s.regsWf) : (s.routineMark o result).regsWf :=
  .ite h (.ite (.ite (.frontMake (.horizonDrop h)) (.ite (.horizonDrop h) h)) (.ite h (.ite (.ite (.modLun h) (.lastVerified h))
    (.ite (.firstGone h) (.ite h (.frontHalt (.modLun h)))))))

theorem rawEnd {t : ℕ} {o : Op} {result v6 v7 : ℕ} (h : s.regsWf) : (s.rawEnd t o result v6 v7).regsWf := by
  unfold State.rawEnd
  extract_lets _ _ _ _ _ s1
  have hs1 : s1.regsWf := .ite (.modChan (.routineMark h)) (.dropStage (.routineMark h))
  exact .later (.ite (.foldl (.drawBytes (.modTag hs1)) (fun _ _ hu => .sendUser hu)) (.drawBytes (.modTag hs1)))

theorem startTag {t : ℕ} (h : s.regsWf) : (s.startTag t).regsWf := by
  unfold State.startTag
  extract_lets
  refine .ite (.startReads (.modTag h)) (.ite (.askProgram (.modTag h)) (.ite (.erasePush (.modTag h))
    (.ite (.startSamples (.modTag h)) (.ite (.ask (.modTag h)) (.ite ?_ (.ite (.startRebuild (.modTag h))
    (.ite (.ite (.endTag (.modTag h)) (.tallyWork (.modTag h))) (.ite (.ite (.endTag (.modTag h)) (.tallyWork (.modTag h)))
    (.ite (.startSync (.modTag h)) (.ite (.ite (.askProgram (.modTag h)) (.addRaw (.modTag h))) (.later (.modTag h))))))))))))
  extract_lets
  split
  · exact .newSub (.modTag h)
  · exact .endTag (.modTag h)

theorem scanSend {t : ℕ} {bytes : List Byte} (h : s.regsWf) : (s.scanSend t bytes).regsWf :=
  .ite h (.later (.each (.modTag h) (fun _ _ hu => .sendUser hu)))

theorem tagPush {t : ℕ} (h : s.regsWf) : (s.tagPush t).regsWf :=
  .ite h (.ite (.ite h (.endTag h)) (.ite (.ite h (.startTag h)) (.ite (.ite (.endTag h) h) (.ite (.ite h (.ite (.endTag h)
    (.formCopy h))) (.ite (.ite (.formProgram h) h) (.ite (.erasePush h) (.ite (.closePush h) (.ite (.flushPush h) (.ite (.ite h
    (.rebuildPush h)) (.ite (.syncPush h) (.ite (.ite (.endTag h) h) (.ite (.ite (.ite (.addRaw h) h) (.ite (.endTag h) h))
    (.ite (.ite h (.ite (.endTag h) (.ite (.endTag h) (.endTag h)))) (.ite (.endTag h) h))))))))))))))

theorem abortParked {t : ℕ} (h : s.regsWf) : (s.abortParked t).regsWf :=
  .ite h (.tagPush (.withdraw (.modTag (.same h rfl))))

theorem abortSusp {g t : ℕ} (h : s.regsWf) : (s.abortSusp g t).regsWf :=
  .addOp (.newSeq (.dropOps (.modLun h)))

theorem abortTag {t : ℕ} (h : s.regsWf) : (s.abortTag t).regsWf :=
  .ite (.abortParked h) (.ite (.endTag h) (.tagPush (.withdraw (.modTag (.ite (.request h) (.foldl (.request h) (fun _ _ hu =>
    .abortSusp hu)))))))

theorem abortIntake {t : ℕ} (h : s.regsWf) : (s.abortIntake t).regsWf :=
  .later (.foldl (.modTag h) (fun _ _ hu => .abortTag hu))

theorem untag {t : ℕ} (h : s.regsWf) : (s.untag t).regsWf :=
  .each (.each (.same h rfl) (fun _ _ hu => .ite (.modCtx hu) hu)) fun _ _ hu => .ite (.modLun hu) hu

theorem onInserted {t : ℕ} (h : s.regsWf) : (s.onInserted t).regsWf :=
  .recDone (.foldl (.untag h) (fun _ _ hu => .ite (.later (.modTag hu)) (.ite (.later hu) hu)))

end Sys2Proof.Machine.State.regsWf
end

section
/-! The ends of die operations -/

namespace Sys2Proof.Machine.State.regsWf

variable {s : State}

theorem waitAgain {o : Op} (h : s.regsWf) : (s.waitAgain o).regsWf := by
  unfold State.waitAgain
  extract_lets s
  have hs : s.regsWf := by
    unfold s
    split
    · exact .modTag h
    · exact h
  exact .addOp hs

theorem passEnd {o : Op} {r : ℕ} (h : s.regsWf) : (s.passEnd o r).regsWf := by
  unfold State.passEnd
  split
  · exact .ite (.lastVerified h) (.passFailed h)
  · exact .subPassed h
  · refine .ite (.firstVerified h) ?_
    split
    · exact .ite (.passFailed h) (.later (.firstGone (.unfold h)))
    · exact .passFailed h
  · exact .ite (.firstVerified h) (.passFailed h)

theorem eraseEnd {o : Op} {r : ℕ} {committed : Bool} (h : s.regsWf) : (s.eraseEnd o r committed).regsWf := by
  unfold State.eraseEnd
  extract_lets _ who
  clear_value who
  split
  · exact h
  · refine .ite (.eraseEnded h) (.ite (.eraseEnded h) ?_)
    split
    · exact .subErased (.eraseDropped h)
    · exact .ite (.eraseDropped h) (.ite (.later (.eraseDropped h)) (.eraseFail (.eraseDropped h)))
    · exact .eraseDropped h

theorem tallyFenced {g : ℕ} (h : s.regsWf) : (s.tallyFenced g).regsWf := by
  unfold State.tallyFenced
  refine .foldl (.modTally h) fun _ _ hu => ?_
  split
  · exact .later hu
  · exact .later hu
  · exact .later hu
  · exact .later hu
  · exact hu
  · exact .later hu

theorem poolAgain {g eb : ℕ} (h : s.regsWf) : (s.poolAgain g eb).regsWf := by
  unfold State.poolAgain
  extract_lets
  split
  · exact .modTally h
  · exact .modTally h

theorem tallyOpEnd {o : Op} {step r : ℕ} {ended : Bool} (h : s.regsWf) : (s.tallyOpEnd o step r ended).regsWf :=
  .ite (.tallyFenced (.ite (.poolAgain h) (.modTally h))) (.ite (.ite (.tallyGo (.modTally h))
    (.tallyAdvance (.modTally (.evTally (.modTally h))))) (.tallyEnd h))

theorem readEnd {o : Op} {r : ℕ} (h : s.regsWf) : (s.readEnd o r).regsWf := by
  unfold State.readEnd
  split
  · exact .ite (.senseDone h) (.ite (.readFenced h) (.ite h (.senseFailed h)))
  · exact .ite (.xferDone h) (.ite (.readFenced (.dropStage h)) (.ite (.ite h (.dropStage h))
      (.ite (.cwEnd (.modRead (.dropStage h))) (.senseFailed (.dropStage h)))))
  · exact .ite (.softDone h) (.ite (.readFenced (.dropStage h)) (.ite (.ite h (.dropStage h)) (.senseFailed (.dropStage h))))
  · exact h

theorem rawPoison {t : ℕ} {o : Op} (h : s.regsWf) : (s.rawPoison t o).regsWf :=
  .later (.dropStage h)

theorem opEnd {o : Op} {r v6 v7 : ℕ} (h : s.regsWf) : (s.opEnd o r v6 v7).regsWf := by
  unfold State.opEnd
  extract_lets _ s _ s1
  have hs : s.regsWf := by
    unfold s
    split
    · exact .ite h (.ite (.modTag h) (.ite (.modTag h) h))
    · exact h
  have hs1 : s1.regsWf := by
    unfold s1
    refine .ite ?_ (.ite (.waitAgain hs) ?_)
    · split
      · split
        · exact .modTag (.eraseDropped hs)
        · exact hs
      · exact .subErase (.eraseDropped hs)
      · exact .waitAgain hs
    · split
      · exact .readEnd hs
      · exact .readEnd hs
      · exact .readEnd hs
      · exact .ite (.firstGone (.unfold hs)) (.passEnd hs)
      · exact .passEnd hs
      · exact .passEnd hs
      · exact .passEnd hs
      · exact .passEnd hs
      · exact .ite (.eraseEnd hs) (.eraseDropped hs)
      · exact .ite (.eraseDropped hs) (.eraseEnd hs)
      · split
        · exact .ite (.dropStage hs) (.ite (.later hs) (.sampleEnd hs))
        · exact hs
      · exact .tallyOpEnd hs
      · split
        · exact .ite (.later hs) (.ite (.rawPoison hs) (.rawEnd hs))
        · exact hs
      · split
        · exact .ite (.later (.routineMark hs)) (.ite (.rawPoison (.routineMark hs)) (.rawEnd hs))
        · exact hs
      · exact hs
  split
  · exact .ite (.later hs1) hs1
  · exact hs1

theorem engineOp {g routine : ℕ} {role : Role} {v4 : ℕ} (h : s.regsWf) : (s.engineOp g routine role v4).regsWf :=
  .addOp (.newSeq h)

theorem limitEvent {g : ℕ} {o : Op} (h : s.regsWf) : (s.limitEvent g o).regsWf := by
  unfold State.limitEvent
  split
  · exact .fault (.evTimeout h)
  · exact .evTimeout h

theorem lunStuck {g : ℕ} {o : Op} (h : s.regsWf) : (s.lunStuck g o).regsWf := by
  unfold State.lunStuck
  extract_lets _ s
  have hs : s.regsWf := .evLunFault (.fenceLun (.modLun h))
  split
  · exact .fault hs
  · exact hs

theorem hangReset {g : ℕ} {o : Op} (h : s.regsWf) : (s.hangReset g o).regsWf :=
  .ite h (.engineOp (.dropOps (.dropPark (.modLun h))))

theorem resetOver {g : ℕ} {ok : Bool} (h : s.regsWf) : (s.resetOver g ok).regsWf := by
  unfold State.resetOver
  extract_lets _ _ s1 s2
  have hs1 : s1.regsWf := .ite (.modLun h) (.lunStuck (.modLun h))
  have hs2 : s2.regsWf := by
    unfold s2
    split
    · exact .later hs1
    · exact hs1
  exact .ite (.later hs2) hs2

theorem pollAgain {g : ℕ} (h : s.regsWf) : (s.pollAgain g).regsWf :=
  .ite (.engineOp h) h

theorem fenceWork {g : ℕ} {all raw : Bool} (h : s.regsWf) : (s.fenceWork g all raw).regsWf := by
  unfold State.fenceWork
  extract_lets +onlyGivenNames _ _ _ _ _ _ _ _ _ _ s3 s4
  have hs3 : s3.regsWf := .foldl (.tallyFenced (.foldl (.dropOps h) (fun _ _ hu => .ite hu (.later hu)))) fun _ _ hu =>
    .later hu
  have hs4 : s4.regsWf := .ite (.modLun hs3) hs3
  refine .ite (.pollAgain hs4) ?_
  extract_lets +onlyGivenNames _ s1 _ s2
  have hs1 : s1.regsWf := .ite (.modLun (.dropPark (.modLun hs4))) (.modLun hs4)
  have hs2 : s2.regsWf := .ite (.modChan (.modCtx hs1)) hs1
  exact .ite (.modLun hs2) hs2

theorem chanFenceWork {n : ℕ} {raw : Bool} (h : s.regsWf) : (s.chanFenceWork n raw).regsWf :=
  .each h fun _ _ hu => .fenceWork hu

theorem quadFenceWork {q : ℕ} (h : s.regsWf) : (s.quadFenceWork q).regsWf :=
  .each h fun _ _ hu => .chanFenceWork hu

end Sys2Proof.Machine.State.regsWf
end

section
/-! The microsequencer -/

namespace Sys2Proof.Machine.State.regsWf

variable {s : State}

theorem setPatBank {b : Bool} {p : PatBank} (h : s.regsWf) : (s.setPatBank b p).regsWf :=
  .ite (.same h rfl) (.same h rfl)

theorem modRun {n g : ℕ} {f : Ctx → Ctx} (h : s.regsWf) : (s.modRun n g f).regsWf :=
  .ite (.modCtx h) (.modLun h)

theorem freeCtx {n g : ℕ} (h : s.regsWf) : (s.freeCtx n g).regsWf := by
  unfold State.freeCtx
  extract_lets s
  have hs : s.regsWf := .modChan (.modCtx h)
  exact .ite (.updChanRec hs) hs

theorem suspendedNow {g : ℕ} {o : Op} (h : s.regsWf) : (s.suspendedNow g o).regsWf := by
  unfold State.suspendedNow
  extract_lets
  split
  · exact .ite (.bump (.modLun h)) (.abortSusp (.bump (.modLun h)))
  · exact .bump (.modLun h)

theorem outcome {g : ℕ} {o : Op} {r v6 v7 : ℕ} (h : s.regsWf) : (s.outcome g o r v6 v7).regsWf :=
  .ite (.suspendedNow h) (.ite (.hangReset (.ite h (.limitEvent h))) (.later (.ite (.ite (.lunStuck (.modLun h)) (.modLun h))
    (.ite h (.modLun h)))))

theorem routed {g : ℕ} {o : Op} {r v6 v7 : ℕ} (h : s.regsWf) : (s.routed g o r v6 v7).regsWf := by
  unfold State.routed
  extract_lets _ _ s
  have hs : s.regsWf := by
    unfold s
    split
    · exact .resetOver h
    · exact h
    · exact .ite h (.modLun h)
    · refine .ite ?_ (.outcome h)
      split
      · exact .ite (.modLun h) (.abortSusp (.modLun h))
      · exact .modLun h
    · exact .outcome h
    · exact .outcome h
  exact .pollAgain hs

theorem routineEnd {n r : ℕ} (h : s.regsWf) : (s.routineEnd n r).regsWf :=
  .ite h (.routed (.ite (.evOpError (.freeCtx h)) (.freeCtx h)))

theorem unstage {n : ℕ} {o : Op} (h : s.regsWf) : (s.unstage n o).regsWf :=
  .ite (.modChan h) h

theorem abandon {q : ℕ} (h : s.regsWf) : (s.abandon q).regsWf :=
  .each h fun _ _ hu => .ite hu (.modCtx (.unstage (.freeCtx hu)))

theorem declareChanter {q : Fin 8} {ctx : ℕ} (h : s.regsWf) : (s.declareChanter q ctx).regsWf := by
  unfold State.declareChanter
  refine .ite h ?_
  extract_lets _ s
  have hs : s.regsWf := .capture (.put h)
  exact .ite (.escalate hs) (.ite (.abandon (.powerUp (.evSpareTaken (.updQuadRec (.modQuad (.same hs rfl))))))
    (.fenceQuad (.evSpareExhausted (.capture hs))))

theorem finishOp {g : ℕ} {c : Ctx} (h : s.regsWf) : (s.finishOp g c).regsWf :=
  .foldl (.engineOp h) fun _ _ hu => .request hu

theorem finishNow {n g : ℕ} {c : Ctx} (h : s.regsWf) : (s.finishNow n g c).regsWf := by
  unfold State.finishNow
  extract_lets
  split
  · exact .modCtx (.same h rfl)
  · exact h

theorem patDone (h : s.regsWf) : s.patDone.regsWf :=
  .ite h (.raise (.put (.put h)))

theorem takeoverEnd (h : s.regsWf) : s.takeoverEnd.regsWf := by
  unfold State.takeoverEnd
  split
  · exact h
  · refine .ite h ?_
    refine .each (.updQuadRec (.modQuad (.put (.patDone (.setReg h))))) fun _ _ hu => ?_
    refine .each (.ite (.finishNow (.freeCtx hu)) hu) fun _ _ hv => ?_
    split
    · exact .ite (.finishOp (.dropPark hv)) hv
    · exact hv

theorem chanterCount {q : Fin 8} {code : ℕ} {patch : Bool} (h : s.regsWf) : (s.chanterCount q code patch).regsWf :=
  .ite h (.ite (.fenceQuad (.fault (.raise h))) (.ite (.declareChanter (.modQuad h)) (.modQuad h)))

theorem chanterEvent {q n : ℕ} {c : Ctx} {b : Bad} (h : s.regsWf) : (s.chanterEvent q n c b).regsWf :=
  .ite (.evSramUe h) (.ite (.evQuad h) (.evQuad h))

theorem runFaulted {n : ℕ} (h : s.regsWf) : (s.runFaulted n).regsWf :=
  .ite (.finishNow (.freeCtx h)) (.ite (.modCtx (.bump (.unstage (.freeCtx h)))) (.routineEnd h))

theorem chanterFault {n : ℕ} {b : Bad} (h : s.regsWf) : (s.chanterFault n b).regsWf := by
  unfold State.chanterFault
  refine .ite h ?_
  split
  · extract_lets _ _ _ _ s
    have hs : s.regsWf := .chanterCount (.chanterEvent (.fault h))
    exact .ite hs (.runFaulted hs)
  · exact h

theorem runAgain {n g : ℕ} (h : s.regsWf) : (s.runAgain n g).regsWf := by
  unfold State.runAgain
  refine .ite (.runFaulted h) ?_
  split
  · exact .ite (.finishOp (.dropPark h)) (.ite (.routed (.dropPark h)) (.wakePark (.modLun (.bump (.unstage (.dropPark h))))))
  · exact h

theorem charge {n g ns : ℕ} (h : s.regsWf) : (s.charge n g ns).regsWf := by
  unfold State.charge
  split
  · exact h
  · exact .ite h (.modChan h)

theorem commit {n g : ℕ} (h : s.regsWf) : (s.commit n g).regsWf := by
  unfold State.commit
  split
  · exact h
  · extract_lets
    split
    · exact .ite (.modTag (.modLun (.modRun h))) (.modLun (.modRun h))
    · exact .modLun (.modRun h)

theorem confirmed {n g : ℕ} (h : s.regsWf) : (s.confirmed n g).regsWf :=
  .modLun h

theorem lanePop {n : ℕ} {e : Lane} (h : s.regsWf) : (s.lanePop n e).regsWf := by
  unfold State.lanePop
  extract_lets s s1 s2
  have hs : s.regsWf := .modChan (.charge h)
  have hs1 : s1.regsWf := .ite (.zqBoundary hs) hs
  have hs2 : s2.regsWf := .ite (.confirmed hs1) hs1
  exact .ite (.commit hs2) hs2

theorem setPads {n : ℕ} {f : Pads → Pads} (h : s.regsWf) : (s.setPads n f).regsWf :=
  .modChan h

theorem laneCeOn {n : ℕ} (h : s.regsWf) : (s.laneCeOn n).regsWf := by
  unfold State.laneCeOn
  split
  · exact h
  · exact .lanePop (.modChan (.ite (.setPads h) h))

theorem laneCeOff {n : ℕ} (h : s.regsWf) : (s.laneCeOff n).regsWf := by
  unfold State.laneCeOff
  split
  · exact h
  · exact .lanePop (.modChan (.setPads h))

theorem laneCmd {n : ℕ} (h : s.regsWf) : (s.laneCmd n).regsWf := by
  unfold State.laneCmd
  split
  · exact h
  · extract_lets s
    have hs : s.regsWf := by
      unfold s
      split
      · exact .modRead h
      · exact h
    exact .lanePop (.setPads hs)

theorem laneAddr {n : ℕ} (h : s.regsWf) : (s.laneAddr n).regsWf := by
  unfold State.laneAddr
  split
  · exact h
  · exact .lanePop (.setPads h)

theorem laneDin {n : ℕ} (h : s.regsWf) : (s.laneDin n).regsWf := by
  unfold State.laneDin
  split
  · exact h
  · exact .lanePop (.setPads h)

theorem doutOk {n : ℕ} {e : Lane} {data : List Byte} (h : s.regsWf) : (s.doutOk n e data).regsWf := by
  unfold State.doutOk
  extract_lets _ s1 _ _ _ s2
  have hs1 : s1.regsWf := by
    unfold s1
    split
    · exact .updChanRec (.modChan h)
    · exact .modChan h
  have hs2 : s2.regsWf := by
    unfold s2
    refine .ite (.modRun hs1) (.ite (.modChan hs1) ?_)
    split
    · exact hs1
    · exact .modChan (.same hs1 rfl)
  exact .lanePop hs2

theorem laneDout {n : ℕ} {b : ReadBurst} (h : s.regsWf) : (s.laneDout n b).regsWf := by
  unfold State.laneDout
  split
  · exact h
  · refine .ite (.doutOk h) (.ite (.updChanRec (.modChan (.charge h))) ?_)
    extract_lets _ s s1
    have hs : s.regsWf := by
      unfold s
      split
      · exact .fault h
      · exact h
    have hs1 : s1.regsWf := .bump (.evPhyFault hs)
    exact .lanePop (.updChanRec (.modChan (.ite (.retrain hs1) hs1)))

theorem pollStuck {n g : ℕ} (h : s.regsWf) : (s.pollStuck n g).regsWf := by
  unfold State.pollStuck
  refine .ite h (.ite (.modChan h) ?_)
  refine .ite ?_ (.modChan h)
  split
  · exact .rbFault (.modChan h)
  · exact .modChan h

theorem laneStatus {n : ℕ} {st : Byte} (h : s.regsWf) : (s.laneStatus n st).regsWf := by
  unfold State.laneStatus
  split
  · exact h
  · extract_lets s
    have hs : s.regsWf := .modChan (.setPads h)
    exact .ite (.pollStuck (.modLun (.lanePop hs))) (.modChan (.lanePop hs))

theorem laneTrnRd {n : ℕ} {data : List Byte} (h : s.regsWf) : (s.laneTrnRd n data).regsWf := by
  unfold State.laneTrnRd
  split
  · exact h
  · exact .lanePop (.modChan h)

theorem laneTrnWr {n : ℕ} (h : s.regsWf) : (s.laneTrnWr n).regsWf := by
  unfold State.laneTrnWr
  split
  · exact h
  · exact .lanePop (.setPads h)

theorem dropSpent {n : ℕ} {o : Op} {w : ℕ} (h : s.regsWf) : (s.dropSpent n o w).regsWf :=
  .ite (.modChan h) h

theorem reserve {n : ℕ} (h : s.regsWf) : (s.reserve n).regsWf := by
  unfold State.reserve
  extract_lets _ s
  have hs : s.regsWf := by
    unfold s
    split
    · exact .dropSpent h
    · exact h
  split
  · exact hs
  · exact .ite hs (.modCtx (.modChan hs))

theorem parkCtx {n target : ℕ} {safe : Bool} (h : s.regsWf) : (s.parkCtx n target safe).regsWf :=
  .modLun (.modCtx h)

theorem wordRest {n mw : ℕ} {w : Nano} {patch : Bool} (h : s.regsWf) :
    (s.wordRest n mw w patch).regsWf := by
  unfold State.wordRest
  extract_lets c₀ c₁ next c₂ c₃ safe here s₁ go
  have h₁ : s₁.regsWf := .modCtx h
  have hgo : ∀ c a, (go c a).regsWf := by
    intro c a
    simp only [go]
    split
    · exact .modCtx h₁
    · exact .chanterFault h₁
  split
  · exact hgo _ _
  · exact hgo _ _
  · exact hgo _ _
  · exact hgo _ _
  · exact .modCtx h₁
  · exact .ite (hgo _ _) (.parkCtx h₁)
  · exact .routineEnd h₁
  · exact h₁

theorem takeTurn {n corr : ℕ} (h : s.regsWf) : (s.takeTurn n corr).regsWf :=
  .ite (.modQuad h) (.bump (.modQuad h))

theorem smallBad {n : ℕ} {x : SmallStore} (h : s.regsWf) : (s.smallBad n x).regsWf := by
  unfold State.smallBad
  refine .ite (.runFaulted h) ?_
  extract_lets s
  have hs : s.regsWf := .evLunFault (.fenceLun h)
  split
  · exact .fault hs
  · exact hs

theorem runWord {n seq : ℕ} {err : FetchErr} (h : s.regsWf) : (s.runWord n seq err).regsWf := by
  unfold State.runWord
  refine .ite h ?_
  split
  · exact .smallBad h
  · extract_lets +onlyGivenNames _ _
    split
    · exact .chanterFault (.takeTurn h)
    · refine .ite h ?_
      extract_lets +onlyGivenNames _
      refine .ite (.chanterFault (.takeTurn h)) ?_
      extract_lets +onlyGivenNames entry _
      clear_value entry
      split
      · exact .ite (.chanterFault (.takeTurn h)) (.ite (.modCtx (.takeTurn h)) (.ite (.modCtx (.modChan (.takeTurn h)))
          (.wordRest (.modChan (.takeTurn h)))))
      · exact .ite (.modCtx (.takeTurn h)) (.wordRest (.takeTurn h))

theorem runLimit {n : ℕ} (h : s.regsWf) : (s.runLimit n).regsWf :=
  .ite (.chanterFault h) h

theorem watchdog {n : ℕ} (h : s.regsWf) : (s.watchdog n).regsWf :=
  .ite (.chanterFault h) h

theorem timerExpire {g : ℕ} (h : s.regsWf) : (s.timerExpire g).regsWf := by
  unfold State.timerExpire
  refine .ite (.modCtx h) ?_
  split
  · exact .ite (.wakePark (.modLun h)) h
  · exact h

theorem unpark {n : ℕ} (h : s.regsWf) : (s.unpark n).regsWf := by
  unfold State.unpark
  refine .ite h ?_
  split
  · exact h
  · split
    · exact h
    · extract_lets s
      have hs : s.regsWf := .modCtx (.modLun h)
      split
      · exact .modCtx hs
      · exact .chanterFault hs

theorem bankSwitch {k : ℕ} (h : s.regsWf) : (s.bankSwitch k).regsWf :=
  .ite h (.patDone (.setReg h))

theorem patActivate (h : s.regsWf) : s.patActivate.regsWf :=
  .ite h (.each (.setReg (.put h)) (fun _ _ hu => .bankSwitch hu))

end Sys2Proof.Machine.State.regsWf
end

section
/-! The choice of the next routine -/

namespace Sys2Proof.Machine.State.regsWf

variable {s : State}

theorem chanDead {n : ℕ} (h : s.regsWf) : (s.chanDead n).regsWf :=
  .ite (.foldl (.chanFenceWork h) (fun _ _ hu => .pollAgain hu)) h

theorem sweepDead (h : s.regsWf) : s.sweepDead.regsWf := by
  unfold State.sweepDead
  extract_lets s
  have hs : s.regsWf := .each h fun _ _ hu => .chanDead hu
  exact .ite hs (.foldl (.dropOps hs) (fun _ _ hu => .later hu))

theorem suspend {g : ℕ} (h : s.regsWf) : (s.suspend g).regsWf :=
  .ite (.modCtx h) (.requestPark h)

theorem lookAround {o : Op} (h : s.regsWf) : (s.lookAround o).regsWf := by
  unfold State.lookAround
  split
  · split
    · exact .ite h (.goAround (.same h rfl))
    · exact h
  · exact h

theorem suspendDecision {g : ℕ} (h : s.regsWf) : (s.suspendDecision g).regsWf := by
  unfold State.suspendDecision
  split
  · exact h
  · exact .ite (.ite h (.lookAround h)) (.ite h (.ite h (.ite (.suspend h) (.ite h (.ite h (.lookAround h))))))

theorem resumeMin {g : ℕ} (h : s.regsWf) : (s.resumeMin g).regsWf :=
  .ite (.suspend h) h

theorem resumeOp {g : ℕ} (h : s.regsWf) : (s.resumeOp g).regsWf :=
  .ite h (.engineOp h)

theorem passData {o : Op} (h : s.regsWf) : (s.passData o).2.regsWf := by
  unfold State.passData
  split
  · exact .iteSnd (.readAcc h) h
  · exact h

theorem foldNow {o : Op} (h : s.regsWf) : (s.foldNow o).2.regsWf := by
  unfold State.foldNow
  split
  · exact h
  · exact .iteSnd h (.modRow (.foldSlot (.needAcc h)))
  · exact h

theorem onceRefused {o : Op} (h : s.regsWf) : (s.onceRefused o).regsWf := by
  unfold State.onceRefused
  split
  · split
    · exact .later h
    · exact h
  · split
    · exact .later h
    · exact h
  · exact .subPassed h
  · exact .passFailed h
  · exact h
  · split
    · exact .ite (.rowsPush (.modRow h)) h
    · exact h

theorem bandAgain {o : Op} (h : s.regsWf) : (s.bandAgain o).2.regsWf := by
  unfold State.bandAgain
  split
  · split
    · exact .iteSnd h (.modRead h)
    · exact h
  · exact h

theorem startRoutine {o : Op} (h : s.regsWf) : (s.startRoutine o).regsWf := by
  unfold State.startRoutine
  extract_lets
  split
  rename_i u heq
  have hu : u.regsWf := .ofSnd heq (.bandAgain h)
  split
  rename_i v heq
  have hv : v.regsWf := .ofSnd heq (.iteSnd (.modChan hu) hu)
  extract_lets s s1 s2
  have hs : s.regsWf := .ite (.quadBack hv) hv
  have hs1 : s1.regsWf := by
    unfold s1
    split
    · exact .ite hs (.modTag hs)
    · exact hs
  have hs2 : s2.regsWf := by
    unfold s2
    split
    · extract_lets s
      have hs : s.regsWf := by
        unfold s
        split
        · exact .countSenses hs1
        · exact hs1
      exact .modRead hs
    · exact hs1
  split
  · exact .later (.evOpError hs2)
  · exact .modCtx (.modLun hs2)

theorem firstRefused {o : Op} (h : s.regsWf) : (s.firstRefused o).regsWf := by
  unfold State.firstRefused
  split
  · exact .later h
  · exact h

theorem offerOp {o : Op} (h : s.regsWf) : (s.offerOp o).regsWf := by
  unfold State.offerOp
  extract_lets
  split
  · exact .later (.same h rfl)
  · exact .later (.same h rfl)
  · exact .ite (.onceRefused (.same h rfl)) (.ite (.firstRefused (.same h rfl))
      (.ite (.startRoutine (.beginFirst (.foldNow (.passData (.same h rfl)))))
      (.ite (.startRoutine (.beginFirst (.passData (.same h rfl)))) (.ite (.startRoutine (.fineLine (.passData (.same h rfl))))
      (.startRoutine (.passData (.same h rfl)))))))

theorem restamp {n : ℕ} (h : s.regsWf) : (s.restamp n).regsWf :=
  .ite h (.same h rfl)

theorem offer {n : ℕ} (h : s.regsWf) : (s.offer n).regsWf := by
  unfold State.offer
  extract_lets s
  have hs : s.regsWf := .ite h (.each h (fun _ _ hu => .suspendDecision hu))
  refine .ite (.restamp hs) ?_
  split
  · exact .offerOp (.restamp hs)
  · split
    · exact .startRoutine (.modChan (.restamp hs))
    · exact .restamp hs

end Sys2Proof.Machine.State.regsWf
end

section
/-! Power states and hold-up -/

namespace Sys2Proof.Machine.State.regsWf

variable {s : State}

theorem release {d : ℕ} (h : s.regsWf) : (s.release d).regsWf :=
  .ite (.setReq h) h

theorem pllOff {q : ℕ} (h : s.regsWf) : (s.pllOff q).regsWf := by
  unfold State.pllOff
  refine .ite h ?_
  extract_lets s
  have hs : s.regsWf := .each h fun _ _ hu => .enterSafe hu
  exact .release (.ite hs (.modQuad (.quadBack hs)))

theorem spillAll (h : s.regsWf) : s.spillAll.regsWf :=
  .foldl h fun _ _ hu => .need (.modAcc hu)

theorem updPar (h : s.regsWf) : s.updPar.regsWf :=
  .ite h (.ite (.powerUp h) (.ite (.spillAll h) (.release h)))

theorem ackRise {d : ℕ} (h : s.regsWf) : (s.ackRise d).regsWf :=
  .ite (.same h rfl) h

theorem quadFell {q : ℕ} (h : s.regsWf) : (s.quadFell q).regsWf :=
  .ite (.setQstate h) h

theorem ackFall {d : ℕ} (h : s.regsWf) : (s.ackFall d).regsWf :=
  .ite (.each (.same h rfl) (fun _ _ hu => .quadFell hu)) h

theorem filled {d : ℕ} (h : s.regsWf) : (s.filled d).regsWf :=
  .ite (.same h rfl) h

theorem quadIdle {q : ℕ} (h : s.regsWf) : (s.quadIdle q).regsWf :=
  .ite (.setQstate h) h

theorem quadDown {q : ℕ} (h : s.regsWf) : (s.quadDown q).regsWf :=
  .quadFell (.setQstate (.release (.release (.modQuad (.put (.put (.each (.switchTold h) (fun _ _ hu => .enterSafe hu))))))))

theorem quadOff {q : ℕ} (h : s.regsWf) : (s.quadOff q).regsWf :=
  .ite (.quadDown h) h

theorem quadUp {q why : ℕ} (h : s.regsWf) : (s.quadUp q why).regsWf :=
  .ite h (.modQuad (.put (.setQstate (.powerUp (.powerUp h)))))

theorem quadAwake {q : ℕ} (h : s.regsWf) : (s.quadAwake q).regsWf :=
  .ite (.each (.modQuad (.quadBack h)) (fun _ _ hu => .ite (.refresh (.leaveSafe hu)) (.leaveSafe hu))) h

theorem quadWake {q : ℕ} (h : s.regsWf) : (s.quadWake q).regsWf :=
  .ite (.quadUp h) h

theorem quadActive {q : ℕ} (h : s.regsWf) : (s.quadActive q).regsWf :=
  .ite (.quadBack h) h

theorem quadPolicy {q : ℕ} (h : s.regsWf) : (s.quadPolicy q).regsWf :=
  .quadActive (.ite (.modQuad (.quadUp (.quadAwake h))) (.quadAwake h))

theorem setBlock {b : ℕ} (h : s.regsWf) : (s.setBlock b).regsWf :=
  .put h

theorem quadsUp (h : s.regsWf) : s.quadsUp.regsWf :=
  .each h fun _ _ hu => .quadUp hu

theorem sleepAbandon {reason : ℕ} (h : s.regsWf) : (s.sleepAbandon reason).regsWf :=
  .ite h (.raise (.each (.bump (.put (.setBlock (.same h rfl)))) (fun _ _ hu => .quadFell hu)))

theorem wakeWrite (h : s.regsWf) : s.wakeWrite.regsWf :=
  .ite (.same h rfl) h

theorem sleepStart {wake : Bool} (h : s.regsWf) : (s.sleepStart wake).regsWf :=
  .ite (.ite (.wakeWrite h) h) (.setBlock (.same h rfl))

theorem dropCounters (h : s.regsWf) : s.dropCounters.regsWf := by
  unfold State.dropCounters
  extract_lets _ _ _ s2
  have hs2 : s2.regsWf := .each (.each (.foldl h (fun _ _ hu => .setReg hu)) (fun _ _ hu => .setReg (.setReg hu))) fun _ _ hu =>
    .setReg hu
  exact .each (.each (.each (.same hs2 (by with_reducible rfl)) (fun _ _ hu => .modChan hu)) (fun _ _ hu => .modQuad hu))
    fun _ _ hu => .modQuad (.put hu)

theorem sleepNext (h : s.regsWf) : s.sleepNext.regsWf := by
  unfold State.sleepNext
  refine .ite h (.ite (.sleepAbandon h) ?_)
  split
  · exact .sleepAbandon h
  · split
    · exact .same h rfl
    · exact .foldl (.spillAll (.same h rfl)) fun _ _ hu => .ite hu (.writeBack hu)
    · exact .ite h (.same h rfl)
    · exact .ite h (.each (.each (.same h rfl) (fun _ _ hu => .modQuad (.quadDown hu))) (fun _ _ hu => .ite hu (.release hu)))
    · exact .ite h (.same h rfl)
    · extract_lets s
      have hs : s.regsWf := .dropCounters (.same h rfl)
      exact .put (.setBlock (.setReq (.same hs rfl)))

theorem deepWakeUp {ret : Option (BitVec 12)} (h : s.regsWf) : (s.deepWakeUp ret).regsWf := by
  unfold State.deepWakeUp
  refine .ite h ?_
  extract_lets _ _ _ s1 _ s2
  have hs1 : s1.regsWf := .setBlock (.powerUp (.same h rfl))
  have hs2 : s2.regsWf := .ite (.same hs1 rfl) (.quadsUp hs1)
  split
  · exact hs2
  · exact .fatal (.capture hs2)

theorem wakeDone (h : s.regsWf) : s.wakeDone.regsWf :=
  .ite (.setBlock h) h

theorem evPwrfail {code : ℕ} (h : s.regsWf) : (s.evPwrfail code).regsWf :=
  .raise h

theorem holdExpire (h : s.regsWf) : s.holdExpire.regsWf := by
  unfold State.holdExpire
  refine .ite h ?_
  extract_lets s
  have hs : s.regsWf := .evPwrfail (.put (.put h))
  exact .allSafe (.each (.same hs rfl) (fun _ _ hu => .cutApply hu))

theorem latchSet (h : s.regsWf) : s.latchSet.regsWf := by
  unfold State.latchSet
  extract_lets _ _ _ _ s4
  have hs4 : s4.regsWf := by
    unfold s4
    refine .each (.each (.sleepAbandon (.evPwrfail (.fireSlot (.put (.put h))))) (fun _ _ hu => .ite (.modCtx hu) hu))
      fun _ _ hu => ?_
    split
    · exact .ite hu (.requestPark hu)
    · exact hu
  exact .ite (.holdExpire hs4) hs4

theorem latchGone (h : s.regsWf) : s.latchGone.regsWf :=
  .foldl (.ite (.quadsUp (.same h rfl)) h) fun _ _ hu => .racReady hu

theorem latchClear {pinHigh : Bool} (h : s.regsWf) : (s.latchClear pinHigh).regsWf := by
  unfold State.latchClear
  refine .ite h (.ite (.ite (.latchGone (.evPwrfail (.put (.put h)))) (.latchSet h)) ?_)
  extract_lets s
  have hs : s.regsWf := .put (.put h)
  exact .ite (.latchGone hs) (.latchSet hs)

theorem holdPads (h : s.regsWf) : s.holdPads.regsWf :=
  .ite h (.foldl h (fun _ _ hu => .foldl hu (fun _ _ hv => .ite hv (.padBlock hv))))

theorem holdPush (h : s.regsWf) : s.holdPush.regsWf := by
  unfold State.holdPush
  refine .ite h ?_
  extract_lets s
  have hs : s.regsWf := .holdPads (.each h (fun _ _ hu => .resumeOp hu))
  exact .ite (.holdExpire (.put hs)) (.put hs)

end Sys2Proof.Machine.State.regsWf
end

section
/-! Function reset -/

namespace Sys2Proof.Machine.State.regsWf

variable {s : State}

theorem modFreset {f : Freset → Freset} (h : s.regsWf) : (s.modFreset f).regsWf :=
  .same h rfl

theorem listAdd {e : List Byte} (h : s.regsWf) : (s.listAdd e).regsWf :=
  .ite h (.modFreset h)

theorem fresetLun {g : ℕ} (h : s.regsWf) : (s.fresetLun g).regsWf := by
  unfold State.fresetLun
  refine .ite h ?_
  extract_lets _ _ _ s
  have hs : s.regsWf := by
    unfold s
    split
    · exact .listAdd h
    · exact h
  exact .ite hs (.engineOp (.dropPark (.modLun (.dropOps (.ite (.freeCtx hs) hs)))))

theorem fresetDiscard (h : s.regsWf) : s.fresetDiscard.regsWf := by
  unfold State.fresetDiscard
  extract_lets _ _ _ _ s1 _ _ s3 _ _ s5
  have hs1 : s1.regsWf := .each (.same h rfl) fun _ _ hu => .modSlice hu
  have hs3 : s3.regsWf := .emptyOver (.same (.same hs1 (by with_reducible rfl)) (by with_reducible rfl))
  have hs5 : s5.regsWf := .each (.same hs3 (by with_reducible rfl)) fun _ _ hu => .modCq hu
  exact .request (.each (.same hs5 (by with_reducible rfl)) (fun _ _ hu => .ite (.modTally hu) (.modTally hu)))

theorem fresetStart {immediate : Bool} (h : s.regsWf) : (s.fresetStart immediate).regsWf := by
  unfold State.fresetStart
  refine .ite h ?_
  extract_lets _ _ _ src
  have hsrc : src.regsWf := .fresetDiscard (.put (.put (.put (.put (.put h)))))
  exact .ite (.each (.same hsrc (by with_reducible rfl)) (fun _ _ hu => .fresetLun hu)) (.same hsrc (by with_reducible rfl))

theorem fresetBound (h : s.regsWf) : s.fresetBound.regsWf :=
  .ite h (.each h (fun _ _ hu => .fresetLun hu))

theorem fresetTally {o : Op} {step r : ℕ} (h : s.regsWf) : (s.fresetTally o step r).regsWf := by
  unfold State.fresetTally
  extract_lets +onlyGivenNames _ _
  refine .ite ?_ (.ite (.opEnd h) (.ite h (.ite (.modTally (.evTally h)) (.ite (.modTally (.evTally h))
    (.tallyStop (.modTally (.evTally h)))))))
  split
  · extract_lets +onlyGivenNames _
    refine .ite (.modTally (.modTally h)) (.ite (.modTally (.modTally h)) ?_)
    extract_lets +onlyGivenNames s
    have hs : s.regsWf := .evTally (.modTally (.modTally h))
    split
    · exact .modTally hs
    · exact .tallyStop hs
  · exact h

theorem fresetOpEnd {o : Op} {r v6 v7 : ℕ} (h : s.regsWf) : (s.fresetOpEnd o r v6 v7).regsWf := by
  unfold State.fresetOpEnd
  extract_lets listed
  have hl : (listed s).regsWf := by
    simp only [listed]
    split
    · exact .listAdd h
    · exact h
  refine .ite ?_ (.ite h (.ite (.routineMark h) (.ite ?_ (.ite ?_ (.ite (.opEnd h) h)))))
  · split
    · exact .ite (.fresetTally hl) hl
    · exact hl
  · split
    · exact .fresetTally h
    · exact .ite h (.frontMake h)
  · split
    · exact .passEnd h
    · exact .firstVerified h
    · exact .firstVerified h

theorem fresetLeft (h : s.regsWf) : s.fresetLeft.regsWf := by
  refine .each h fun _ _ hu => ?_
  split
  · exact .listAdd hu
  · exact hu

theorem fresetStripe {sid : ℕ} (h : s.regsWf) : (s.fresetStripe sid).regsWf := by
  unfold State.fresetStripe
  refine .ite h ?_
  extract_lets _ s
  have hs : s.regsWf := .foldl h fun _ _ hu => .foldl hu (fun _ _ hv => .ite hv (.listAdd hv))
  exact .same (.modStripe hs) (by with_reducible rfl)

theorem fresetRecs (h : s.regsWf) : s.fresetRecs.regsWf :=
  .each h fun _ _ hu => .modLun (.foldl hu (fun _ _ hv => .listAdd hv))

theorem fresetRelease (h : s.regsWf) : s.fresetRelease.regsWf := by
  unfold State.fresetRelease
  extract_lets _ s1
  have hs1 : s1.regsWf := .fresetRecs (.foldl (.fresetLeft h) (fun _ _ hu => .fresetStripe hu))
  exact .foldl (.same hs1 rfl) fun _ _ hu => .foldl hu (fun _ _ hv => .releaseBuf hv)

theorem fresetWrite (h : s.regsWf) : s.fresetWrite.regsWf :=
  .ite h (.ite (.ask (.modFreset h)) (.modFreset h))

theorem fresetWrote {ok : Bool} (h : s.regsWf) : (s.fresetWrote ok).regsWf :=
  .modFreset (.ite h (.put h))

theorem fresetPush (h : s.regsWf) : s.fresetPush.regsWf := by
  unfold State.fresetPush
  refine .ite h ?_
  extract_lets s _ _ s1
  have hs : s.regsWf := .ite (.foldl (.modFreset h) (fun _ _ hu => .ite hu (.writeBack hu))) h
  have hs1 : s1.regsWf := .ite (.modFreset (.put (.put (.fresetRelease hs)))) hs
  exact .ite (.fresetWrite hs1) hs1

theorem fresetFree (h : s.regsWf) : s.fresetFree.regsWf :=
  .put (.same h rfl)

theorem tallyReset {g : ℕ} (h : s.regsWf) : (s.tallyReset g).regsWf :=
  .modTally h

theorem unhold {ring : ℕ} (h : s.regsWf) : (s.unhold ring).regsWf :=
  .modRing h

theorem fresetEnd (h : s.regsWf) : s.fresetEnd.regsWf := by
  unfold State.fresetEnd
  refine .ite h ?_
  extract_lets _ _ _ s3 _ _ _ _ _ _ s8
  have hs3 : s3.regsWf := .each (.each (.each (.foldl h (fun _ _ hu => .untag hu)) (fun _ _ hu => .put (.put (.put hu))))
    (fun _ _ hu => .put (.put (.put hu)))) fun _ _ hu => .tallyReset hu
  have hs8 : s8.regsWf := .unhold (.unhold (.updTopRec (.updTopRec (.each (.same (.same hs3 (by with_reducible rfl))
    (by with_reducible rfl)) (fun _ _ hu => .updChanRec hu)))))
  exact .ite (.modFreset (.raise hs8)) (.fresetFree (.raise hs8))

end Sys2Proof.Machine.State.regsWf
end

section
/-! The Push port -/

namespace Sys2Proof.Machine.State.regsWf

variable {s : State}

theorem pushDiscard {reason addr : ℕ} {sq : Option ℕ} (h : s.regsWf) : (s.pushDiscard reason addr sq).regsWf := by
  unfold State.pushDiscard
  extract_lets s
  have hs : s.regsWf := by
    unfold s
    split
    · exact .bump h
    · exact h
  exact .raise hs

theorem doorbellBad {reason addr : ℕ} {sq : Option ℕ} {kind v : ℕ} (h : s.regsWf) :
    (s.doorbellBad reason addr sq kind v).regsWf := by
  unfold State.doorbellBad
  extract_lets s
  have hs : s.regsWf := by
    unfold s
    split
    · exact .bump h
    · exact h
  exact .raise hs

theorem sqDoorbell {addr q v : ℕ} (h : s.regsWf) : (s.sqDoorbell addr q v).regsWf :=
  .ite (.put h) (.doorbellBad h)

theorem cqDoorbell {addr c v : ℕ} (h : s.regsWf) : (s.cqDoorbell addr c v).regsWf :=
  .ite (.modCq (.put h)) (.doorbellBad h)

theorem evDoorbell {addr r v : ℕ} (h : s.regsWf) : (s.evDoorbell addr r v).regsWf :=
  .ite (.modRing (.put h)) (.doorbellBad h)

theorem takeInline {u : State} {b : Beat} {l : List Beat} (h : s.regsWf) (hu : u ∈ s.takeInline b l) :
    u.regsWf := by
  unfold State.takeInline at hu
  extract_lets a q bad at hu
  split at hu
  · exact .ofSome (.pushDiscard h) hu
  split at hu
  · exact .ofSome (.pushDiscard h) hu
  split at hu
  · exact .ofSome (.pushDiscard h) hu
  split at hu
  · simp at hu
  split at hu
  · exact .ofSome (.pushDiscard h) hu
  · exact .ofSome (.put (.modSq h)) hu

theorem takeDoorbells {reg : PushRegion} {b : Beat} {l : List Beat} (h : s.regsWf) : (s.takeDoorbells reg b l).regsWf := by
  unfold State.takeDoorbells
  refine .ite (.pushDiscard h) (.ite (.pushDiscard h) ?_)
  split
  · exact .pushDiscard h
  · split
    · split
      · exact .pushDiscard h
      · exact .each h fun _ _ hu => .sqDoorbell hu
    · exact .each h fun _ _ hu => .cqDoorbell hu
    · exact .each h fun _ _ hu => .evDoorbell hu

theorem takeWrite {u : State} {l : List Beat} (h : s.regsWf) (hu : u ∈ s.takeWrite l) : u.regsWf := by
  unfold State.takeWrite at hu
  split at hu
  · exact .ofSome h hu
  · split at hu
    · exact .takeInline h hu
    · exact .ofSome (.pushDiscard h) hu
    · exact .ofSome (.takeDoorbells h) hu

theorem pushOffer {u : State} {l : List Beat} (h : s.regsWf) (hu : u ∈ s.pushOffer l) : u.regsWf := by
  unfold State.pushOffer at hu
  split at hu
  · split at hu
    · simp at hu
    · exact .ofSome (.sawWork (.same (.ite (.fireSlot h) h) (by with_reducible rfl))) hu
  · obtain ⟨t, ht, rfl⟩ := Option.mem_map.1 hu
    exact .sawWork (.takeWrite h ht)

theorem pushPort {l : List Beat} (h : s.regsWf) : (s.pushPort l).regsWf := by
  unfold State.pushPort
  split
  · exact h
  · cases ho : s.pushOffer l with
    | none => exact .same h rfl
    | some u => exact .pushOffer h ho

theorem pushRetry (h : s.regsWf) : s.pushRetry.regsWf := by
  unfold State.pushRetry
  split
  · exact h
  · split
    · next ht => exact .same (pushOffer h ht) rfl
    · exact h

theorem drainShadow {n : ℕ} : ∀ {s : State}, s.regsWf → (State.drainShadow n s).regsWf := by
  induction n with
  | zero => exact fun h => h
  | succ n ih =>
    intro s h
    unfold State.drainShadow
    split
    · exact h
    · split
      · next ht => exact ih (.same (takeWrite h ht) rfl)
      · exact h

end Sys2Proof.Machine.State.regsWf
end

section
/-! Uncorrectable reads of the stores -/

namespace Sys2Proof.Machine.State.regsWf

variable {s : State}

theorem accBad {sid r : ℕ} {tag : Option ℕ} (h : s.regsWf) : (s.accBad sid r tag).regsWf := by
  unfold State.accBad
  refine .ite h ?_
  extract_lets s
  have hs : s.regsWf := .fault (.modStripe h)
  split
  · exact .evStripeDegraded hs
  · exact .modTag hs

theorem stripePoisoned {sid : ℕ} (h : s.regsWf) : (s.stripePoisoned sid).regsWf :=
  .foldl (.each (.foldl (.same h rfl) (fun _ _ hu => .releaseAcc hu)) (fun _ _ hu => .modLun hu)) fun _ _ hu => .later hu

theorem stripePoison {sid : ℕ} (h : s.regsWf) : (s.stripePoison sid).regsWf :=
  .ite h (.andThen (.evStripeDegraded (.recWait (.fault (.modStripe h)))) (fun _ hu => .stripePoisoned hu))

theorem cosBad {t : ℕ} (h : s.regsWf) : (s.cosBad t).regsWf :=
  .same h rfl

theorem lineBad {row : ℕ} (h : s.regsWf) : (s.lineBad row).regsWf :=
  .same h rfl

theorem storeRead {r : SramRead} {job : Option ℕ} (h : s.regsWf) : (s.storeRead r job).2.regsWf := by
  unfold State.storeRead
  refine .iteSnd ?_ ?_
  · extract_lets t
    split
    rename_i u heq
    have hu : u.regsWf := .ofSnd heq (.sramRead h)
    clear_value t
    split
    · exact .ite (.cosBad hu) hu
    · exact hu
  · split
    rename_i u heq
    have hu : u.regsWf := .ofSnd heq (.sramRead h)
    refine .iteSnd hu (.iteSnd ?_ (.iteSnd (.stripePoison hu) (.iteSnd (.lineBad hu) hu)))
    split
    · exact .accBad hu
    · exact hu

theorem dinReads {n : ℕ} {owner : Option ℕ} {l : List SramRead} :
    ∀ {s : State}, s.regsWf → (s.dinReads n owner l).2.regsWf := by
  induction l with
  | nil => exact fun h => h
  | cons r l ih => exact fun h => ih (.storeRead h)

theorem notConfirmed {n g : ℕ} (h : s.regsWf) : (s.notConfirmed n g).regsWf := by
  unfold State.notConfirmed
  split
  · exact h
  · exact .ite h (.ite (.routineEnd h) (.later (.dropPark h)))

theorem dinBurst {n : ℕ} {reads : List SramRead} (h : s.regsWf) : (s.dinBurst n reads).regsWf := by
  unfold State.dinBurst
  split
  · exact h
  · split
    rename_i u heq
    have hu : u.regsWf := .ofSnd heq (.dinReads h)
    exact .ite (.notConfirmed (.laneDin hu)) (.laneDin hu)

end Sys2Proof.Machine.State.regsWf
end

section
/-! The ends of transfers that serve no tag -/

namespace Sys2Proof.Machine.State.regsWf

variable {s : State}

theorem insFetched {q i : ℕ} {d : Desc} (h : s.regsWf) : (s.insFetched q i d).regsWf :=
  .modSq h

theorem fetchedData {q i n : ℕ} {data : Option (List Byte)} (h : s.regsWf) : (s.fetchedData q i n data).regsWf :=
  .ite h (.each (.modSq h) (fun _ _ hu => .insFetched hu))

theorem refetchedData {q i : ℕ} {data : Option (List Byte)} (h : s.regsWf) : (s.refetchedData q i data).regsWf :=
  .ite h (.ite (.modSq (.insFetched h)) (.insFetched h))

theorem cplDone {t : ℕ} (h : s.regsWf) : (s.cplDone t).regsWf :=
  .tryFree (.modTag (.recDone (.ite (.same h rfl) (.same h rfl))))

theorem cplUnhead {t : ℕ} (h : s.regsWf) : (s.cplUnhead t).regsWf :=
  .ite h (.put h)

theorem cplResponse {c : ℕ} {ok : Bool} (h : s.regsWf) : (s.cplResponse c ok).regsWf :=
  .ite h (.ite (.foldl (.modCq h) (fun _ _ hu => .cplDone hu)) (.modCq (.modCq (.foldl (.put h) (fun _ _ hu =>
    .cplUnhead hu)))))

theorem poolLineNext (h : s.regsWf) : s.poolLineNext.regsWf := by
  unfold State.poolLineNext
  refine .ite h ?_
  split
  · exact h
  · exact .ask (.same h rfl)

theorem poolLineDrop {tag line : ℕ} (h : s.regsWf) : (s.poolLineDrop tag line).regsWf :=
  .ite (.same h rfl) (.freeUse (.same h rfl))

theorem poolLineMoved {tag line : ℕ} {data : Option (List Byte)} {ok : Bool} (h : s.regsWf) :
    (s.poolLineMoved tag line data ok).regsWf := by
  unfold State.poolLineMoved
  refine .ite (.poolLineNext (.syncLine (.poolLineDrop h))) ?_
  extract_lets
  split
  · exact .ask (.bump (.same h rfl))
  · exact .poolLineNext (.same h rfl)

theorem lineWritten {line mask : ℕ} (h : s.regsWf) : (s.lineWritten line mask).regsWf := by
  unfold State.lineWritten
  extract_lets _ s
  have hs : s.regsWf := by
    unfold s
    split
    · exact .poolLineDrop h
    · split
      · exact .same h rfl
      · exact .modLine h
  exact .poolLineNext (.syncLine (.ite (.writeBack hs) hs))

theorem fillLanded {line : ℕ} {data : Option (List Byte)} (h : s.regsWf) : (s.fillLanded line data).regsWf := by
  unfold State.fillLanded
  split
  · exact .same h rfl
  · exact .foldl (.same h rfl) fun _ _ hu => .fillEnds hu

theorem spillBad {sid r : ℕ} {tag : Option ℕ} (h : s.regsWf) : (s.spillBad sid r tag).regsWf :=
  .accBad (.ite (.sleepAbandon h) h)

theorem softLost {id cw : ℕ} (h : s.regsWf) : (s.softLost id cw).regsWf := by
  unfold State.softLost
  split
  · exact h
  · exact .ite h (.ite (.modRead h) (.softFail h))

theorem recordLost {g e q : ℕ} (h : s.regsWf) : (s.recordLost g e q).regsWf :=
  .same h rfl

theorem dmaError {r : Spool} {err : ℕ} {w : Option Holder} (h : s.regsWf) : (s.dmaError r err w).regsWf :=
  .dmaErrorEvent h

theorem subRecordLost {j : ℕ} (h : s.regsWf) : (s.subRecordLost j).regsWf := by
  unfold State.subRecordLost
  split
  · exact .ite (.subNoSpare h) h
  · exact h

theorem recPiece {g e q k : ℕ} {data : Option (List Byte)} (h : s.regsWf) : (s.recPiece g e q k data).regsWf := by
  unfold State.recPiece
  extract_lets
  split
  · exact .ite (.recRead (.modRec h)) (.modRec h)
  · exact .modRec h

theorem workLost {c : Cont} (h : s.regsWf) : (s.workLost c).regsWf := by
  unfold State.workLost
  split
  · exact .cplResponse h
  · exact .fetchedData h
  · exact .refetchedData h
  · exact .fillLanded h
  · exact .lineWritten h
  · exact .poolLineMoved h
  · exact .spillBad h
  · exact .softLost h
  · exact .racBad h
  · exact .recordLost h
  · exact .ite (.fresetWrote h) h
  · exact .recPiece h
  · exact .recPiece h
  · exact .subRecordLost h
  · exact .subRecordLost h
  · exact h

theorem transferLost {r : Spool} {err : ℕ} (h : s.regsWf) : (s.transferLost r err).regsWf :=
  .ite (.dmaErrorEvent h) (.workLost (.dmaErrorEvent h))

end Sys2Proof.Machine.State.regsWf
end

section
/-! What every command ends with -/

namespace Sys2Proof.Machine.State.regsWf

variable {s : State}

theorem granted {u : PoolUse} (h : s.regsWf) : (s.granted u).regsWf := by
  unfold State.granted
  refine .ite (.freeUse h) ?_
  split
  · split
    · exact .ite (.freeUse h) (.softGo h)
    · exact .freeUse h
  · split
    · exact .ite (.racReady (.modRac h)) (.racGranted h)
    · exact .freeUse h
  · exact .ite h (.freeUse h)
  · exact .spillGranted h
  · exact .recordGranted h

theorem doTodo {t : Todo} (h : s.regsWf) : (s.doTodo t).regsWf := by
  unfold State.doTodo
  split
  · exact .ite h (.onInserted h)
  · exact .fenceWork h
  · exact .chanFenceWork h
  · exact .pllOff (.quadFenceWork h)
  · exact .spareRow h
  · exact .endTag h
  · exact .ite h (.stripePoisoned h)
  · exact .ite h (.stopEnds h)
  · exact .ite h (.passOver h)
  · exact .ite h (.haltOver h)
  · exact .lostOver h
  · exact .subDone h
  · extract_lets
    split
    · exact .tryFree (.unholdWork h)
    · exact .ite (.fresetFree (.unholdWork h)) (.unholdWork h)
    · exact .workLost (.unholdWork h)
    · exact .unholdWork h
  · exact .readDone h
  · exact .racEnd h
  · exact .racPush h
  · exact .step4 h
  · exact .granted h
  · exact .tagPush h
  · exact .ite h (.eraseGo h)
  · exact .ite h (.eraseOver h)
  · exact .ite h (.intentBad h)
  · exact .subSourced h
  · exact .scanSend h
  · exact .ite (.fresetOpEnd h) (.opEnd h)

theorem doTodos {n : ℕ} : ∀ {s : State}, s.regsWf → (State.doTodos n s).regsWf := by
  induction n with
  | zero => exact fun h => h
  | succ n ih =>
    intro s h
    unfold State.doTodos
    split
    · exact h
    · exact ih (.doTodo (.same h rfl))

theorem fillsLand (h : s.regsWf) : s.fillsLand.regsWf := by
  refine .foldl h fun _ _ hu => ?_
  split
  extract_lets ids tags
  split
  rename_i v heq
  have hv : v.regsWf := .ofSnd heq (.rlhInstall hu)
  exact .ite hv (.foldl (.rlhUpdates (.same hv rfl)) (fun _ _ hw => .fillEnds hw))

theorem fillsAsk (h : s.regsWf) : s.fillsAsk.regsWf :=
  .foldl h fun _ _ hu => .ite hu (.askFill hu)

theorem subsPush (h : s.regsWf) : s.subsPush.regsWf :=
  .foldl h fun _ _ hu => .ite (.subStart hu) (.ite (.subFinish hu) hu)

theorem accsPush (h : s.regsWf) : s.accsPush.regsWf := by
  refine .foldl h fun _ _ hu => ?_
  split
  · exact .ite (.needAcc hu) hu
  · exact hu

theorem lunsPush (h : s.regsWf) : s.lunsPush.regsWf := by
  unfold State.lunsPush
  refine .ite h (.foldl h ?_)
  intro _ _ hu
  split
  · extract_lets _ s
    have hs : s.regsWf := .ite hu (.tallyGo hu)
    exact .ite hs (.passPush (.stopPads hs))

theorem stripeRec (h : s.regsWf) : s.stripeRec.regsWf :=
  .recDone h

theorem tellLate (h : s.regsWf) : s.tellLate.regsWf :=
  .foldl (.same h rfl) fun _ _ hu => .raise hu

theorem house (h : s.regsWf) : s.house.regsWf := by
  unfold State.house
  refine .ite h ?_
  extract_lets _ _ s2
  have hs2 : s2.regsWf := .each (.each (.pushRetry (.fillsAsk (.fillsLand (.sweepDead (.retryParked (.tellLate h))))))
    (fun _ _ hu => .zqBegin hu)) fun _ _ hu => .zqLook hu
  exact .stripeRec (.fresetPush (.holdPush (.wakeDone (.updPairs (.updPar (.each (.lunsPush (.ite hs2
    (.accsPush (.subsPush (.foldl hs2 (fun _ _ hu => .tagPush hu)))))) (fun _ _ hu => .quadPolicy hu)))))))

theorem setIrqs (h : s.regsWf) : s.setIrqs.regsWf :=
  .same h rfl

theorem settleLoop {n : ℕ} : ∀ {s : State}, s.regsWf → (State.settleLoop n s).regsWf := by
  induction n with
  | zero => exact fun h => h
  | succ n ih => exact fun h => .ite (.house (.doTodos h)) (ih (.house (.doTodos h)))

theorem spoolSort (h : s.regsWf) : s.spoolSort.regsWf :=
  .same h rfl

theorem settle (h : s.regsWf) : s.settle.regsWf :=
  .setIrqs (.snapAll (.spoolSort (.settleLoop (.house (.doTodos h)))))

end Sys2Proof.Machine.State.regsWf
end

section
/-! Reset, start-up, clocks and wake -/

namespace Sys2Proof.Machine.State.regsWf

variable {s : State}

theorem resetAssert : s.resetAssert.regsWf :=
  .same reset rfl

theorem testPower (h : s.regsWf) : s.testPower.regsWf :=
  .ite (.allSafe (.each h (fun _ _ hu => .ite hu (.setReq hu)))) h

theorem resetDeassert (h : s.regsWf) : s.resetDeassert.regsWf :=
  .ite h (.ite (.testPower (.same h rfl)) (.put (.same h rfl)))

theorem trimBad {ctx : ℕ} (h : s.regsWf) : (s.trimBad ctx).regsWf :=
  .fatal (.put (.capture (.same h rfl)))

theorem trimApply (h : s.regsWf) : s.trimApply.regsWf := by
  unfold State.trimApply
  extract_lets s
  have hs : s.regsWf := by
    unfold s
    refine .foldl h fun _ _ hu => ?_
    split
    · extract_lets _ src
      have hsrc : src.regsWf := .put hu
      exact .same hsrc rfl
  exact .each hs fun _ _ hu => .put hu

theorem fuseWord {data : Word32} (h : s.regsWf) : (s.fuseWord data).regsWf := by
  unfold State.fuseWord
  refine .ite h ?_
  extract_lets
  refine .ite (.same h rfl) ?_
  extract_lets
  split
  · exact .trimBad (.same h rfl)
  · exact .trimApply (.same h rfl)

theorem powerAll (h : s.regsWf) : s.powerAll.regsWf :=
  .same h rfl

theorem powerMore (h : s.regsWf) : s.powerMore.regsWf :=
  .ite (.powerAll h) h

theorem startPhy {r : StartupReport} (h : s.regsWf) : (s.startPhy r).regsWf :=
  .each (.foldl h (fun _ _ hu => .ite (.calCodes (.pllLock hu)) hu)) fun _ _ hu => .put hu

theorem checkBanks {r : StartupReport} (h : s.regsWf) : (s.checkBanks r).regsWf := by
  refine .foldl h fun _ _ hu => ?_
  split
  · split
    · exact .evSramUe (.fenceChan (.capture hu))
    · exact .fatal (.capture hu)

theorem checkSlices {r : StartupReport} (h : s.regsWf) : (s.checkSlices r).regsWf := by
  unfold State.checkSlices
  extract_lets _ _ _ _ _ s2
  have hs2 : s2.regsWf := .each (.each (.foldl h (fun _ _ hu => .evSlice (.capture hu))) (fun _ _ hu => .modSlice hu))
    fun _ _ hu => .modSlice hu
  exact .ite (.fatal (.capture hs2)) hs2

theorem checkChanters {r : StartupReport} (h : s.regsWf) : (s.checkChanters r).regsWf := by
  unfold State.checkChanters
  extract_lets
  split
  rename_i u heq
  have hu : u.regsWf := .ofSnd heq (.iteSnd (.draw h) h)
  extract_lets s
  have hs : s.regsWf := .setReg (.put hu)
  exact .foldl (.same hs rfl) fun _ _ hv => .ite (.declareChanter hv) hv

theorem startEnd (h : s.regsWf) : s.startEnd.regsWf := by
  unfold State.startEnd
  extract_lets +onlyGivenNames _ s
  have hs : s.regsWf := .put (.same h rfl)
  refine .ite (.put hs) ?_
  extract_lets +onlyGivenNames s s1 s2
  have hs : s.regsWf := .put (.put hs)
  have hs1 : s1.regsWf := .ite (.evSpareExhausted hs) hs
  have hs2 : s2.regsWf := .ite hs1 (.evSpareExhausted hs1)
  exact .ite hs2 (.release hs2)

theorem startStep {r : StartupReport} (h : s.regsWf) : (s.startStep r).regsWf := by
  unfold State.startStep
  refine .ite h ?_
  split
  · exact .put h
  · exact .put (.same h rfl)
  · exact .ite (.put (.powerAll h)) h
  · exact .ite (.put h) h
  · exact .put (.startPhy h)
  · exact .put (.same h rfl)
  · exact .put (.checkBanks h)
  · exact .put (.checkSlices h)
  · exact .startEnd (.put (.checkChanters h))
  · exact h

theorem cclkRise (h : s.regsWf) : s.cclkRise.regsWf :=
  .ite (.same h rfl) h

theorem cclkFall (h : s.regsWf) : s.cclkFall.regsWf :=
  .ite (.same h rfl) h

theorem ackLate {i excess : ℕ} (h : s.regsWf) : (s.ackLate i excess).regsWf := by
  unfold State.ackLate
  refine .ite h ?_
  extract_lets _ _ s1
  have hs1 : s1.regsWf := .capture (.bump (.same h rfl))
  exact .ite (.raise hs1) (.same hs1 rfl)

theorem wakeFall (h : s.regsWf) : s.wakeFall.regsWf :=
  .ite (.bump (.same h rfl)) (.fireSlot (.same h rfl))

theorem wakeWindow (h : s.regsWf) : s.wakeWindow.regsWf := by
  unfold State.wakeWindow
  split
  · exact h
  · exact .ite (.put (.same h rfl)) (.ite (.raise (.put (.put (.same h rfl)))) (.put (.same h rfl)))

end Sys2Proof.Machine.State.regsWf
end

section
/-! The setup port -/

namespace Sys2Proof.Machine.State.regsWf

variable {s : State}

theorem respond {data : Word32} {err : Bool} (h : s.regsWf) : (s.respond data err).regsWf :=
  .same h rfl

theorem portTake {a : ℕ} (h : s.regsWf) : (s.portTake a).regsWf :=
  .ite (.keepCredit (.respond h)) (.respond h)

theorem storeReg {a : ℕ} {w : Word32} (h : s.regsWf) : (s.storeReg a w).regsWf := by
  unfold State.storeReg
  split
  · exact .portTake h
  · exact .setReg (.portTake h)

theorem setPending {f : PatBank → PatBank} (h : s.regsWf) : (s.setPending f).regsWf :=
  .setPatBank h

theorem patWrite {f : State → State} (h : s.regsWf) (hf : ∀ u, u.regsWf → (f u).regsWf) : (s.patWrite f).regsWf :=
  .ite (hf _ h) (.put h)

theorem patInject (h : s.regsWf) : s.patInject.2.regsWf :=
  .put h

theorem rowCommit {j : ℕ} {w : Word32} (h : s.regsWf) : (s.rowCommit j w).regsWf :=
  .patWrite h fun _ hu => .setPending (.patInject hu)

theorem nanoCommit {i : ℕ} {w : Word32} (h : s.regsWf) : (s.nanoCommit i w).regsWf :=
  .patWrite h fun _ hu => .setPending (.patInject hu)

theorem patClear (h : s.regsWf) : s.patClear.regsWf :=
  .patWrite h fun _ hu => .setPending hu

/-- The result under a name of its own: the kernel would evaluate the offset of a register in a condition to compare `f s` with
  its value. -/
theorem patWriteOf {f : State → State} (h : s.regsWf) (hf : ∀ t, f s = t → t.regsWf) :
    (s.patWrite f).regsWf :=
  .ite (hf _ rfl) (.put h)

theorem patReg {a : ℕ} {w : Word32} (h : s.regsWf) : (s.patReg a w).regsWf := by
  unfold State.patReg
  split
  · refine .patWriteOf h fun t ht => ?_
    split at ht
    · exact ht ▸ .setPending h
    · exact ht ▸ .put h
  split
  · exact .patWrite h fun _ hu => .setPending hu
  split
  · exact .patWrite h fun _ hu => .setPending hu
  split
  · exact .ite (.patWrite h fun _ hu => .setPending hu) (.rowCommit h)
  split
  · exact .ite (.patWrite h fun _ hu => .setPending hu) (.nanoCommit h)
  · exact h

theorem timeLoRead (h : s.regsWf) : s.timeLoRead.regsWf :=
  .respond (.setReg h)

end Sys2Proof.Machine.State.regsWf
end

section
/-! The actions of setup writes -/

namespace Sys2Proof.Machine.State.regsWf

variable {s : State}

theorem sqEnable {q : ℕ} {w : Word32} (h : s.regsWf) : (s.sqEnable q w).regsWf :=
  .ite h (.ite (.put h) (.put (.put (.put (.put h)))))

theorem cqEnable {c : ℕ} {w : Word32} (h : s.regsWf) : (s.cqEnable c w).regsWf :=
  .ite h (.ite (.put h) (.put (.put (.put (.put h)))))

theorem evDisable {r : ℕ} (h : s.regsWf) : (s.evDisable r).regsWf :=
  .ite h (.ite (.put h) (.modRing h))

theorem evEnable {r : ℕ} {w : Word32} (h : s.regsWf) : (s.evEnable r w).regsWf :=
  .ite (.evDisable h) (.ite h (.ite (.put h) (.put (.put (.put (.put h))))))

theorem validateStart (h : s.regsWf) : s.validateStart.regsWf := by
  unfold State.validateStart
  refine .ite h (.ite (.put (.put h)) ?_)
  extract_lets src
  have hsrc : src.regsWf := .put h
  exact .same hsrc rfl

theorem validateDone (h : s.regsWf) : s.validateDone.regsWf := by
  unfold State.validateDone
  split
  · exact h
  · extract_lets s
    have hs : s.regsWf := .put (.same h rfl)
    split
    · exact .put (.put hs)
    · exact .each (.put (.put (.put (.put (.same hs rfl))))) fun _ _ hu => .updateHold hu

theorem stripeSel (h : s.regsWf) : s.stripeSel.regsWf :=
  .each h fun _ _ hu => .setReg hu

theorem validClear {a : ℕ} {w : Word32} (h : s.regsWf) : (s.validClear a w).regsWf :=
  .ite h (.put (.put h))

theorem fatalClear {w persist : Word32} (h : s.regsWf) : (s.fatalClear w persist).regsWf := by
  unfold State.fatalClear
  extract_lets _ _ s
  have hs : s.regsWf := .setReg h
  exact .ite (.same hs rfl) hs

theorem repairGo {w : Word32} (h : s.regsWf) : (s.repairGo w).regsWf :=
  .ite (.spareRow h) h

theorem testread {errs : ℕ} (h : s.regsWf) : (s.testread errs).regsWf := by
  unfold State.testread
  refine .ite h ?_
  extract_lets +onlyGivenNames _ s
  have hs : s.regsWf := .put (.put (.put h))
  refine .ite hs (.ite (.bump hs) ?_)
  extract_lets +onlyGivenNames s
  have hs : s.regsWf := .ite hs (.fault hs)
  exact .ite (.evSramUe hs) (.evTopSramUe hs)

theorem balInject {w : Word32} {errs : ℕ} (h : s.regsWf) : (s.balInject w errs).regsWf := by
  unfold State.balInject
  extract_lets s
  have hs : s.regsWf := .ite (.put h) h
  exact .ite (.testread hs) hs

theorem blwInject {w : Word32} (h : s.regsWf) : (s.blwInject w).regsWf :=
  .ite (.same h rfl) h

theorem lunFenceWrite {n : ℕ} {w : Word32} (h : s.regsWf) : (s.lunFenceWrite n w).regsWf := by
  refine .foldl h fun _ _ hu => ?_
  refine .ite hu ?_
  split
  · exact .fault (.fenceLun hu)
  · exact .fenceLun hu

theorem lunUnfenceWrite {n : ℕ} {w : Word32} (h : s.regsWf) : (s.lunUnfenceWrite n w).regsWf :=
  .foldl h fun _ _ hu => .ite hu (.pollAgain (.modLun hu))

theorem chanFenceWrite {n : ℕ} {w : Word32} (h : s.regsWf) : (s.chanFenceWrite n w).regsWf := by
  unfold State.chanFenceWrite
  refine .ite h ?_
  split
  · exact .fault (.fenceChan h)
  · exact .fenceChan h

theorem chanUnfenceWrite {n : ℕ} {w : Word32} (h : s.regsWf) : (s.chanUnfenceWrite n w).regsWf :=
  .ite h (.foldl (.put h) (fun _ _ hu => .pollAgain hu))

theorem quadFenceWrite {q : ℕ} {w : Word32} (h : s.regsWf) : (s.quadFenceWrite q w).regsWf := by
  unfold State.quadFenceWrite
  refine .ite h ?_
  split
  · exact .fault (.fenceQuad h)
  · exact .fenceQuad h

theorem quadUnfenceWrite {q : ℕ} {w : Word32} (h : s.regsWf) : (s.quadUnfenceWrite q w).regsWf :=
  .ite h (.foldl (.put h) (fun _ _ hu => .pollAgain hu))

theorem declareWrite {q : ℕ} {w : Word32} (h : s.regsWf) : (s.declareWrite q w).regsWf := by
  unfold State.declareWrite
  split
  · exact .ite (.declareChanter h) h
  · exact h

theorem zqStart {q : ℕ} {w : Word32} (h : s.regsWf) : (s.zqStart q w).regsWf :=
  .ite (.modQuad (.put h)) h

theorem stuckClear {n : ℕ} {w : Word32} (h : s.regsWf) : (s.stuckClear n w).regsWf :=
  .foldl h fun _ _ hu => .modChan hu

theorem blwClear {w : Word32} (h : s.regsWf) : (s.blwClear w).regsWf :=
  .ite (.foldl h (fun _ _ hu => .setReg hu)) h

theorem rlhcClear {w : Word32} (h : s.regsWf) : (s.rlhcClear w).regsWf :=
  .ite (.foldl h (fun _ _ hu => .setReg hu)) h

theorem pwrCtrl {w : Word32} (h : s.regsWf) : (s.pwrCtrl w).regsWf :=
  .ite (.sleepStart h) (.ite (.wakeWrite h) h)

theorem timerWrite (h : s.regsWf) : s.timerWrite.regsWf :=
  .ite (.fireSlot h) h

theorem unmask {w : Word32} (h : s.regsWf) : (s.unmask w).regsWf :=
  .ite (.put h) h

theorem qpolWrite {q : ℕ} {w : Word32} (h : s.regsWf) : (s.qpolWrite q w).regsWf :=
  .ite (.quadActive (.quadWake h)) h

theorem regActs {a : ℕ} {w : Word32} (h : s.regsWf) : (s.regActs a w).regsWf := by
  unfold State.regActs
  refine .ite (.ite (.fresetStart h) h) (.ite (.pwrCtrl h) (.ite (.ite (.latchClear h) h) (.ite (.unmask h) (.ite (.qpolWrite h)
    (.ite (.timerWrite h) (.ite (.evEnable h) (.ite (.evEnable h) (.ite (.sqEnable h) (.ite (.cqEnable h) (.ite (.badRanges h)
    (.ite (.giveCredit h) (.ite (.ite (.validateStart h) h) (.ite (.updateHold h) (.ite (.stripeSel h) (.ite (.fatalClear h)
    (.ite (.ite (.fatal h) h) (.ite (.repairGo h) (.ite (.balInject h) (.ite (.validClear h) (.ite (.ite (.applyStart h) h)
    (.ite (.zqStart h) (.ite (.declareWrite (.quadUnfenceWrite (.quadFenceWrite h))) (.ite (.ite (.trainStart h) h)
    (.ite (.stuckClear h) (.ite (.lunFenceWrite h) (.ite (.lunUnfenceWrite h) (.ite (.chanUnfenceWrite (.chanFenceWrite h))
    (.ite (.blwClear h) (.ite (.blwInject h) (.ite (.rlhcClear h) (.ite ?_ (.ite (.patReg h) h))))))))))))))))))))))))))))))))
  extract_lets s
  have hs : s.regsWf := .ite (.patClear h) h
  exact .ite (.patActivate hs) hs

theorem writeWith {a : ℕ} {w : Word32} {act : State → State} (h : s.regsWf) (hact : ∀ u, u.regsWf → (act u).regsWf) :
    (s.writeWith a w act).regsWf :=
  .ite (hact _ (.storeReg h)) (.respond h)

theorem setupWrite {a : ℕ} {w : Word32} (h : s.regsWf) : (s.setupWrite a w).regsWf :=
  .writeWith h fun _ hu => .regActs hu

end Sys2Proof.Machine.State.regsWf
end

section
/-! The commands of the flash interface and of power -/

namespace Sys2Proof.Machine.State.regsWf

variable {s : State}

theorem burstCut {n : ℕ} (h : s.regsWf) : (s.burstCut n).regsWf := by
  unfold State.burstCut
  refine .ite h ?_
  split
  · exact .ite (.updChanRec (.modChan h)) (.ite (.runAgain h) h)
  · exact h

theorem pllGone {q : Fin 8} (h : s.regsWf) : (s.pllGone q).regsWf :=
  .ite (.each (.pllLost h) (fun _ _ hu => .burstCut hu)) (.pllLost h)

theorem applyLate {q : ℕ} (h : s.regsWf) : (s.applyLate q).regsWf :=
  .ite (.applyDead h) h

theorem pllsLocked {q : ℕ} (h : s.regsWf) : (s.pllsLocked q).regsWf :=
  .ite (.modQuad (.put (.pllLock h))) (.ite (.pllLock h) h)

theorem longCal {q : ℕ} {r : CalReport} (h : s.regsWf) : (s.longCal q r).regsWf :=
  .ite (.ite (.applyDead (.calCodes h)) (.applyTrain (.each (.modQuad (.calCodes h)) (fun _ _ hu => .leaveSafe (.modChan hu)))))
    (.ite (.ite (.calCodes h) (.foldl (.calCodes h) (fun _ _ hu => .leaveSafe hu))) h)

theorem applyHold {q : ℕ} (h : s.regsWf) : (s.applyHold q).regsWf :=
  .ite (.applyTrain (.modQuad h)) h

theorem shortPeriod {q : ℕ} {r : CalReport} (h : s.regsWf) : (s.shortPeriod q r).regsWf :=
  .ite (.shortCal h) h

theorem trainStop {n : ℕ} (h : s.regsWf) : (s.trainStop n).regsWf :=
  .modChan (.ite (.freeCtx h) h)

theorem trainEnd {n : ℕ} {r : TrainReport} (h : s.regsWf) : (s.trainEnd n r).regsWf :=
  .ite h (.trainDone (.trainStop h))

theorem track' {n t : ℕ} (h : s.regsWf) : (s.track' n t).regsWf :=
  .ite (.startRoutine (.modChan h)) h

theorem rbEdge {n t : ℕ} (h : s.regsWf) : (s.rbEdge n t).regsWf := by
  unfold State.rbEdge
  extract_lets _ s
  have hs : s.regsWf := .put (.put h)
  exact .ite (.each (.modChan hs) (fun _ _ hu => .wakePark hu)) (.modChan hs)

theorem rbWindow {n : Fin 32} {t : ℕ} (h : s.regsWf) : (s.rbWindow n t).regsWf :=
  .ite (.rbFault (.modChan h)) (.modChan h)

theorem fatalCause {b : ℕ} {ctx : Word32} (h : s.regsWf) : (s.fatalCause b ctx).regsWf := by
  unfold State.fatalCause
  split
  · exact .fatal (.capture h)
  · exact .fatal h
  · exact .sramRead h
  · exact .fatal (.capture h)
  · exact .ite (.fatal (.capture h)) (.capture h)
  · exact .fatal (.capture h)
  · exact .fatal h
  · exact h

theorem patSwitch {k : ℕ} (h : s.regsWf) : (s.patSwitch k).regsWf :=
  .ite (.bankSwitch h) h

end Sys2Proof.Machine.State.regsWf
end

section
/-! The commands of Chanter -/

namespace Sys2Proof.Machine.State.regsWf

variable {s : State}

theorem trapWord {n : ℕ} {err : FetchErr} (h : s.regsWf) : (s.trapWord n err).regsWf := by
  unfold State.trapWord
  refine .ite h ?_
  extract_lets
  split
  · exact .chanterFault (.takeTurn h)
  · exact h

theorem onCtx {n : ℕ} {f : Ctx → Ctx} (h : s.regsWf) : (s.onCtx n f).regsWf :=
  .ite h (.modCtx h)

end Sys2Proof.Machine.State.regsWf
end

section
/-! Time limits -/

namespace Sys2Proof.Machine.State.regsWf

variable {s : State}

theorem limit {g : ℕ} (h : s.regsWf) : (s.limit g).regsWf :=
  .ite h (.ite (.modLun (.limitEvent h)) (.hangReset (.limitEvent h)))

theorem resetLate {g : ℕ} (h : s.regsWf) : (s.resetLate g).regsWf := by
  unfold State.resetLate
  refine .ite h ?_
  extract_lets _ s
  have hs : s.regsWf := .ite (.freeCtx h) h
  exact .resetOver (.dropOps (.ite (.dropPark hs) hs))

theorem suspLate {g : ℕ} (h : s.regsWf) : (s.suspLate g).regsWf :=
  .ite (.limit h) h

theorem rawLate {g : ℕ} (h : s.regsWf) : (s.rawLate g).regsWf := by
  unfold State.rawLate
  extract_lets
  split
  · exact h
  · exact .ite h (.ite (.routineEnd h) (.routed (.dropPark h)))

theorem holdMax {g : ℕ} (h : s.regsWf) : (s.holdMax g).regsWf :=
  .ite (.resumeOp (.modLun h)) h

theorem deadline {t : ℕ} (h : s.regsWf) : (s.deadline t).regsWf :=
  .ite h (.goAround (.modTag h))

theorem periodEnd (h : s.regsWf) : s.periodEnd.regsWf :=
  .each (.each h (fun _ _ hu => .modChan hu)) fun _ _ hu => .keepCredit (.modQuad hu)

theorem missWait {t : ℕ} (h : s.regsWf) : (s.missWait t).regsWf :=
  .foldl h fun _ _ hu => .fillEnds hu

theorem padWait {g : ℕ} (h : s.regsWf) : (s.padWait g).regsWf :=
  .foldl h fun _ _ hu => .ite hu (.padBlock hu)

end Sys2Proof.Machine.State.regsWf
end

section
/-! Decode jobs -/

namespace Sys2Proof.Machine.State.regsWf

variable {s : State}

theorem jobStart {sl : ℕ} (h : s.regsWf) : (s.jobStart sl).regsWf := by
  unfold State.jobStart
  refine .ite h ?_
  split
  · exact h
  · exact .modSlice (.same h rfl)

theorem requeue {j : Job} (h : s.regsWf) : (s.requeue j).regsWf :=
  .ite h (.addJob h)

theorem sliceFault {sl : Fin 18} {code : ℕ} {ctx : Job → ℕ} (h : s.regsWf) : (s.sliceFault sl code ctx).regsWf := by
  unfold State.sliceFault
  split
  · exact h
  · exact .requeue (.sliceLost h)

theorem jobGood {j : Job} {word : List Byte} (h : s.regsWf) : (s.jobGood j word).regsWf := by
  unfold State.jobGood
  extract_lets
  split
  · exact .cwGood (.bump h)
  · exact .racGood (.bump h)

theorem jobBad {j : Job} {weight : ℕ} {miscorr : Bool} (h : s.regsWf) : (s.jobBad j weight miscorr).regsWf := by
  unfold State.jobBad
  extract_lets _ s1
  have hs1 : s1.regsWf := .ite (.bump (.bump h)) (.bump h)
  split
  · exact .jobFailed hs1
  · exact .racBad hs1

theorem jobPoisoned {j : Job} {detail : ℕ} (h : s.regsWf) : (s.jobPoisoned j detail).regsWf := by
  unfold State.jobPoisoned
  split
  · exact .readGo (.recountJobs (.cwEnd (.recountJobs (.bump h))))
  · exact .racBad (.bump h)

theorem jobStores {j : Job} {l : List SramRead} : ∀ {s : State}, s.regsWf → (s.jobStores j l).2.regsWf := by
  induction l with
  | nil => exact fun h => h
  | cons r l ih => exact fun h => ih (.storeRead h)

theorem jobDone {sl : Fin 18} {rep : DecodeReport} (h : s.regsWf) : (s.jobDone sl rep).regsWf := by
  unfold State.jobDone
  split
  · exact h
  · extract_lets
    refine .ite h (.ite (.sliceFault (.same h rfl)) (.ite (.sliceFault h) (.ite h ?_)))
    extract_lets
    split
    rename_i u heq
    have hu : u.regsWf := .ofSnd heq (.jobStores (.modSlice h))
    refine .ite hu ?_
    split
    · exact .jobPoisoned hu
    · exact .ite (.jobGood hu) (.jobBad hu)

end Sys2Proof.Machine.State.regsWf
end

section
/-! Submission -/

namespace Sys2Proof.Machine.State.regsWf

variable {s : State}

theorem shadowDrain (h : s.regsWf) : s.shadowDrain.regsWf :=
  .ite h (.pushRetry (.drainShadow h))

theorem ringFetch {q : ℕ} (h : s.regsWf) : (s.ringFetch q).regsWf :=
  .ite h (.ask (.modSq h))

theorem newTag {t q : ℕ} {d : Desc} (h : s.regsWf) : (s.newTag t q d).regsWf :=
  .modTag (.newSeq h)

theorem headNext {q : ℕ} (h : s.regsWf) : (s.headNext q).regsWf :=
  .put (.modSq h)

theorem staleEnd {q t : ℕ} (h : s.regsWf) : (s.staleEnd q t).regsWf :=
  .cosInsert (.bump (.modSq (.headNext (.newTag h))))

theorem staleNext {q t : ℕ} (h : s.regsWf) : (s.staleNext q t).regsWf := by
  unfold State.staleNext
  split
  · exact h
  · exact .ite h (.ite (.ask (.modSq h)) (.ite h (.staleEnd h)))

end Sys2Proof.Machine.State.regsWf
end

section
/-! Intake -/

namespace Sys2Proof.Machine.State.regsWf

variable {s : State}

theorem takeOn {t : ℕ} (h : s.regsWf) : (s.takeOn t).regsWf := by
  unfold State.takeOn
  extract_lets _ _ _ s1 s2
  have hs1 : s1.regsWf := .ite (.modStripe (.modTag h)) (.modTag h)
  have hs2 : s2.regsWf := by
    unfold s2
    refine .ite ?_ hs1
    split
    rename_i u heq
    have hu : u.regsWf := .ofSnd heq (.takeSlot hs1)
    exact .modTag hu
  exact .ite (.abortIntake hs2) (.ite (.modTag hs2) (.startTag hs2))

theorem takeIn {q t : ℕ} {d : Desc} (h : s.regsWf) : (s.takeIn q t d).regsWf := by
  unfold State.takeIn
  extract_lets s s1
  have hs : s.regsWf := .ite (.modSq h) (.headNext h)
  have hs1 : s1.regsWf := .newTag (.same hs rfl)
  split
  · exact .complete hs1
  · exact .takeOn hs1

theorem intake {op q t : ℕ} (h : s.regsWf) : (s.intake op q t).regsWf := by
  unfold State.intake
  refine .ite h ?_
  split
  · exact h
  · exact .ite (.takeIn h) h

end Sys2Proof.Machine.State.regsWf
end

section
/-! Completions and event records -/

namespace Sys2Proof.Machine.State.regsWf

variable {s : State}

theorem modCos {t : ℕ} {f : Cpl → Cpl} (h : s.regsWf) : (s.modCos t f).regsWf :=
  .same h rfl

theorem cplHead {t : ℕ} (h : s.regsWf) : (s.cplHead t).regsWf :=
  .ite h (.ite (.modCos (.put h)) (.modCos h))

theorem cplLate {t : ℕ} (h : s.regsWf) : (s.cplLate t).regsWf := by
  unfold State.cplLate
  extract_lets
  split
  · exact .ite (.modCos h) h
  · exact h

theorem descDone {t : ℕ} (h : s.regsWf) : (s.descDone t).regsWf :=
  .ite (.raise h) h

theorem cplSend {c : ℕ} {ts : List ℕ} (h : s.regsWf) : (s.cplSend c ts).regsWf := by
  unfold State.cplSend
  extract_lets _ _ _ s
  have hs : s.regsWf := .modCq (.put h)
  exact .ite (.raise (.modCq (.ask hs))) (.ask hs)

theorem cplWrite {c : ℕ} (h : s.regsWf) : (s.cplWrite c).regsWf := by
  unfold State.cplWrite
  extract_lets
  refine .ite h (.ite (.cplSend (.foldl h (fun _ _ hu => .cplHead hu))) ?_)
  extract_lets
  split
  · exact h
  · exact .foldl (.cplSend (.foldl (.modCq h) (fun _ _ hu => .cplHead (.cplLate hu)))) fun _ _ hu => .descDone hu

theorem cqStall {c : ℕ} (h : s.regsWf) : (s.cqStall c).regsWf :=
  .ite h (.raise (.modCq (.put h)))

theorem evSend {r : ℕ} {l : List EvRec} (h : s.regsWf) : (s.evSend r l).regsWf :=
  .ask (.modRing h)

theorem evWrite {r : ℕ} (h : s.regsWf) : (s.evWrite r).regsWf := by
  unfold State.evWrite
  extract_lets
  refine .ite h (.ite (.evSend h) ?_)
  extract_lets
  split
  · exact h
  · exact .refillRing (.evSend (.modRing h))

theorem evSettle {r : ℕ} (h : s.regsWf) : (s.evSettle r).regsWf :=
  .ite (.modRing (.put h)) h

theorem evResponse {r n addr err : ℕ} (h : s.regsWf) : (s.evResponse r n addr err).regsWf :=
  .ite (.evSettle (.modRing (.bump (.put h)))) (.evSettle (.raise (.fault (.modRing (.put h)))))

end Sys2Proof.Machine.State.regsWf
end

section
/-! The Spool and Pool ports -/

namespace Sys2Proof.Machine.State.regsWf

variable {s : State}

theorem spoolIssue {p : ℕ} (h : s.regsWf) : (s.spoolIssue p).regsWf := by
  unfold State.spoolIssue
  refine .ite h ?_
  split
  · extract_lets
    split
    · exact .later (.modTag (.same h rfl))
    · exact .same h rfl
  · exact h

theorem modUnit {t k : ℕ} {f : Cw → Cw} (h : s.regsWf) : (s.modUnit t k f).regsWf :=
  .modTag h

theorem unitPoisoned {t k d : ℕ} (h : s.regsWf) : (s.unitPoisoned t k d).regsWf :=
  .ite (.later (.modUnit (.modTag (.same h rfl)))) (.later h)

theorem requestReads {t : Option ℕ} {l : List SramRead} :
    ∀ {s : State}, s.regsWf → (s.requestReads t l).2.regsWf := by
  induction l with
  | nil => exact fun h => h
  | cons r l ih => exact fun h => ih (.storeRead h)

theorem spoolRequest {p : ℕ} {sram : List SramRead} (h : s.regsWf) : (s.spoolRequest p sram).regsWf := by
  unfold State.spoolRequest
  refine .ite h ?_
  split
  · extract_lets unit
    split
    rename_i u heq
    have hu : u.regsWf := .ofSnd heq (.requestReads h)
    clear_value unit
    split
    · exact .unitPoisoned hu
    · exact .spoolIssue hu
  · exact h

theorem dmaTagError {r : Spool} {err t : ℕ} {who : ℕ} (h : s.regsWf) : (s.dmaTagError r err t who).regsWf := by
  unfold State.dmaTagError
  refine .ite (.dmaErrorEvent h) (.ite (.dmaErrorEvent (.ite (.modTag h) h)) ?_)
  extract_lets _ s1
  have hs1 : s1.regsWf := .dmaErrorEvent (.withdraw (.modTag h))
  exact .later (.same hs1 rfl)

theorem unitMoved {t k n : ℕ} (h : s.regsWf) : (s.unitMoved t k n).regsWf :=
  .modUnit (.modTag h)

theorem freeUnit {t k : ℕ} (h : s.regsWf) : (s.freeUnit t k).regsWf := by
  unfold State.freeUnit
  refine .ite h ?_
  split
  · exact .dropStage h
  · exact h

theorem metaMoved {t k : ℕ} {ok : Bool} {p : Cont → Bool} (h : s.regsWf) : (s.metaMoved t k ok p).regsWf := by
  unfold State.metaMoved
  extract_lets s
  have hs : s.regsWf := .ite h (.modUnit h)
  exact .ite (.modUnit hs) hs

theorem subRecordWritten {j : ℕ} {bad : Bool} (h : s.regsWf) : (s.subRecordWritten j bad).regsWf := by
  unfold State.subRecordWritten
  split
  · exact .ite (.subErase h) h
  · exact h

theorem writeDone {r : Spool} {err : ℕ} (h : s.regsWf) : (s.writeDone r err).regsWf := by
  unfold State.writeDone
  refine .ite (.transferLost h) ?_
  split
  · exact .ite (.ite h (.dmaError h)) (.later (.tryFree (.freeUnit (.ite (.unitMoved (.modTag h)) (.dmaTagError (.modTag h))))))
  · refine .ite (.ite h (.dmaError h)) ?_
    extract_lets s
    have hs : s.regsWf := .metaMoved (.modTag h)
    exact .later (.tryFree (.ite hs (.dmaTagError hs)))
  · exact .cplResponse h
  · exact .evResponse (.ite h (.dmaError h))
  · exact .lineWritten h
  · exact .poolLineMoved h
  · exact .subRecordWritten h
  · exact .softStaged h
  · exact .racStaged h
  · exact .ite (.fresetWrote h) h
  · exact h

theorem readDone' {r : Spool} {err : ℕ} {data : List Byte} (h : s.regsWf) : (s.readDone' r err data).regsWf := by
  unfold State.readDone'
  refine .ite (.transferLost h) ?_
  split
  · exact .ite (.ite h (.dmaError h)) (.later (.tryFree (.ite (.unitMoved (.modTag (.modTag h))) (.dmaTagError (.modTag h)))))
  · refine .ite (.ite h (.dmaError h)) ?_
    extract_lets s
    have hs : s.regsWf := .metaMoved (.modTag h)
    exact .later (.tryFree (.ite (.modTag hs) (.dmaTagError hs)))
  · exact .ite (.ite h (.dmaError h)) (.ite (.ite (.later (.tryFree h)) (.imageRead h)) (.later (.tryFree (.dmaTagError h))))
  · exact .recPiece h
  · exact .recPiece h
  · exact .fetchedData h
  · exact .refetchedData h
  · exact .fillLanded h
  · exact .poolLineMoved h
  · exact .softRead h
  · exact .racRead h
  · exact .subRecord h
  · exact h

theorem poolSend (h : s.regsWf) : s.poolSend.regsWf := by
  unfold State.poolSend
  refine .ite h ?_
  split
  · exact .same h rfl
  · exact h

theorem needWaits {r : PoolReq} (h : s.regsWf) : (s.needWaits r).regsWf := by
  unfold State.needWaits
  refine .ite h ?_
  split
  rename_i u heq
  have hu : u.regsWf := .ofSnd heq (by split; exacts [h, .same h rfl])
  exact .same hu rfl

theorem allocEmpty {r : PoolReq} (h : s.regsWf) : (s.allocEmpty r).regsWf := by
  unfold State.allocEmpty
  extract_lets s
  have hs : s.regsWf := by
    unfold s
    split
    · exact .ite (.sleepAbandon h) h
    · exact h
  exact .needWaits hs

theorem askAgain (h : s.regsWf) : s.askAgain.regsWf :=
  .same h rfl

theorem poolRefusal {op owner addr reason : ℕ} (h : s.regsWf) : (s.poolRefusal op owner addr reason).regsWf :=
  .raise (.fault (.bump h))

theorem shareOk {r : PoolReq} (h : s.regsWf) : (s.shareOk r).regsWf := by
  unfold State.shareOk
  extract_lets
  split
  · exact .releaseBuf (.same h rfl)
  · exact .foldl (.same h rfl) fun _ _ hu => .racReady (.modRac hu)

theorem bufLost {addr : ℕ} (h : s.regsWf) : (s.bufLost addr).regsWf :=
  .foldl (.foldl (.same h rfl) (fun _ _ hu => .accBad (.modAcc hu))) fun _ _ hu => .ite (.racShareRefused hu)
    (.racPush (.modRac hu))

theorem refused {r : PoolReq} {reason : ℕ} (h : s.regsWf) : (s.refused r reason).regsWf := by
  unfold State.refused
  extract_lets s
  have hs : s.regsWf := .poolRefusal h
  exact .ite (.foldl (.same hs rfl) (fun _ _ hu => .racShareRefused hu)) (.ite (.askAgain (.bufLost hs)) (.bufLost hs))

theorem poolAnswer {f : State → PoolReq → State} (h : s.regsWf) (hf : ∀ u k, u.regsWf → (f u k).regsWf) :
    (s.poolAnswer f).regsWf := by
  unfold State.poolAnswer
  split
  · exact h
  · exact .emptyOver (hf _ _ (.same h rfl))

theorem grant {r : PoolReq} {cls addr : ℕ} (h : s.regsWf) : (s.grant r cls addr).regsWf :=
  .ite (.later (.same h rfl)) (.allocEmpty (.poolRefusal (.same h rfl)))

theorem emptyLimit (h : s.regsWf) : s.emptyLimit.regsWf := by
  unfold State.emptyLimit
  split
  · exact h
  · exact .ite h (.raise (.same h rfl))

end Sys2Proof.Machine.State.regsWf
end

section
/-! The tick -/

namespace Sys2Proof.Machine.State.regsWf

variable {s : State}

theorem tick (h : s.regsWf) : s.tick.regsWf :=
  .ite (.same h rfl) h

end Sys2Proof.Machine.State.regsWf
end

section
/-! The setup registers' form under every command, and O5. -/

namespace Sys2Proof.Machine

/-- A command that keeps the form of the setup registers. -/
def KeepsRegs (m : State → Host.Outcome State Fault Refusal) : Prop :=
  ∀ s t, State.regsWf s → m s = .next t → State.regsWf t

theorem KeepsRegs.live {f : State → State} (hf : ∀ u, u.regsWf → (f u).regsWf) : KeepsRegs fun s => live s f := by
  intro s t hs h
  obtain ⟨-, ⟨-, rfl⟩ | ⟨-, rfl⟩⟩ := live_next s h
  · exact .settle (hf s hs)
  · exact hs

theorem KeepsRegs.top {f : State → State} (hf : ∀ u, u.regsWf → (f u).regsWf) : KeepsRegs fun s => liveTop s f :=
  .live fun u hu => .ite (hf u hu) hu

theorem KeepsRegs.port {f : State → State} (hf : ∀ u, u.regsWf → (f u).regsWf) : KeepsRegs fun s => onPort s f := by
  intro s t hs h
  obtain ⟨-, ⟨-, rfl⟩ | ⟨-, rfl⟩⟩ := onPort_next s h
  · exact .settle (hf s hs)
  · exact .respond hs

theorem exec_keepsRegs : ∀ c : Instr, framed c → KeepsRegs (exec c)
  | .resetNAssert, h => absurd rfl h.1.1
  | .resetNDeassert, h => absurd rfl h.1.2.1
  | .startupStep _, _ => .live fun _ hu => .startStep hu
  | .fuseAck _, _ => .live fun _ hu => .fuseWord hu
  | .fuseTimeout, _ => .live fun _ hu => .ite (.trimBad hu) hu
  | .wakeNFall, _ => .live fun _ hu => .wakeFall hu
  | .wakeNIdleWindow, _ => .live fun _ hu => .wakeWindow hu
  | .pwrfailLatch, _ => .live fun _ hu => .ite (.same hu rfl) (.latchSet (.same hu rfl))
  | .holdupExpiry, _ => .live fun _ hu => .holdExpire hu
  | .pwrAckRise _, h => absurd rfl (h.2.1 _)
  | .pwrAckFall _, h => absurd rfl (h.2.2.1 _)
  | .cclkAckRise, _ => .live fun _ hu => .cclkRise hu
  | .cclkAckFall, h => absurd rfl h.2.2.2
  | .pwrAckLate _ _, _ => .live fun _ hu => .ackLate hu
  | .pllLockLoss _, _ => .live fun _ hu => .pllGone hu
  | .pllRelock _ _, _ => .live fun _ hu => .pllRelock hu
  | .testModeHigh, h => absurd rfl h.1.2.2
  | .rbNTransition _ _, _ => .live fun _ hu => .rbEdge hu
  | .rbChatterWindow _ _ _, _ => .live fun _ hu => .rbWindow hu
  | .fatalCause _ _, _ => .live fun _ hu => .fatalCause hu
  | .safeStateRelease _, _ => .live fun _ hu => .leaveSafe hu
  | .registerWrite _ _, _ => .port fun _ hu => .setupWrite hu
  | .apply _ _, _ => .port fun _ hu => .writeWith hu fun _ hv => .ite (.applyStart hv) hv
  | .applyDrained _, _ => .live fun _ hu => .applyDrained hu
  | .applyPllLockTimeout _, _ => .live fun _ hu => .applyLate hu
  | .zqStart _ _, _ => .port fun _ hu => .writeWith hu fun _ hv => .zqStart hv
  | .longCalibration _ _, _ => .live fun _ hu => .longCal hu
  | .shortCalibration _ _, _ => .live fun _ hu => .shortPeriod hu
  | .trainStart _ _, _ => .port fun _ hu => .writeWith hu fun _ hv => .ite (.trainStart hv) hv
  | .trainingDone _ _, _ => .live fun _ hu => .trainEnd hu
  | .driftPeriodEnd _ _, _ => .live fun _ hu => .driftEnd hu
  | .trackingBurst _ _, _ => .live fun _ hu => .track' hu
  | .stuckClear _ _, _ => .port fun _ hu => .writeWith hu fun _ hv => .stuckClear hv
  | .patchRowCommit _ _, _ => .port fun _ hu => .writeWith hu fun _ hv => .rowCommit hv
  | .nanoWordCommit _ _, _ => .port fun _ hu => .writeWith hu fun _ hv => .nanoCommit hv
  | .activate _, _ => .port fun _ hu => .writeWith hu fun _ hv => .ite (.patActivate hv) hv
  | .patClear _, _ => .port fun _ hu => .writeWith hu fun _ hv => .ite (.patClear hv) hv
  | .patchBankSwitch _, _ => .live fun _ hu => .patSwitch hu
  | .validate _, _ => .port fun _ hu => .writeWith hu fun _ hv => .ite (.validateStart hv) hv
  | .validateDone, _ => .top fun _ hu => .validateDone hu
  | .stripeSelWrite _, _ => .port fun _ hu => .writeWith hu fun _ hv => .stripeSel hv
  | .tempWrite _ _, _ => .port fun _ hu => .writeWith hu fun _ hv => .updateHold hv
  | .sqEnable _ _, _ => .port fun _ hu => .writeWith hu fun _ hv => .sqEnable hv
  | .cqEnable _ _, _ => .port fun _ hu => .writeWith hu fun _ hv => .cqEnable hv
  | .evEnable _ _, _ => .port fun _ hu => .writeWith hu fun _ hv => .evEnable hv
  | .evDisable _ _, _ => .port fun _ hu => .writeWith hu fun _ hv => .ite (.evDisable hv) hv
  | .fresetGraceful, _ => .port fun _ hu => .writeWith hu fun _ hv => .fresetStart hv
  | .fresetImmediate, _ => .port fun _ hu => .writeWith hu fun _ hv => .fresetStart hv
  | .fresetBoundExpiry, _ => .top fun _ hu => .fresetBound hu
  | .fresetDone, _ => .top fun _ hu => .fresetEnd hu
  | .lock _, _ => .port fun _ hu => .writeWith hu fun _ hv => hv
  | .blwClr _, _ => .port fun _ hu => .writeWith hu fun _ hv => .blwClear hv
  | .rlhcClr _, _ => .port fun _ hu => .writeWith hu fun _ hv => .rlhcClear hv
  | .fatalTest _, _ => .port fun _ hu => .writeWith hu fun _ hv => .ite (.fatal hv) hv
  | .fatalClear _ _, _ => .port fun _ hu => .writeWith hu fun _ hv => .fatalClear hv
  | .repair _, _ => .port fun _ hu => .writeWith hu fun _ hv => .repairGo hv
  | .testread _ _, _ => .port fun _ hu => .writeWith hu fun _ hv => .balInject hv
  | .balInjectArm _, _ => .port fun _ hu => .writeWith hu fun _ hv => .ite (.put hv) hv
  | .blwInjectArm _, _ => .port fun _ hu => .writeWith hu fun _ hv => .blwInject hv
  | .patInjectArm _, _ => .port fun _ hu => .writeWith hu fun _ hv => hv
  | .lunFence _ _, _ => .port fun _ hu => .writeWith hu fun _ hv => .lunFenceWrite hv
  | .lunUnfence _ _, _ => .port fun _ hu => .writeWith hu fun _ hv => .lunUnfenceWrite hv
  | .channelFence _ _, _ => .port fun _ hu => .writeWith hu fun _ hv => .chanFenceWrite hv
  | .channelUnfence _ _, _ => .port fun _ hu => .writeWith hu fun _ hv => .chanUnfenceWrite hv
  | .quadFence _ _, _ => .port fun _ hu => .writeWith hu fun _ hv => .quadFenceWrite hv
  | .quadUnfence _ _, _ => .port fun _ hu => .writeWith hu fun _ hv => .quadUnfenceWrite hv
  | .declare _ _, _ => .port fun _ hu => .writeWith hu fun _ hv => .declareWrite hv
  | .fltValidClear _ _, _ => .port fun _ hu => .writeWith hu fun _ hv => .validClear hv
  | .deep _, _ => .port fun _ hu => .writeWith hu fun _ hv => .ite (.sleepStart hv) hv
  | .wake _, _ => .port fun _ hu => .writeWith hu fun _ hv => .ite (.wakeWrite hv) hv
  | .quadOn _ _, _ => .port fun _ hu => .writeWith hu fun _ hv => .qpolWrite hv
  | .pwrfailLatchClear _ _, _ => .port fun _ hu => .writeWith hu fun _ hv => .ite (.latchClear (.same hv rfl)) (.same hv rfl)
  | .wakeNUnmask _, _ => .port fun _ hu => .writeWith hu fun _ hv => .unmask hv
  | .wakeTimerFire, _ => .live fun _ hu => .fireSlot hu
  | .inlinePush _, _ => .live fun _ hu => .pushPort hu
  | .sqTailDoorbell _, _ => .live fun _ hu => .pushPort hu
  | .cqHeadDoorbell _, _ => .live fun _ hu => .pushPort hu
  | .evHeadDoorbell _, _ => .live fun _ hu => .pushPort hu
  | .doorbellShadowWrite _, _ => .live fun _ hu => .pushPort hu
  | .doorbellShadowDrain, _ => .top fun _ hu => .shadowDrain hu
  | .ringFetch _, _ => .top fun _ hu => .ringFetch hu
  | .staleRefetch _ _, _ => .top fun _ hu => .staleNext hu
  | .nop _ _, _ => .top fun _ hu => .intake hu
  | .read _ _, _ => .top fun _ hu => .intake hu
  | .readRaw _ _, _ => .top fun _ hu => .intake hu
  | .copy _ _, _ => .top fun _ hu => .intake hu
  | .programAppend _ _, _ => .top fun _ hu => .intake hu
  | .programAt _ _, _ => .top fun _ hu => .intake hu
  | .erase _ _, _ => .top fun _ hu => .intake hu
  | .eraseCheck _ _, _ => .top fun _ hu => .intake hu
  | .stripeOpen _ _, _ => .top fun _ hu => .intake hu
  | .stripeClose _ _, _ => .top fun _ hu => .intake hu
  | .substitute _ _, _ => .top fun _ hu => .intake hu
  | .rebuild _ _, _ => .top fun _ hu => .intake hu
  | .tallyWrite _ _, _ => .top fun _ hu => .intake hu
  | .tallyScan _ _, _ => .top fun _ hu => .intake hu
  | .flush _ _, _ => .top fun _ hu => .intake hu
  | .abort _ _, _ => .top fun _ hu => .intake hu
  | .rlhSync _ _, _ => .top fun _ hu => .intake hu
  | .dieCmd _ _, _ => .top fun _ hu => .intake hu
  | .routine _ _, _ => .top fun _ hu => .intake hu
  | .completionWrite _, _ => .top fun _ hu => .cplWrite hu
  | .cqStall _, _ => .top fun _ hu => .cqStall hu
  | .offerRoutine _, _ => .top fun _ hu => .offer hu
  | .unpark _, _ => .live fun _ hu => .unpark hu
  | .chanterTimerExpire _, _ => .live fun _ hu => .timerExpire hu
  | .nextSeq _ _, _ => .live fun _ hu => .runWord hu
  | .jump _ _, _ => .live fun _ hu => .runWord hu
  | .branch _ _, _ => .live fun _ hu => .runWord hu
  | .callSeq _ _, _ => .live fun _ hu => .runWord hu
  | .ret _ _, _ => .live fun _ hu => .runWord hu
  | .yield _ _, _ => .live fun _ hu => .runWord hu
  | .endSeq _ _, _ => .live fun _ hu => .runWord hu
  | .trap _ _, _ => .live fun _ hu => .trapWord hu
  | .runLimitFault _, _ => .live fun _ hu => .runLimit hu
  | .watchdogFault _, _ => .live fun _ hu => .watchdog hu
  | .reqack _ _, _ => .live fun _ hu => .onCtx hu
  | .timerLoad _ _ _, _ => .live fun _ hu => .onCtx hu
  | .mov _ _ _, _ => .live fun _ hu => .onCtx hu
  | .movr _ _ _, _ => .live fun _ hu => .onCtx hu
  | .add _ _ _ _, _ => .live fun _ hu => .onCtx hu
  | .sub _ _ _ _, _ => .live fun _ hu => .onCtx hu
  | .andOp _ _ _ _, _ => .live fun _ hu => .onCtx hu
  | .orOp _ _ _ _, _ => .live fun _ hu => .onCtx hu
  | .shr _ _ _ _, _ => .live fun _ hu => .onCtx hu
  | .shl _ _ _ _, _ => .live fun _ hu => .onCtx hu
  | .dec _ _, _ => .live fun _ hu => .onCtx hu
  | .ldk _ _ _, _ => .live fun _ hu => .onCtx hu
  | .ldx _ _ _, _ => .live fun _ hu => .onCtx hu
  | .lds _ _, _ => .live fun _ hu => .ite (.onCtx hu) hu
  | .cmp _ _ _, _ => .live fun _ hu => .onCtx hu
  | .ldl _ _ _, _ => .live fun _ hu => .onCtx hu
  | .ceOn _, _ => .live fun _ hu => .laneCeOn hu
  | .ceOff _, _ => .live fun _ hu => .laneCeOff hu
  | .cmd _, _ => .live fun _ hu => .laneCmd hu
  | .addr _, _ => .live fun _ hu => .laneAddr hu
  | .din _ _, _ => .live fun _ hu => .dinBurst hu
  | .dout _ _, _ => .live fun _ hu => .laneDout hu
  | .status _ _, _ => .live fun _ hu => .laneStatus hu
  | .trnRd _ _, _ => .live fun _ hu => .laneTrnRd hu
  | .trnWr _, _ => .live fun _ hu => .laneTrnWr hu
  | .stagingReserved _, _ => .live fun _ hu => .reserve hu
  | .lunTimeLimit _, _ => .live fun _ hu => .limit hu
  | .trstExpiry _, _ => .live fun _ hu => .resetLate hu
  | .suspendLimit _, _ => .live fun _ hu => .suspLate hu
  | .dieCmdPollTimeout _, _ => .live fun _ hu => .rawLate hu
  | .deadlinePass _, _ => .top fun _ hu => .deadline hu
  | .resumeMinWait _, _ => .top fun _ hu => .resumeMin hu
  | .resume _, _ => .top fun _ hu => .resumeOp hu
  | .holdMaxExpiry _, _ => .top fun _ hu => .holdMax hu
  | .d0PeriodEnd, _ => .top fun _ hu => .periodEnd hu
  | .decodeJobStart _, _ => .top fun _ hu => .jobStart hu
  | .decodeJobDone _ _, _ => .top fun _ hu => .jobDone hu
  | .sliceJobOverrun _, _ => .top fun _ hu => .sliceFault hu
  | .sliceSpareActive _ _, _ => .top fun _ hu => .spareTested hu
  | .rowTrackExpiry _ _, _ => .live fun _ hu => .trackFree hu
  | .rlhMissWait _, _ => .top fun _ hu => .missWait hu
  | .padWaitExpiry _, _ => .top fun _ hu => .padWait hu
  | .spoolRequest _, _ => .top fun _ hu => .spoolRequest hu
  | .spoolWriteResponse _ _ _, _ => .top fun _ hu => by
      split
      · exact .writeDone (.same hu rfl)
      · exact hu
  | .spoolReadData _ _ _ _, _ => .top fun _ hu => by
      split
      · exact .ite hu (.readDone' (.same hu rfl))
      · exact hu
  | .poolRequest, _ => .top fun _ hu => .poolSend hu
  | .poolAnswerOk _ _, _ => .top fun _ hu => .poolAnswer hu fun _ _ hv =>
      .ite (.grant hv) (.ite (.shareOk hv) (.ite (.askAgain hv) hv))
  | .poolEmpty, _ => .top fun _ hu => .poolAnswer hu fun _ _ hv => .ite (.allocEmpty (.bump hv)) (.refused hv)
  | .poolRefused _, _ => .top fun _ hu => .poolAnswer hu fun _ _ hv =>
      .ite (.allocEmpty (.poolRefusal hv)) (.ite (.refused hv) (.refused hv))
  | .poolReservedAnswer, _ => .top fun _ hu => .poolAnswer hu fun _ _ hv => .ite (.allocEmpty (.poolRefusal hv)) (.refused hv)
  | .poolRetry, _ => .top fun _ hu => .askAgain hu
  | .poolEmptyLimit, _ => .top fun _ hu => .emptyLimit hu
  | .eventRecordWrite _, _ => .top fun _ hu => .evWrite hu
  | .holdoffEnd _, _ => .top fun _ hu => .modRing hu
  | .spareTakeoverDone, _ => .live fun _ hu => .takeoverEnd hu
  | .quadIdleEntry _, _ => .live fun _ hu => .quadIdle hu
  | .quadOffEntry _, _ => .live fun _ hu => .quadOff hu
  | .quadWake _, _ => .live fun _ hu => .quadWake hu
  | .slicePairPower _, _ => .top fun _ hu => .pairUp hu
  | .slicePairRelease _, _ => .top fun _ hu => .pairDown hu
  | .deepEntryStep, _ => .live fun _ hu => .sleepNext hu
  | .deepEventDrainTimeout, _ => .live fun _ hu => .ite (.sleepAbandon hu) hu
  | .deepWake _, _ => .live fun _ hu => .deepWakeUp hu
  | .pllLocked _, _ => .live fun _ hu => .pllsLocked hu
  | .applyHoldExpiry _, _ => .live fun _ hu => .applyHold hu
  | .storeFillDone _, _ => .live fun _ hu => .filled hu
  | .rowCopyDone _, _ => .live fun _ hu => .rowCopied hu
  | .tetTimeLoRead, _ => .port fun _ hu => .timeLoRead hu
  | .pushReservedWrite _, _ => .live fun _ hu => .pushPort hu

theorem pwrAckRise_keepsRegs (d : Fin 28) : KeepsRegs (exec (.pwrAckRise d)) := by
  intro s t hs h
  rw [exec_pwrAckRise] at h
  split at h
  · obtain rfl := Host.Outcome.next.inj h
    exact .setIrqs (.ackRise hs)
  · exact KeepsRegs.live (fun _ hu => .ackRise hu) s t hs h

theorem pwrAckFall_keepsRegs (d : Fin 28) : KeepsRegs (exec (.pwrAckFall d)) := by
  intro s t hs h
  rw [exec_pwrAckFall] at h
  obtain rfl := Host.Outcome.next.inj h
  exact .ite (.testPower (.ackFall hs)) (.ite (.settle (.powerMore (.ackFall hs))) (.ackFall hs))

theorem cclkAckFall_keepsRegs : KeepsRegs (exec .cclkAckFall) := by
  intro s t hs h
  rw [exec_cclkAckFall] at h
  split at h
  · nomatch h
  · obtain rfl := Host.Outcome.next.inj h
    exact .ite (.settle (.powerMore (.cclkFall hs))) (.cclkFall hs)

/-- Every command keeps the form of the setup registers. -/
theorem exec_regsWf {c : Instr} {s t : State} (hs : s.regsWf) (h : exec c s = .next t) : t.regsWf := by
  rcases command_cases c with hc | rfl | rfl | rfl | ⟨d, rfl⟩ | ⟨d, rfl⟩ | rfl
  · exact exec_keepsRegs c hc s t hs h
  · obtain rfl := Host.Outcome.next.inj h
    exact .resetAssert
  · obtain rfl := Host.Outcome.next.inj h
    exact .resetDeassert hs
  · rw [exec_testModeHigh] at h
    obtain rfl := Host.Outcome.next.inj h
    exact .testPower (.same hs rfl)
  · exact pwrAckRise_keepsRegs d s t hs h
  · exact pwrAckFall_keepsRegs d s t hs h
  · exact cclkAckFall_keepsRegs s t hs h

end Sys2Proof.Machine

open Sys2Proof Sys2Proof.Machine

/-- Settles O5: registers are written through `State.setReg` or cleared by `clearSpare`, and both put into the store in its canonical
form; every operation of the model is made of such writes and of updates of other fields. -/
theorem stepsKeepRegisters : Obligations.StepsKeepRegisters := by
  intro s t hs h
  cases hp : s.pending with
  | nil =>
    rw [step_nil s hp] at h
    obtain rfl := Host.Outcome.next.inj h
    exact .tick hs
  | cons c l =>
    rw [step_cons s hp] at h
    exact exec_regsWf (s := { s with pending := l }) (.same hs rfl) h

end
